-- ==== Sys2Proof/Word.lean ====
section
/-! DEFINITION. The word types of the CG-880: a byte and a 32-bit register word (R15). -/

namespace Sys2Proof

/-- One byte of a packet, an object or host memory. -/
abbrev Byte := BitVec 8

/-- One register (R15). -/
abbrev Word := BitVec 32

end Sys2Proof
end

