-- ==== Sys2Proof/Config.lean ====
section
/-! DEFINITION. What an implementation fixes and the spec leaves open, as constants with no body: no proof can see
their value. A free value is `Config.free` applied to the plain counter `State.freeCount`, which the step reads and
advances (assumption 4). -/

namespace Sys2Proof.Config

/-- A value the spec leaves open, one for each count. -/
opaque free : Nat → BitVec 64

/-- A byte string the spec leaves open: undefined buffer contents, a section of a state image whose layout the
chapters do not give, microcode. -/
opaque freeBytes : Nat → List Byte

/-- A byte of an object whose contents the spec leaves undefined (R223), from the count of free values at which they became so and its offset. -/
opaque freeByte : Nat → Nat → BitVec 8

/-- SHA-384 (FIPS 180-4), which the spec names and does not define (assumption 5). -/
opaque sha384 : List Byte → List Byte

/-- The fused grade, true for grade E (R2). -/
opaque gradeE : Bool

/-- The fused unique device identifier (R5). -/
opaque uid : BitVec 64

/-- The offset, in a function's BAR0, of the page of granted registers whose capability entry has this ID (R22,
Table 2.5): the spec gives the device the choice. -/
opaque pageOffset : Nat → Nat → Nat

/-- Whether a value exactly half way between two results, of which the spec says only "rounded to nearest", goes up; the
argument is the lower of the two. -/
opaque tieUp : Nat → Bool

/-- What the expansion of a half-float that is not a number gives (R265). -/
opaque nanValue : Nat → BitVec 16

/-- The bits a compressed block's stream is read beyond the sectors it says it has (R231). -/
opaque beyondSectors : Nat

/-- Whether a scaler filters rows before columns (R273): the spec gives the two filters and their rounding, not their
order. -/
opaque rowsFirst : Bool

/-- The position in the destination rectangle, in 1/65,536 pixel, that the late warp's FP32 arithmetic gives (R281): the
arguments are FX, FY, CX, CY, the stamp's quaternion, the current one's, the destination pixel. The order of its roundings
is not given. -/
opaque warpPosition : List Int → Int × Int

/-- The value the warp unit's bilinear sampling gives (R282), from the two fractions and the four values. -/
opaque warpSample : List Nat → BitVec 16

/-- What unwrapping a key blob under the fleet provisioning key gives: the key, or nothing where the tag is wrong (R366). The
fleet key is fused, and AES-256-GCM is named, not defined, by the spec. -/
opaque unwrapKey : List Byte → Option (List Byte)

/-- The amplitude, in 2⁻³¹, of a gain in 1/64 dB other than 0 dB and mute (R425): 10^(g/1280) has no exact value in the device's
arithmetic, which is not given. -/
opaque amplitude : Int → Int

/-- What the compiler finds in an entry point (R198 to R204). The spec takes SPIR-V from Khronos and gives the reasons of Table 7.5: `fail` is whether
the version does not match, the reason and the locator of a module that is not accepted; the rest describes one that is: its bytes of private and workgroup memory, its code,
the binding entries it declares (entry, kind, whether it writes), its workgroup size. -/
structure Compiled where
  fail : Option (Bool × Nat × Nat)
  privateBytes : Nat
  groupBytes : Nat
  code : Nat
  binds : List (Nat × Nat × Bool)
  deriving Inhabited

/-- The compiler (R201: the same key on the same Damath version always gives the same): module, then ENTRY, STAGE, target formats, sample count,
Damath version. -/
opaque compile : List Byte → List Nat → Compiled

/-- The byte offset of a varying of the second program that does not match the first (Table 7.5, reason 6), plus one; 0: they match. -/
opaque linkVaryings : List Byte → List Byte → Nat

/-- Whether a product that is no whole sample is rounded up (R424): the spec gives the widths, not the rounding. -/
opaque sampleUp : Int → Bool

/-- The gain, in 2⁻³¹, of the compressor (R426), the ducker (R426, R432) and the limiter (R431) after a sample: the arguments are which of
the three, its settings, its gain before the sample and the level that drives it. -/
opaque dynamics : List Int → Int

/-- A level in units below full scale or a reduction, from an amplitude: units per dB, amplitude. -/
opaque decibels : Nat → Int → Nat

/-- What a sample beyond 32 bits becomes in a delay line, whose samples take four bytes (Table 15.5). -/
opaque delayWord : Int → Int

/-- The length, in units of 16 bytes, of a section of a state image whose layout is not given (Table 3.25), from its type and its items. -/
opaque chapterLength : Nat → Nat → Nat

/-- The debug lock fused in OTP (R548, R555). -/
opaque debugLock : BitVec 2

/-- Whether a signature over a challenge verifies under the development key (R549): ECDSA over the message of the rule, named, not defined, by the spec. -/
opaque crownSigned : List Byte → List Byte → Bool

end Sys2Proof.Config
end

