-- ==== Sys2Proof/Machine/Bits.lean ====
section
/-! DEFINITION. Bit fields, little-endian byte order (R9, R10), and finite maps kept as sorted lists in one
canonical form: keys strictly rising, and no entry equal to what an unlisted key reads as. -/

namespace Sys2Proof.Machine

/-- The field at bits [hi:lo] of `v` (R9). -/
def bits (v hi lo : Nat) : Nat := v / 2 ^ lo % 2 ^ (hi + 1 - lo)

/-- Bit `n` of `v`. -/
def bit (v n : Nat) : Bool := v.testBit n

/-- `v` with the field at bits [hi:lo] set to the low bits of `x`. -/
def setBits (v hi lo x : Nat) : Nat :=
  v - bits v hi lo * 2 ^ lo + x % 2 ^ (hi + 1 - lo) * 2 ^ lo

/-- 1 for true, 0 for false. -/
def b2n (b : Bool) : Nat := if b then 1 else 0

/-- The value of little-endian bytes (R10). -/
def leNat : List Byte → Nat
  | [] => 0
  | b :: r => b.toNat + 256 * leNat r

/-- `v` as `n` little-endian bytes (R10). -/
def leBytes : Nat → Nat → List Byte
  | 0, _ => []
  | n + 1, v => BitVec.ofNat 8 v :: leBytes n (v / 256)

/-- `n` bytes of `bs` from offset `off`, zero where `bs` is shorter. -/
def slice (bs : List Byte) (off n : Nat) : List Byte :=
  (List.range n).map (fun i => bs.getD (off + i) 0)

/-- The two's complement reading of the low `w` bits of `v`. -/
def signed (w v : Nat) : Int :=
  let x := v % 2 ^ w
  if x < 2 ^ (w - 1) then (x : Int) else (x : Int) - 2 ^ w

/-- The low `w` bits of an integer in two's complement. -/
def unsigned (w : Nat) (x : Int) : Nat := (x % 2 ^ w).toNat

/-- A count that saturates at `top`. -/
def satAdd (top a b : Nat) : Nat := min top (a + b)

/-- Rounded-up quotient. -/
def ceilDiv (a b : Nat) : Nat := (a + b - 1) / b

/-- The numbers whose bit is set in a mask of `w` bits, in ascending order. -/
def maskList (w m : Nat) : List Nat := (List.range w).filter (fun k => m.testBit k)

/-- The number of set bits of the low `w` bits. -/
def popCount (w m : Nat) : Nat := (maskList w m).length

/-- A finite map with natural keys. -/
abbrev Tab (α : Type) := List (Nat × α)

/-- What a map reads at `k`; `d k` where the map lists nothing. -/
def tabGet {α : Type} (d : Nat → α) : Tab α → Nat → α
  | [], k => d k
  | (k', v) :: r, k => if k' = k then v else tabGet d r k

/-- The map with nothing listed at `k`. -/
def tabErase {α : Type} (m : Tab α) (k : Nat) : Tab α := m.filter (fun p => p.1 != k)

/-- The map with `(k, v)` put before the first greater key. -/
def tabInsert {α : Type} (k : Nat) (v : α) : Tab α → Tab α
  | [] => [(k, v)]
  | (k', v') :: r => if k < k' then (k, v) :: (k', v') :: r else (k', v') :: tabInsert k v r

/-- The map that reads `v` at `k` and is otherwise unchanged. -/
def tabSet {α : Type} [DecidableEq α] (d : Nat → α) (m : Tab α) (k : Nat) (v : α) : Tab α :=
  if v = d k then tabErase m k else tabInsert k v (tabErase m k)

/-- The map that reads a list's values at the keys from `lo` on, and is otherwise unchanged. -/
def tabPut {α : Type} [DecidableEq α] (d : Nat → α) (m : Tab α) (lo : Nat) (vs : List α) : Tab α :=
  m.filter (fun p => decide (p.1 < lo)) ++ (((vs.zipIdx lo).map (fun x => (x.2, x.1))).filter (fun p => decide (p.2 ≠ d p.1)) ++
    m.filter (fun p => decide (lo + vs.length ≤ p.1)))

/-- The map with every listed value changed. -/
def tabMap {α : Type} [DecidableEq α] (d : Nat → α) (m : Tab α) (g : Nat → α → α) : Tab α :=
  (m.map (fun p => (p.1, g p.1 p.2))).filter (fun p => decide (p.2 ≠ d p.1))

/-- Keys strictly rising, each above `lo`. -/
def risingFrom {α : Type} : Nat → Tab α → Bool
  | _, [] => true
  | lo, (k, _) :: r => decide (lo ≤ k) && risingFrom (k + 1) r

/-- The canonical form of a map. -/
def tabWf {α : Type} [DecidableEq α] (d : Nat → α) (m : Tab α) : Bool :=
  risingFrom 0 m && m.all (fun p => decide (p.2 ≠ d p.1))

/-- The entries whose key lies in [lo, hi). -/
def tabRange {α : Type} (m : Tab α) (lo hi : Nat) : Tab α :=
  m.filter (fun p => decide (lo ≤ p.1) && decide (p.1 < hi))

/-- The map without the entries whose key lies in [lo, hi). -/
def tabDropRange {α : Type} (m : Tab α) (lo hi : Nat) : Tab α :=
  m.filter (fun p => !(decide (lo ≤ p.1) && decide (p.1 < hi)))

end Sys2Proof.Machine
end

