-- ==== Sys2Proof/Machine/Code.lean ====
section
/-! DEFINITION. The Folio code (R165 to R167): arithmetic in GF(2⁸), check bytes, decoding. -/

namespace Sys2Proof.Machine

/-- Multiplication by α = 0x02 in GF(2⁸) with x⁸ + x⁴ + x³ + x² + 1 (R165). -/
def gfTwice (a : Byte) : Byte := if a.getLsbD 7 then (a <<< 1) ^^^ 0x1D else a <<< 1

/-- Multiplication in GF(2⁸) (R165). -/
def gfMul (a b : Byte) : Byte :=
  ((List.range 8).foldl (fun (x : Byte × Byte) i =>
    (if b.getLsbD i then x.1 ^^^ x.2 else x.1, gfTwice x.2)) (0, a)).1

/-- αᵐ. -/
def gfPow : Nat → Byte
  | 0 => 1
  | m + 1 => gfTwice (gfPow m)

/-- The check bytes P0, P1, P2 of 32 data bytes: M(x) mod g(x), highest coefficient first (R166). -/
def folioCheck (data : List Byte) : List Byte :=
  let r := data.foldl (fun (p : Byte × Byte × Byte) b =>
    let f := b ^^^ p.1
    (p.2.1 ^^^ gfMul f 0x07, p.2.2 ^^^ gfMul f 0x0E, gfMul f 0x08)) (0, 0, 0)
  [r.1, r.2.1, r.2.2]

/-- The syndrome Sₖ = c(αᵏ) of a codeword whose byte j is the coefficient of x^(34 − j) (R167). -/
def syndrome (k : Nat) (c : List Byte) : Byte := c.foldl (fun a b => gfMul a (gfPow k) ^^^ b) 0

/-- What a decoder finds (R167). -/
inductive FolioResult where
  | clean
  | single (byte : Nat) (value : Byte)
  | uncorrectable
  deriving DecidableEq, Repr

/-- Decode a 35-byte codeword (R167). -/
def folioDecode (c : List Byte) : FolioResult :=
  let s0 := syndrome 0 c
  let s1 := syndrome 1 c
  let s2 := syndrome 2 c
  if s0 = 0 ∧ s1 = 0 ∧ s2 = 0 then .clean
  else if s0 ≠ 0 ∧ s1 ≠ 0 ∧ s2 ≠ 0 ∧ gfMul s1 s1 = gfMul s0 s2 then
    match (List.range 35).find? (fun m => gfMul s0 (gfPow m) = s1) with
    | some m => .single (34 - m) s0
    | none => .uncorrectable
  else .uncorrectable

/-- A byte string with one byte changed by XOR. -/
def xorAt : List Byte → Nat → Byte → List Byte
  | [], _, _ => []
  | b :: r, 0, v => (b ^^^ v) :: r
  | b :: r, n + 1, v => b :: xorAt r n v

/-- What a stored error leaves in the delivered codeword: nothing where the decoder corrects it, the pattern itself where
the decoder sees none, the pattern changed by a wrong correction (R167). -/
def residual (e : List Byte) : List Byte :=
  if e = [] then []
  else match folioDecode e with
    | .single j v => xorAt e j v
    | _ => e

end Sys2Proof.Machine
end

