-- ==== Sys2Proof/Machine/Regs.lean ====
section
/-! DEFINITION. The register map: the address of every register in the manager's BAR0 (R43, R44, Table 2.4),
its fields with access code and writer (R13, R14), its reset value and, for a read-to-clear register on the
mixed-signal die, the offset of its _SNAP companion (R599, Table 23.2). A register that has no place in the
manager's BAR0 (layer status words, touch region registers, counter-page registers: they lie at a page offset the
capability entry gives) is keyed above the 16 MiB map, one page per function (assumption 3). -/

namespace Sys2Proof.Machine

/-- Access codes of Table 0.5. -/
inductive Access where
  | ro | rw | w1c | w1s | wo | rc | rwl
  deriving DecidableEq, Repr

/-- The Writer column of a register table (R14): the device, the owning instance, the manager, the Strongroom,
owner or manager, or the Crown port only (R555). -/
inductive Writer where
  | hw | i | m | s | im | crown
  deriving DecidableEq, Repr

/-- A bit field [hi:lo]. -/
structure Fld where
  hi : Nat
  lo : Nat
  deriving DecidableEq, Repr

/-- One row of a register table that is not reserved. -/
structure FieldSpec where
  hi : Nat
  lo : Nat
  acc : Access
  wr : Writer
  deriving DecidableEq, Repr

/-- One register, or an array of them: its first address, the (count, stride) of each index, its fields, and the
distance of the _SNAP companion (0: none). -/
structure RegSpec where
  name : String
  base : Nat
  dims : List (Nat × Nat)
  fields : List FieldSpec
  snap : Nat
  deriving DecidableEq, Repr

/-- The ring register set of function f (R44); a virtual function without an instance (index 128 and up,
assumption 2) has its set above the map. -/
def ringSet (f : Nat) : Nat := if f < 128 then 0x38000 + f * 0x100 else 0x2000000 + f * 0x100

/-- The doorbell page of function f (R44). -/
def doorbellPage (f : Nat) : Nat := if f < 128 then 0x800000 + f * 0x1000 else 0x2800000 + f * 0x1000

/-! Table 2.2 (R42). -/
def HOST_LINK_STATUS (p : Nat) : Nat := 0x10100 + p * 0x40
def HOST_LINK_STATUS_PERST : Fld := ⟨17, 17⟩
def HOST_LINK_STATUS_UP : Fld := ⟨16, 16⟩
def HOST_LINK_STATUS_WIDTH : Fld := ⟨7, 4⟩
def HOST_LINK_STATUS_SPEED : Fld := ⟨3, 0⟩
/-! Table 2.3 (R42). -/
def HOST_BAD_WRITE_COUNT : Nat := 0x10200
/-! Table 2.6 (R47). -/
def CLRK_SQ_BASE_LO (f : Nat) (p : Nat) : Nat := ringSet f + 0x0 + p * 0x10
def CLRK_SQ_BASE_LO_ADDR_LO : Fld := ⟨31, 12⟩
def CLRK_CQ_BASE_LO (f : Nat) : Nat := ringSet f + 0x30
def CLRK_CQ_BASE_LO_ADDR_LO : Fld := ⟨31, 12⟩
/-! Table 2.7 (R47). -/
def CLRK_SQ_BASE_HI (f : Nat) (p : Nat) : Nat := ringSet f + 0x4 + p * 0x10
def CLRK_CQ_BASE_HI (f : Nat) : Nat := ringSet f + 0x34
/-! Table 2.8 (R47). -/
def CLRK_SQ_CTRL (f : Nat) (p : Nat) : Nat := ringSet f + 0x8 + p * 0x10
def CLRK_SQ_CTRL_EN : Fld := ⟨31, 31⟩
def CLRK_SQ_CTRL_LOG2_DEPTH : Fld := ⟨4, 0⟩
/-! Table 2.9 (R47). -/
def CLRK_SQ_HEAD (f : Nat) (p : Nat) : Nat := ringSet f + 0xC + p * 0x10
/-! Table 2.10 (R47). -/
def CLRK_CQ_CTRL (f : Nat) : Nat := ringSet f + 0x38
def CLRK_CQ_CTRL_EN : Fld := ⟨31, 31⟩
def CLRK_CQ_CTRL_WB_EN : Fld := ⟨30, 30⟩
def CLRK_CQ_CTRL_COAL_COUNT : Fld := ⟨23, 16⟩
def CLRK_CQ_CTRL_COAL_TIME : Fld := ⟨15, 5⟩
def CLRK_CQ_CTRL_LOG2_DEPTH : Fld := ⟨4, 0⟩
/-! Table 2.11 (R47). -/
def CLRK_CQ_TAIL (f : Nat) : Nat := ringSet f + 0x3C
/-! Table 2.12 (R49). -/
def CLRK_RING_STATUS (f : Nat) : Nat := ringSet f + 0x40
def CLRK_RING_STATUS_CQ_STALL : Fld := ⟨8, 8⟩
def CLRK_RING_STATUS_CFG_ERR : Fld := ⟨4, 4⟩
def CLRK_RING_STATUS_DB_ERR_CQ : Fld := ⟨3, 3⟩
def CLRK_RING_STATUS_DB_ERR_SQ : Fld := ⟨2, 0⟩
/-! Table 2.13 (R49). -/
def CLRK_DB_SQ (f : Nat) (p : Nat) : Nat := doorbellPage f + 0x0 + p * 0x4
/-! Table 2.14 (R49). -/
def CLRK_DB_CQ (f : Nat) : Nat := doorbellPage f + 0xC
/-! Table 2.15 (R49). -/
def CLRK_DB_MBOX (f : Nat) : Nat := doorbellPage f + 0x10
def CLRK_DB_MBOX_RING : Fld := ⟨0, 0⟩
/-! Table 2.20 (R58). -/
def CLRK_EV_DROP_COUNT (f : Nat) : Nat := ringSet f + 0x44
/-! Table 2.23 (R67). -/
def CLRK_VECMAP (f : Nat) (k : Nat) : Nat := ringSet f + 0x48 + k * 0x4
def CLRK_VECMAP_VEC : Fld := ⟨29, 0⟩
/-! Table 2.27 (R75). -/
def CLRK_SLIP_STATE (n : Nat) : Nat := 0x34000 + n * 0x4
def CLRK_SLIP_STATE_HELD : Fld := ⟨31, 31⟩
def CLRK_SLIP_STATE_BROKEN : Fld := ⟨30, 30⟩
def CLRK_SLIP_STATE_WAITERS : Fld := ⟨23, 16⟩
def CLRK_SLIP_STATE_OWNER : Fld := ⟨6, 0⟩
/-! Table 2.31 (R79). -/
def CAP_LIST_GEN : Nat := 0x40
/-! Table 3.11 (R94). -/
def INST_STATE (n : Nat) : Nat := 0x21000 + n * 0x10
def INST_STATE_RESIZE_PENDING : Fld := ⟨31, 31⟩
def INST_STATE_FIXED : Fld := ⟨30, 30⟩
def INST_STATE_C1_RIGHT : Fld := ⟨29, 29⟩
def INST_STATE_SPAN : Fld := ⟨28, 28⟩
def INST_STATE_PORT : Fld := ⟨24, 24⟩
def INST_STATE_VF : Fld := ⟨22, 16⟩
def INST_STATE_SHELF_BASE_STATE : Fld := ⟨11, 0⟩
/-! Table 3.12 (R94). -/
def INST_MEM_USED (n : Nat) : Nat := 0x21004 + n * 0x10
def INST_MEM_USED_GRANULES : Fld := ⟨20, 0⟩
/-! Table 3.13 (R94). -/
def INST_POOL_FREE_MEM : Nat := 0x20010
def INST_POOL_FREE_MEM_GRANULES : Fld := ⟨20, 0⟩
/-! Table 3.14 (R94). -/
def INST_POOL_FREE_UNITS : Nat := 0x20014
def INST_POOL_FREE_UNITS_COUNTERS : Fld := ⟨28, 22⟩
def INST_POOL_FREE_UNITS_SCALERS : Fld := ⟨21, 17⟩
def INST_POOL_FREE_UNITS_LAYERS : Fld := ⟨16, 9⟩
def INST_POOL_FREE_UNITS_SHADER : Fld := ⟨8, 0⟩
/-! Table 3.15 (R94). -/
def INST_POOL_FREE_UNITS2 : Nat := 0x20018
def INST_POOL_FREE_UNITS2_AUDIO : Fld := ⟨29, 22⟩
def INST_POOL_FREE_UNITS2_TOUCH : Fld := ⟨21, 13⟩
def INST_POOL_FREE_UNITS2_SHELFMARKS : Fld := ⟨12, 0⟩
/-! Table 3.16 (R94). -/
def INST_POOL_FREE_MASKS : Nat := 0x2001C
def INST_POOL_FREE_MASKS_HAP : Fld := ⟨15, 8⟩
def INST_POOL_FREE_MASKS_OUT : Fld := ⟨7, 0⟩
/-! Table 3.17 (R95). -/
def CLRK_MBOX_I2M (f : Nat) (k : Nat) : Nat := ringSet f + 0x80 + k * 0x4
def CLRK_MBOX_M2I (f : Nat) (k : Nat) : Nat := ringSet f + 0xC0 + k * 0x4
/-! Table 3.18 (R95). -/
def CLRK_MBOX_STATUS (f : Nat) : Nat := ringSet f + 0x60
def CLRK_MBOX_STATUS_ERR : Fld := ⟨2, 2⟩
def CLRK_MBOX_STATUS_M2I_FULL : Fld := ⟨1, 1⟩
def CLRK_MBOX_STATUS_I2M_FULL : Fld := ⟨0, 0⟩
/-! Table 3.19 (R96). -/
def INST_MBOX_PENDING_LO : Nat := 0x20020
def INST_MBOX_PENDING_HI : Nat := 0x20024
/-! Table 3.20 (R97). -/
def INST_MGR_CTRL : Nat := 0x20000
def INST_MGR_CTRL_BEAT : Fld := ⟨31, 31⟩
def INST_MGR_CTRL_HANDOVER : Fld := ⟨30, 30⟩
def INST_MGR_CTRL_ARM : Fld := ⟨16, 16⟩
def INST_MGR_CTRL_HB_PERIOD : Fld := ⟨15, 0⟩
/-! Table 3.21 (R97). -/
def INST_MGR_STATUS : Nat := 0x20004
def INST_MGR_STATUS_LOSS : Fld := ⟨2, 2⟩
def INST_MGR_STATUS_STANDBY_UP : Fld := ⟨1, 1⟩
def INST_MGR_STATUS_ROLE : Fld := ⟨0, 0⟩
/-! Table 4.15 (R140). -/
def REGR_CTRL : Nat := 0x40000
def REGR_CTRL_PAUSE : Fld := ⟨31, 31⟩
def REGR_CTRL_SPAN_EN : Fld := ⟨30, 30⟩
def REGR_CTRL_PREFETCH_EN : Fld := ⟨29, 29⟩
def REGR_CTRL_MOVE_BUDGET : Fld := ⟨26, 16⟩
def REGR_CTRL_HOLD_EPOCHS : Fld := ⟨15, 8⟩
def REGR_CTRL_XDEV_WAIT_MS : Fld := ⟨7, 0⟩
/-! Table 4.16 (R141). -/
def REGR_CARREL_THRESH : Nat := 0x40004
def REGR_CARREL_THRESH_KIB : Fld := ⟨15, 0⟩
/-! Table 4.17 (R141). -/
def REGR_STATUS : Nat := 0x40008
def REGR_STATUS_PAUSED : Fld := ⟨31, 31⟩
def REGR_STATUS_POLICY_UP : Fld := ⟨30, 30⟩
def REGR_STATUS_MOVES_ACTIVE : Fld := ⟨15, 0⟩
/-! Table 4.18 (R141). -/
def REGR_EPOCH_LO : Nat := 0x40010
def REGR_EPOCH_HI : Nat := 0x40014
/-! Table 4.19 (R141). -/
def REGR_MOVE_COUNT : Nat := 0x40018
/-! Table 4.20 (R141). -/
def REGR_CANCEL_COUNT : Nat := 0x4001C
/-! Table 4.21 (R141). -/
def REGR_OVERRUN_COUNT : Nat := 0x40020
/-! Table 4.22 (R141). -/
def REGR_RESERVE_FREE : Nat := 0x40024
def REGR_RESERVE_FREE_GRANULES : Fld := ⟨20, 0⟩
/-! Table 5.10 (R178). -/
def MEM_CTRL : Nat := 0x1C0000
def MEM_CTRL_CE_NOTIFY : Fld := ⟨31, 24⟩
def MEM_CTRL_ENTRY_IDLE : Fld := ⟨15, 0⟩
/-! Table 5.11 (R178). -/
def MEM_STATUS : Nat := 0x1C0004
def MEM_STATUS_DRAM_FAIL : Fld := ⟨31, 31⟩
def MEM_STATUS_PERMIT : Fld := ⟨30, 30⟩
def MEM_STATUS_RETRAIN_CH : Fld := ⟨20, 16⟩
def MEM_STATUS_IDLE : Fld := ⟨15, 0⟩
/-! Table 5.12 (R178). -/
def MEM_CONFIG : Nat := 0x1C0008
def MEM_CONFIG_DENSITY : Fld := ⟨26, 24⟩
def MEM_CONFIG_RATE : Fld := ⟨15, 0⟩
/-! Table 5.13 (R178). -/
def MEM_TOL_MIN : Nat := 0x1C000C
def MEM_TOL_MIN_SOURCE : Fld := ⟨19, 16⟩
def MEM_TOL_MIN_TOL : Fld := ⟨15, 0⟩
/-! Table 5.14 (R178). -/
def MEM_RETRAIN_CTRL : Nat := 0x1C0010
def MEM_RETRAIN_CTRL_EN : Fld := ⟨31, 31⟩
def MEM_RETRAIN_CTRL_EYE_WARN : Fld := ⟨23, 16⟩
def MEM_RETRAIN_CTRL_EYE_MIN : Fld := ⟨15, 8⟩
def MEM_RETRAIN_CTRL_PERIOD : Fld := ⟨7, 0⟩
/-! Table 5.15 (R178). -/
def MEM_SCRUB_CTRL : Nat := 0x1C0014
def MEM_SCRUB_CTRL_EN : Fld := ⟨31, 31⟩
def MEM_SCRUB_CTRL_PERIOD_H : Fld := ⟨15, 0⟩
/-! Table 5.16 (R178). -/
def MEM_SCRUB_STATUS : Nat := 0x1C0018
def MEM_SCRUB_STATUS_LATE : Fld := ⟨31, 31⟩
def MEM_SCRUB_STATUS_PROGRESS : Fld := ⟨6, 0⟩
/-! Table 5.17 (R178). -/
def MEM_CARREL_LOCK : Nat := 0x1C001C
def MEM_CARREL_LOCK_STRG_HOLD : Fld := ⟨31, 16⟩
def MEM_CARREL_LOCK_LOCKED : Fld := ⟨15, 0⟩
/-! Table 5.18 (R178). -/
def MEM_FOLIO_INJECT : Nat := 0x1C0020
def MEM_FOLIO_INJECT_ARM : Fld := ⟨31, 31⟩
def MEM_FOLIO_INJECT_TARGET : Fld := ⟨30, 29⟩
def MEM_FOLIO_INJECT_BYTES : Fld := ⟨28, 27⟩
def MEM_FOLIO_INJECT_UNIT : Fld := ⟨19, 16⟩
def MEM_FOLIO_INJECT_XOR : Fld := ⟨7, 0⟩
/-! Table 5.19 (R178). -/
def MEM_REGION_BASE (n : Nat) : Nat := 0x1C0100 + n * 0x8
/-! Table 5.20 (R178). -/
def MEM_REGION_CFG (n : Nat) : Nat := 0x1C0104 + n * 0x8
def MEM_REGION_CFG_ENABLED : Fld := ⟨31, 31⟩
def MEM_REGION_CFG_FOLIO : Fld := ⟨30, 30⟩
def MEM_REGION_CFG_ORDER : Fld := ⟨29, 28⟩
def MEM_REGION_CFG_SIZE_MIB : Fld := ⟨16, 0⟩
/-! Table 5.21 (R178). -/
def MEM_CH_STATE (c : Nat) : Nat := 0x1C1000 + c * 0x40
def MEM_CH_STATE_STATE : Fld := ⟨31, 30⟩
def MEM_CH_STATE_MR4_RATE : Fld := ⟨4, 0⟩
/-! Table 5.22 (R178). -/
def MEM_CH_CE_COUNT (c : Nat) : Nat := 0x1C1004 + c * 0x40
def MEM_CH_UE_COUNT (c : Nat) : Nat := 0x1C1008 + c * 0x40
def MEM_CH_SR_ENTRIES (c : Nat) : Nat := 0x1C100C + c * 0x40
/-! Table 5.23 (R178). -/
def MEM_CH_LANE_EYE (c : Nat) (l : Nat) : Nat := 0x1C1010 + c * 0x40 + l * 0x4
def MEM_CH_LANE_EYE_WIDTH : Fld := ⟨31, 24⟩
def MEM_CH_LANE_EYE_HEIGHT : Fld := ⟨23, 16⟩
def MEM_CH_LANE_EYE_DELAY : Fld := ⟨15, 8⟩
def MEM_CH_LANE_EYE_VREF : Fld := ⟨7, 0⟩
/-! Table 5.24 (R178). -/
def MEM_CARREL_CE_COUNT (b : Nat) : Nat := 0x1C2000 + b * 0x4
def MEM_CARREL_CE_COUNT_UE : Fld := ⟨31, 16⟩
def MEM_CARREL_CE_COUNT_CE : Fld := ⟨15, 0⟩
/-! Table 6.5 (R194). -/
def ESC_CTRL : Nat := 0x200000
def ESC_CTRL_AGE_EN : Fld := ⟨31, 31⟩
def ESC_CTRL_AGE_CAP : Fld := ⟨26, 24⟩
def ESC_CTRL_ROUND_GRANTS : Fld := ⟨23, 16⟩
def ESC_CTRL_C1_RESERVE : Fld := ⟨11, 8⟩
/-! Table 6.6 (R194). -/
def ESC_HOLD_CTRL : Nat := 0x200004
def ESC_HOLD_CTRL_HOLD_LIMIT : Fld := ⟨15, 0⟩
/-! Table 6.7 (R194). -/
def ESC_TOL_STATUS : Nat := 0x200008
def ESC_TOL_STATUS_LOST_SEEN : Fld := ⟨15, 8⟩
def ESC_TOL_STATUS_LOST : Fld := ⟨7, 0⟩
/-! Table 6.8 (R194). -/
def ESC_PORT_FLAG_LO : Nat := 0x200010
/-! Table 6.9 (R194). -/
def ESC_PORT_FLAG_HI : Nat := 0x200014
def ESC_PORT_FLAG_HI_FLAG : Fld := ⟨14, 0⟩
/-! Table 6.10 (R194). -/
def ESC_CUTOFF_COUNT : Nat := 0x200018
def ESC_STALE_COUNT : Nat := 0x20001C
def ESC_AGED_COUNT : Nat := 0x200020
def ESC_C1_SLOT_COUNT : Nat := 0x200024
def ESC_URG7_COUNT : Nat := 0x200028
/-! Table 7.15 (R225). -/
def RND_ARENA_SIZE : Nat := 0x80000
def RND_ARENA_SIZE_CHUNKS : Fld := ⟨17, 0⟩
/-! Table 7.16 (R225). -/
def RND_ARENA_FREE : Nat := 0x80004
def RND_ARENA_FREE_CHUNKS : Fld := ⟨17, 0⟩
/-! Table 7.17 (R225). -/
def RND_ARENA_LIMITS : Nat := 0x80008
def RND_ARENA_LIMITS_PASS_MAX_MIB : Fld := ⟨31, 16⟩
def RND_ARENA_LIMITS_C1_RESERVE_MIB : Fld := ⟨15, 0⟩
/-! Table 7.18 (R225). -/
def RND_CODE_STATUS : Nat := 0x8000C
def RND_CODE_STATUS_CODE_MIB : Fld := ⟨31, 16⟩
def RND_CODE_STATUS_USED : Fld := ⟨15, 0⟩
/-! Table 7.19 (R225). -/
def RND_WATCHDOG : Nat := 0x80010
def RND_WATCHDOG_STALL_MS : Fld := ⟨31, 16⟩
def RND_WATCHDOG_LIMIT_MS : Fld := ⟨15, 0⟩
/-! Table 7.20 (R225). -/
def RND_CLUSTER_BUSY : Nat := 0x80014
def RND_CLUSTER_BUSY_BUSY : Fld := ⟨23, 0⟩
/-! Table 7.21 (R225). -/
def RND_CLUSTER_UP : Nat := 0x80018
def RND_CLUSTER_UP_UP : Fld := ⟨23, 0⟩
/-! Table 7.22 (R225). -/
def RND_ACTIVE : Nat := 0x8001C
def RND_ACTIVE_DISPATCHES : Fld := ⟨31, 16⟩
def RND_ACTIVE_PASSES : Fld := ⟨15, 0⟩
/-! Table 7.23 (R225). -/
def RND_PASS_COUNT : Nat := 0x80020
def RND_PARTIAL_COUNT : Nat := 0x80024
def RND_COMPILE_COUNT : Nat := 0x80028
def RND_CACHE_HIT_COUNT : Nat := 0x8002C
def RND_EVICT_COUNT : Nat := 0x80030
def RND_DEADLINE_MISS_COUNT : Nat := 0x80034
def RND_ARENA_WAIT_COUNT : Nat := 0x80038
/-! Table 8.14 (R250). -/
def TEX_CTRL : Nat := 0xC0000
def TEX_CTRL_FEEDBACK_EN : Fld := ⟨31, 31⟩
def TEX_CTRL_ANISO_CAP : Fld := ⟨4, 0⟩
/-! Table 8.15 (R250). -/
def TEX_RAY_CTRL : Nat := 0xC0004
def TEX_RAY_CTRL_STEP_LIMIT : Fld := ⟨15, 0⟩
/-! Table 8.16 (R250). -/
def TEX_UNIT_BUSY : Nat := 0xC0008
def TEX_UNIT_BUSY_BUSY : Fld := ⟨23, 0⟩
/-! Table 8.17 (R250). -/
def TEX_META_ERR_COUNT : Nat := 0xC0010
def TEX_BVH_ERR_COUNT : Nat := 0xC0014
def TEX_SPARSE_MISS_COUNT : Nat := 0xC0018
def TEX_BLOCK_CONST_COUNT : Nat := 0xC001C
def TEX_BLOCK_COMP_COUNT : Nat := 0xC0020
def TEX_BLOCK_RAW_COUNT : Nat := 0xC0024
def TEX_EXPAND_COUNT : Nat := 0xC0028
def TEX_RAY_QUERY_COUNT : Nat := 0xC002C
/-! Table 9.9 (R286). -/
def BND_BG (k : Nat) : Nat := 0x100000 + k * 0x100
def BND_BG_B : Fld := ⟨29, 20⟩
def BND_BG_G : Fld := ⟨19, 10⟩
def BND_BG_R : Fld := ⟨9, 0⟩
/-! Table 9.10 (R286). -/
def BND_STATUS (k : Nat) : Nat := 0x100004 + k * 0x100
def BND_STATUS_C0_ACTIVE : Fld := ⟨31, 31⟩
def BND_STATUS_REGAMMA : Fld := ⟨30, 29⟩
def BND_STATUS_SLOTS : Fld := ⟨20, 16⟩
def BND_STATUS_POOL_KIB : Fld := ⟨15, 0⟩
/-! Table 9.11 (R286). -/
def BND_FETCH (k : Nat) : Nat := 0x100008 + k * 0x100
def BND_FETCH_MBPS : Fld := ⟨15, 0⟩
/-! Table 9.12 (R286). -/
def BND_C0 (k : Nat) : Nat := 0x10000C + k * 0x100
def BND_C0_C0_EN : Fld := ⟨0, 0⟩
/-! Table 9.13 (R286). -/
def BND_SLOT_STATE (s : Nat) : Nat := 0x102000 + s * 0x4
def BND_SLOT_STATE_USED : Fld := ⟨31, 31⟩
def BND_SLOT_STATE_CLASS : Fld := ⟨30, 29⟩
def BND_SLOT_STATE_SCALERS : Fld := ⟨28, 27⟩
def BND_SLOT_STATE_OWNER : Fld := ⟨26, 20⟩
def BND_SLOT_STATE_LAYER : Fld := ⟨19, 13⟩
def BND_SLOT_STATE_FILL : Fld := ⟨12, 7⟩
/-! Table 9.14 (R286). -/
def BND_MOTION_CTRL : Nat := 0x101000
def BND_MOTION_CTRL_SRC : Fld := ⟨31, 30⟩
def BND_MOTION_CTRL_REG_ADDR : Fld := ⟨15, 8⟩
def BND_MOTION_CTRL_LAT : Fld := ⟨7, 0⟩
/-! Table 9.15 (R286). -/
def BND_MOTION_BUS : Nat := 0x101004
def BND_MOTION_BUS_I3C_ADDR : Fld := ⟨30, 24⟩
def BND_MOTION_BUS_CLK_KHZ : Fld := ⟨15, 0⟩
/-! Table 9.16 (R286). -/
def BND_MOTION_STATUS : Nat := 0x101008
def BND_MOTION_STATUS_POSE_STALE : Fld := ⟨31, 31⟩
def BND_MOTION_STATUS_VALID : Fld := ⟨30, 30⟩
def BND_MOTION_STATUS_BAD : Fld := ⟨15, 0⟩
/-! Table 9.17 (R286). -/
def BND_POSE_TIME_LO : Nat := 0x101010
def BND_POSE_TIME_HI : Nat := 0x101014
/-! Table 9.18 (R286). -/
def BND_LATE_COUNT : Nat := 0x101020
def BND_CRIT_COUNT : Nat := 0x101024
def BND_UNDERRUN_COUNT : Nat := 0x101028
def BND_SKIP_COUNT : Nat := 0x10102C
def BND_WARP_CLAMP_COUNT : Nat := 0x101030
/-! Table 9.19 (R286). -/
def BND_LAYER_STATUS (f : Nat) (i : Nat) : Nat := 0x3000000 + f * 0x1000 + i * 0x4
def BND_LAYER_STATUS_ENABLED : Fld := ⟨31, 31⟩
def BND_LAYER_STATUS_LATCHED : Fld := ⟨30, 30⟩
def BND_LAYER_STATUS_LATE : Fld := ⟨29, 29⟩
def BND_LAYER_STATUS_POISON : Fld := ⟨28, 28⟩
def BND_LAYER_STATUS_CLAMPED : Fld := ⟨27, 27⟩
def BND_LAYER_STATUS_POLICY : Fld := ⟨26, 24⟩
def BND_LAYER_STATUS_OUTPUT : Fld := ⟨23, 20⟩
def BND_LAYER_STATUS_PARTS : Fld := ⟨19, 18⟩
def BND_LAYER_STATUS_SCALERS : Fld := ⟨17, 15⟩
def BND_LAYER_STATUS_FILL : Fld := ⟨5, 0⟩
/-! Table 10.12 (R319). -/
def OUT_CTRL (k : Nat) : Nat := 0x140000 + k * 0x4000
def OUT_CTRL_BLANK : Fld := ⟨31, 31⟩
def OUT_CTRL_FRAME_EV : Fld := ⟨30, 30⟩
def OUT_CTRL_MODE_CHG_OK : Fld := ⟨29, 29⟩
def OUT_CTRL_DITHER : Fld := ⟨1, 0⟩
/-! Table 10.13 (R319). -/
def OUT_STATUS (k : Nat) : Nat := 0x140004 + k * 0x4000
def OUT_STATUS_STATE : Fld := ⟨31, 30⟩
def OUT_STATUS_LINK_UP : Fld := ⟨29, 29⟩
def OUT_STATUS_HPD : Fld := ⟨28, 28⟩
def OUT_STATUS_PAIRED : Fld := ⟨27, 27⟩
def OUT_STATUS_TE_FALLBACK : Fld := ⟨26, 26⟩
def OUT_STATUS_MODE : Fld := ⟨18, 16⟩
/-! Table 10.14 (R319). -/
def OUT_HACTIVE (k : Nat) : Nat := 0x140010 + k * 0x4000
def OUT_HACTIVE_ACTIVE : Fld := ⟨15, 0⟩
def OUT_VACTIVE (k : Nat) : Nat := 0x140020 + k * 0x4000
def OUT_VACTIVE_ACTIVE : Fld := ⟨15, 0⟩
/-! Table 10.15 (R319). -/
def OUT_HPORCH (k : Nat) : Nat := 0x140014 + k * 0x4000
def OUT_HPORCH_BACK : Fld := ⟨31, 16⟩
def OUT_HPORCH_FRONT : Fld := ⟨15, 0⟩
def OUT_VPORCH (k : Nat) : Nat := 0x140024 + k * 0x4000
def OUT_VPORCH_BACK : Fld := ⟨31, 16⟩
def OUT_VPORCH_FRONT : Fld := ⟨15, 0⟩
/-! Table 10.16 (R319). -/
def OUT_HSYNC (k : Nat) : Nat := 0x140018 + k * 0x4000
def OUT_HSYNC_POS : Fld := ⟨31, 31⟩
def OUT_HSYNC_WIDTH : Fld := ⟨15, 0⟩
def OUT_VSYNC (k : Nat) : Nat := 0x140028 + k * 0x4000
def OUT_VSYNC_POS : Fld := ⟨31, 31⟩
def OUT_VSYNC_WIDTH : Fld := ⟨15, 0⟩
/-! Table 10.17 (R319). -/
def OUT_PCLK (k : Nat) : Nat := 0x140030 + k * 0x4000
/-! Table 10.18 (R319). -/
def OUT_LINK (k : Nat) : Nat := 0x140034 + k * 0x4000
def OUT_LINK_LINK_RATE : Fld := ⟨31, 24⟩
def OUT_LINK_LANES : Fld := ⟨23, 20⟩
def OUT_LINK_BPC : Fld := ⟨19, 16⟩
def OUT_LINK_DSC : Fld := ⟨15, 15⟩
def OUT_LINK_CPHY : Fld := ⟨14, 14⟩
def OUT_LINK_BURST : Fld := ⟨13, 13⟩
/-! Table 10.19 (R319). -/
def OUT_DSC (k : Nat) : Nat := 0x140038 + k * 0x4000
def OUT_DSC_SLICE_H : Fld := ⟨28, 16⟩
def OUT_DSC_SLICES : Fld := ⟨15, 12⟩
def OUT_DSC_BPP16 : Fld := ⟨11, 0⟩
/-! Table 10.20 (R319). -/
def OUT_LATCH (k : Nat) : Nat := 0x140040 + k * 0x4000
def OUT_LATCH_ADVANCE : Fld := ⟨22, 16⟩
def OUT_LATCH_LINE : Fld := ⟨12, 0⟩
/-! Table 10.21 (R319). -/
def OUT_POS (k : Nat) : Nat := 0x140044 + k * 0x4000
def OUT_POS_LINE : Fld := ⟨12, 0⟩
/-! Table 10.22 (R319). -/
def OUT_FRAME_LO (k : Nat) : Nat := 0x140048 + k * 0x4000
def OUT_FRAME_HI (k : Nat) : Nat := 0x14004C + k * 0x4000
def OUT_LATCH_TIME_LO (k : Nat) : Nat := 0x140050 + k * 0x4000
def OUT_LATCH_TIME_HI (k : Nat) : Nat := 0x140054 + k * 0x4000
/-! Table 10.23 (R319). -/
def OUT_TOL (k : Nat) : Nat := 0x140058 + k * 0x4000
def OUT_TOL_LINES : Fld := ⟨26, 16⟩
def OUT_TOL_TOL : Fld := ⟨15, 0⟩
/-! Table 10.24 (R319). -/
def OUT_FILL (k : Nat) : Nat := 0x14005C + k * 0x4000
def OUT_FILL_B : Fld := ⟨29, 20⟩
def OUT_FILL_G : Fld := ⟨19, 10⟩
def OUT_FILL_R : Fld := ⟨9, 0⟩
/-! Table 10.25 (R319). -/
def OUT_TE (k : Nat) : Nat := 0x140060 + k * 0x4000
def OUT_TE_RISING : Fld := ⟨31, 31⟩
def OUT_TE_FILTER_US : Fld := ⟨9, 0⟩
/-! Table 10.26 (R319). -/
def OUT_HPD (k : Nat) : Nat := 0x140064 + k * 0x4000
def OUT_HPD_FILTER_US : Fld := ⟨7, 0⟩
/-! Table 10.27 (R319). -/
def OUT_UNDERRUN_COUNT (k : Nat) : Nat := 0x140070 + k * 0x4000
def OUT_POISON_COUNT (k : Nat) : Nat := 0x140074 + k * 0x4000
def OUT_TE_REJECT_COUNT (k : Nat) : Nat := 0x140078 + k * 0x4000
def OUT_LINK_LOSS_COUNT (k : Nat) : Nat := 0x14007C + k * 0x4000
/-! Table 11.9 (R340). -/
def CVU_CFG (n : Nat) : Nat := 0x181000 + n * 0x40
def CVU_CFG_START : Fld := ⟨31, 31⟩
def CVU_CFG_ALIVE_RESET : Fld := ⟨30, 30⟩
def CVU_CFG_BE : Fld := ⟨24, 24⟩
def CVU_CFG_ALIVE_MAXD : Fld := ⟨23, 16⟩
def CVU_CFG_ALIVE_WRAP : Fld := ⟨15, 8⟩
def CVU_CFG_ALG : Fld := ⟨1, 0⟩
/-! Table 11.10 (R340). -/
def CVU_DATA8 (n : Nat) : Nat := 0x181004 + n * 0x40
def CVU_DATA16 (n : Nat) : Nat := 0x181008 + n * 0x40
def CVU_DATA32 (n : Nat) : Nat := 0x18100C + n * 0x40
/-! Table 11.11 (R340). -/
def CVU_VALUE (n : Nat) : Nat := 0x181010 + n * 0x40
def CVU_RESULT (n : Nat) : Nat := 0x181014 + n * 0x40
def CVU_EXPECT (n : Nat) : Nat := 0x181018 + n * 0x40
/-! Table 11.12 (R340). -/
def CVU_STATUS (n : Nat) : Nat := 0x18101C + n * 0x40
def CVU_STATUS_BUSY : Fld := ⟨31, 31⟩
def CVU_STATUS_MISMATCH : Fld := ⟨1, 1⟩
def CVU_STATUS_MATCH : Fld := ⟨0, 0⟩
/-! Table 11.13 (R340). -/
def CVU_ALIVE (n : Nat) : Nat := 0x181020 + n * 0x40
def CVU_ALIVE_NEXT : Fld := ⟨8, 8⟩
def CVU_ALIVE_VALUE : Fld := ⟨7, 0⟩
/-! Table 11.14 (R340). -/
def CVU_ALIVE_STATE (n : Nat) : Nat := 0x181024 + n * 0x40
def CVU_ALIVE_STATE_VALID : Fld := ⟨31, 31⟩
def CVU_ALIVE_STATE_REPEAT : Fld := ⟨30, 30⟩
def CVU_ALIVE_STATE_JUMP : Fld := ⟨29, 29⟩
def CVU_ALIVE_STATE_RANGE : Fld := ⟨28, 28⟩
def CVU_ALIVE_STATE_LOST : Fld := ⟨23, 16⟩
def CVU_ALIVE_STATE_LAST : Fld := ⟨7, 0⟩
/-! Table 11.15 (R340). -/
def COLL_WIN_CFG (k : Nat) (w : Nat) : Nat := 0x184000 + k * 0x400 + w * 0x40
def COLL_WIN_CFG_MODE : Fld := ⟨31, 30⟩
def COLL_WIN_CFG_ALG : Fld := ⟨29, 29⟩
def COLL_WIN_CFG_POLICY : Fld := ⟨28, 27⟩
def COLL_WIN_CFG_BOUND : Fld := ⟨26, 26⟩
def COLL_WIN_CFG_LAYER : Fld := ⟨25, 19⟩
def COLL_WIN_CFG_SUPPLIER : Fld := ⟨18, 12⟩
def COLL_WIN_CFG_THRESH : Fld := ⟨11, 8⟩
def COLL_WIN_CFG_LATE_LIMIT : Fld := ⟨7, 4⟩
/-! Table 11.16 (R340). -/
def COLL_WIN_XY (k : Nat) (w : Nat) : Nat := 0x184004 + k * 0x400 + w * 0x40
def COLL_WIN_XY_Y_or_H : Fld := ⟨28, 16⟩
def COLL_WIN_XY_X_or_W : Fld := ⟨12, 0⟩
def COLL_WIN_WH (k : Nat) (w : Nat) : Nat := 0x184008 + k * 0x400 + w * 0x40
def COLL_WIN_WH_Y_or_H : Fld := ⟨28, 16⟩
def COLL_WIN_WH_X_or_W : Fld := ⟨12, 0⟩
/-! Table 11.17 (R340). -/
def COLL_WIN_STATUS (k : Nat) (w : Nat) : Nat := 0x18400C + k * 0x400 + w * 0x40
def COLL_WIN_STATUS_OUTCOME : Fld := ⟨31, 29⟩
def COLL_WIN_STATUS_ACTED : Fld := ⟨28, 28⟩
def COLL_WIN_STATUS_FAILS : Fld := ⟨27, 24⟩
def COLL_WIN_STATUS_LATES : Fld := ⟨23, 20⟩
/-! Table 11.18 (R340). -/
def COLL_WIN_FRAME (k : Nat) (w : Nat) : Nat := 0x184010 + k * 0x400 + w * 0x40
def COLL_WIN_VALUE (k : Nat) (w : Nat) : Nat := 0x184014 + k * 0x400 + w * 0x40
def GPC_VALUE (k : Nat) : Nat := 0x188008 + k * 0x40
/-! Table 11.19 (R340). -/
def COLL_WIN_FAIL_COUNT (k : Nat) (w : Nat) : Nat := 0x184018 + k * 0x400 + w * 0x40
def COLL_WIN_LATE_COUNT (k : Nat) (w : Nat) : Nat := 0x18401C + k * 0x400 + w * 0x40
def GPC_FAIL_COUNT (k : Nat) : Nat := 0x188010 + k * 0x40
/-! Table 11.20 (R340). -/
def GPC_EXPECT (k : Nat) : Nat := 0x188000 + k * 0x40
def GPC_COUNT_EXP (k : Nat) : Nat := 0x188004 + k * 0x40
/-! Table 11.21 (R340). -/
def GPC_STATUS (k : Nat) : Nat := 0x18800C + k * 0x40
def GPC_STATUS_OUTCOME : Fld := ⟨31, 29⟩
def GPC_STATUS_COUNT : Fld := ⟨23, 0⟩
/-! Table 12.11 (R367). -/
def STRG_STATUS : Nat := 0x280000
def STRG_STATUS_RUN : Fld := ⟨31, 30⟩
def STRG_STATUS_BIND_LOCKED : Fld := ⟨29, 29⟩
def STRG_STATUS_ALERT : Fld := ⟨28, 28⟩
def STRG_STATUS_ESC_ACTIVE : Fld := ⟨15, 8⟩
def STRG_STATUS_C0_FAULT : Fld := ⟨7, 0⟩
/-! Table 12.12 (R367). -/
def STRG_VERSION : Nat := 0x280004
def STRG_VERSION_ROLLBACK : Fld := ⟨31, 24⟩
def STRG_VERSION_VERSION : Fld := ⟨23, 0⟩
/-! Table 12.13 (R367). -/
def STRG_BOUND : Nat := 0x280008
def STRG_BOUND_TDM : Fld := ⟨19, 12⟩
def STRG_BOUND_HAP : Fld := ⟨11, 4⟩
def STRG_BOUND_TCH : Fld := ⟨3, 0⟩
/-! Table 12.14 (R367). -/
def STRG_BOUND_CVU : Nat := 0x28000C
/-! Table 12.15 (R367). -/
def STRG_VOTES : Nat := 0x280010
def STRG_VOTES_DOMAINS : Fld := ⟨21, 0⟩
/-! Table 12.16 (R367). -/
def STRG_WAYPART : Nat := 0x280014
def STRG_WAYPART_L2_WAYS : Fld := ⟨11, 8⟩
def STRG_WAYPART_L1D_WAYS : Fld := ⟨3, 0⟩
/-! Table 12.17 (R367). -/
def STRG_REQ_PKT (i : Nat) : Nat := 0x280100 + i * 0x4
/-! Table 12.18 (R367). -/
def STRG_REQ_DB : Nat := 0x280140
def STRG_REQ_DB_RING : Fld := ⟨0, 0⟩
/-! Table 12.19 (R367). -/
def STRG_REQ_STATUS : Nat := 0x280144
def STRG_REQ_STATUS_DONE : Fld := ⟨1, 1⟩
def STRG_REQ_STATUS_BUSY : Fld := ⟨0, 0⟩
/-! Table 12.20 (R367). -/
def STRG_REQ_REPLY (i : Nat) : Nat := 0x280180 + i * 0x4
/-! Table 12.21 (R367). -/
def STRG_TT_STATE (t : Nat) : Nat := 0x280400 + t * 0x4
def STRG_TT_STATE_DEFINED : Fld := ⟨31, 31⟩
def STRG_TT_STATE_FAILED : Fld := ⟨30, 30⟩
def STRG_TT_STATE_CONTROLLER : Fld := ⟨14, 8⟩
def STRG_TT_STATE_STATE : Fld := ⟨7, 0⟩
/-! Table 12.22 (R367). -/
def STRG_CHIME_STATUS : Nat := 0x280800
def STRG_CHIME_STATUS_WAITING : Fld := ⟨31, 16⟩
def STRG_CHIME_STATUS_SOUNDING : Fld := ⟨15, 0⟩
/-! Table 12.23 (R367). -/
def STRG_REFUSE_COUNT : Nat := 0x280804
/-! Table 13.8 (R392). -/
def TCH_STATUS (n : Nat) : Nat := 0x2C0000 + n * 0x400
def TCH_STATUS_STATE : Fld := ⟨31, 30⟩
def TCH_STATUS_NOISE_MODE : Fld := ⟨29, 29⟩
def TCH_STATUS_HOP : Fld := ⟨28, 26⟩
def TCH_STATUS_FRESH : Fld := ⟨25, 25⟩
def TCH_STATUS_CONTACTS : Fld := ⟨24, 20⟩
def TCH_STATUS_SATURATED : Fld := ⟨19, 12⟩
def TCH_STATUS_SUSPECT : Fld := ⟨11, 0⟩
/-! Table 13.9 (R392). -/
def TCH_FRAME (n : Nat) : Nat := 0x2C0004 + n * 0x400
def TCH_NOISE (n : Nat) : Nat := 0x2C0008 + n * 0x400
/-! Table 13.10 (R392). -/
def TCH_DROP_COUNT (n : Nat) : Nat := 0x2C0010 + n * 0x400
def TCH_OVERFLOW_COUNT (n : Nat) : Nat := 0x2C0014 + n * 0x400
def TCH_HOP_COUNT (n : Nat) : Nat := 0x2C0018 + n * 0x400
/-! Table 13.11 (R392). -/
def TCH_WAKE_STATUS : Nat := 0x2C1000
def TCH_WAKE_STATUS_PENDING : Fld := ⟨31, 31⟩
def TCH_WAKE_STATUS_GESTURE : Fld := ⟨18, 16⟩
def TCH_WAKE_STATUS_CONTROLLER : Fld := ⟨1, 0⟩
/-! Table 13.12 (R392). -/
def TCH_RGN_HEAD (f : Nat) (r : Nat) : Nat := 0x4000000 + f * 0x2000 + r * 0x10
def TCH_RGN_TAIL (f : Nat) (r : Nat) : Nat := 0x4000004 + f * 0x2000 + r * 0x10
/-! Table 13.13 (R392). -/
def TCH_RGN_STATUS (f : Nat) (r : Nat) : Nat := 0x4000008 + f * 0x2000 + r * 0x10
def TCH_RGN_STATUS_ENABLED : Fld := ⟨31, 31⟩
def TCH_RGN_STATUS_CONTACTS : Fld := ⟨27, 24⟩
def TCH_RGN_STATUS_DROPS : Fld := ⟨15, 0⟩
/-! Table 14.5 (R413). -/
def HAP_CFG (n : Nat) : Nat := 0x300000 + n * 0x100
def HAP_CFG_ENABLE : Fld := ⟨31, 31⟩
def HAP_CFG_BRIDGED : Fld := ⟨30, 30⟩
def HAP_CFG_FEEDBACK : Fld := ⟨29, 28⟩
def HAP_CFG_SENSOR : Fld := ⟨23, 16⟩
def HAP_CFG_AXIS_REG : Fld := ⟨15, 8⟩
def HAP_CFG_VMAX_V : Fld := ⟨7, 0⟩
/-! Table 14.6 (R413). -/
def HAP_STATUS (n : Nat) : Nat := 0x300004 + n * 0x100
def HAP_STATUS_STATE : Fld := ⟨31, 29⟩
def HAP_STATUS_PENDING : Fld := ⟨28, 28⟩
def HAP_STATUS_SLOT : Fld := ⟨27, 24⟩
def HAP_STATUS_PRIORITY : Fld := ⟨23, 22⟩
def HAP_STATUS_CALIBRATED : Fld := ⟨21, 21⟩
def HAP_STATUS_SENSOR_STALE : Fld := ⟨20, 20⟩
def HAP_STATUS_FAULT : Fld := ⟨19, 18⟩
/-! Table 14.7 (R413). -/
def HAP_CAL (n : Nat) : Nat := 0x300008 + n * 0x100
def HAP_CAL_C_NF : Fld := ⟨31, 20⟩
def HAP_CAL_F0_HZ : Fld := ⟨19, 10⟩
/-! Table 14.8 (R413). -/
def HAP_GAIN (n : Nat) : Nat := 0x30000C + n * 0x100
def HAP_GAIN_VALUE : Fld := ⟨15, 0⟩
def HAP_SCALE (n : Nat) : Nat := 0x300010 + n * 0x100
def HAP_SCALE_VALUE : Fld := ⟨15, 0⟩
/-! Table 14.9 (R413). -/
def HAP_CYCLES_LO (n : Nat) : Nat := 0x300014 + n * 0x100
def HAP_CYCLES_HI (n : Nat) : Nat := 0x300018 + n * 0x100
/-! Table 14.10 (R413). -/
def HAP_STALL_COUNT (n : Nat) : Nat := 0x300020 + n * 0x100
def HAP_SAT_COUNT (n : Nat) : Nat := 0x300024 + n * 0x100
def HAP_DROP_COUNT (n : Nat) : Nat := 0x300028 + n * 0x100
/-! Table 14.11 (R413). -/
def HAP_BOOST_CTRL : Nat := 0x301000
def HAP_BOOST_CTRL_VHV_SET : Fld := ⟨7, 0⟩
/-! Table 14.12 (R413). -/
def HAP_BOOST_STATUS : Nat := 0x301004
def HAP_BOOST_STATUS_UP : Fld := ⟨31, 31⟩
def HAP_BOOST_STATUS_LOW : Fld := ⟨30, 30⟩
def HAP_BOOST_STATUS_VHAPT_UV : Fld := ⟨29, 29⟩
def HAP_BOOST_STATUS_VHAPT : Fld := ⟨23, 16⟩
def HAP_BOOST_STATUS_VHV : Fld := ⟨7, 0⟩
/-! Table 14.13 (R413). -/
def HAP_SENSOR_BUS : Nat := 0x301008
def HAP_SENSOR_BUS_MODE : Fld := ⟨31, 30⟩
def HAP_SENSOR_BUS_CLK_KHZ : Fld := ⟨15, 0⟩
/-! Table 15.8 (R436). -/
def AUD_STATUS : Nat := 0x340000
def AUD_STATUS_SAFE : Fld := ⟨31, 31⟩
def AUD_STATUS_PLL48 : Fld := ⟨30, 30⟩
def AUD_STATUS_PLL44 : Fld := ⟨29, 29⟩
def AUD_STATUS_POINTS : Fld := ⟨15, 8⟩
def AUD_STATUS_NODES : Fld := ⟨7, 0⟩
/-! Table 15.9 (R436). -/
def AUD_PORT_STATUS (p : Nat) : Nat := 0x340100 + p * 0x4
def AUD_PORT_STATUS_ROLE : Fld := ⟨31, 30⟩
def AUD_PORT_STATUS_LOST : Fld := ⟨29, 29⟩
def AUD_PORT_STATUS_SECURE : Fld := ⟨28, 28⟩
def AUD_PORT_STATUS_RATE : Fld := ⟨27, 24⟩
def AUD_PORT_STATUS_REJECT : Fld := ⟨23, 16⟩
def AUD_PORT_STATUS_PPM : Fld := ⟨15, 0⟩
/-! Table 15.10 (R436). -/
def AUD_EP_STATUS (e : Nat) : Nat := 0x341000 + e * 0x10
def AUD_EP_STATUS_DEFINED : Fld := ⟨31, 31⟩
def AUD_EP_STATUS_DIR : Fld := ⟨30, 30⟩
def AUD_EP_STATUS_KIND : Fld := ⟨29, 27⟩
def AUD_EP_STATUS_SECURE : Fld := ⟨26, 26⟩
def AUD_EP_STATUS_OWNER : Fld := ⟨25, 19⟩
def AUD_EP_STATUS_GR : Fld := ⟨15, 8⟩
def AUD_EP_STATUS_PEAK : Fld := ⟨7, 0⟩
/-! Table 15.11 (R436). -/
def AUD_EP_HOST_POS (e : Nat) : Nat := 0x341004 + e * 0x10
def AUD_EP_DEV_POS (e : Nat) : Nat := 0x341008 + e * 0x10
def AUD_EP_XRUN_COUNT (e : Nat) : Nat := 0x34100C + e * 0x10
/-! Table 15.12 (R436). -/
def AUD_NODE_STATUS (n : Nat) : Nat := 0x342000 + n * 0x10
def AUD_NODE_STATUS_ENABLED : Fld := ⟨31, 31⟩
def AUD_NODE_STATUS_RAMPING : Fld := ⟨30, 30⟩
def AUD_NODE_STATUS_CHANNELS : Fld := ⟨27, 24⟩
def AUD_NODE_STATUS_COMP_GR : Fld := ⟨23, 16⟩
def AUD_NODE_STATUS_DUCK_GR : Fld := ⟨15, 8⟩
def AUD_NODE_STATUS_OWNER : Fld := ⟨6, 0⟩
def AUD_NODE_CLIP_COUNT (n : Nat) : Nat := 0x342004 + n * 0x10
/-! Table 16.8 (R463). -/
def PCU_STATE : Nat := 0x380000
def PCU_STATE_STATE : Fld := ⟨31, 30⟩
def PCU_STATE_ENTERING : Fld := ⟨29, 29⟩
def PCU_STATE_WAKING : Fld := ⟨28, 28⟩
def PCU_STATE_WAKE_SRC : Fld := ⟨2, 0⟩
/-! Table 16.9 (R463). -/
def PCU_DOMAIN_UP : Nat := 0x380004
def PCU_DOMAIN_UP_MASK : Fld := ⟨21, 0⟩
def PCU_DOMAIN_FAILED : Nat := 0x380008
def PCU_DOMAIN_FAILED_MASK : Fld := ⟨21, 0⟩
def PCU_DOMAIN_MOVING : Nat := 0x38000C
def PCU_DOMAIN_MOVING_MASK : Fld := ⟨21, 0⟩
/-! Table 16.10 (R463). -/
def PCU_WAKE : Nat := 0x380010
def PCU_WAKE_RING : Fld := ⟨0, 0⟩
/-! Table 16.11 (R463). -/
def PCU_CLK_STATUS : Nat := 0x380014
def PCU_CLK_STATUS_REF_OK : Fld := ⟨31, 31⟩
def PCU_CLK_STATUS_XTAL32_OK : Fld := ⟨30, 30⟩
def PCU_CLK_STATUS_RC_FALLBACK : Fld := ⟨29, 29⟩
def PCU_CLK_STATUS_RC_TRIMMED : Fld := ⟨28, 28⟩
def PCU_CLK_STATUS_PLL_LOCK : Fld := ⟨13, 0⟩
/-! Table 16.12 (R463). -/
def PCU_EVENTS : Nat := 0x380018
def PCU_EVENTS_REFCLK_FAIL : Fld := ⟨2, 2⟩
def PCU_EVENTS_WAKE_FAIL : Fld := ⟨1, 1⟩
def PCU_EVENTS_XTAL32_FAIL : Fld := ⟨0, 0⟩
/-! Table 16.13 (R463). -/
def PCU_VOTE (v : Nat) : Nat := 0x380400 + v * 0x4
def PCU_VOTE_MASK : Fld := ⟨21, 0⟩
/-! Table 16.14 (R463). -/
def PCU_D2D_CRC_COUNT : Nat := 0x380020
def PCU_D2D_REPLAY_COUNT : Nat := 0x380024
def PCU_RETRY_COUNT : Nat := 0x380028
def PCU_DORMANT_DROP_COUNT : Nat := 0x38002C
/-! Table 17.8 (R485). -/
def LEDG_STATUS : Nat := 0x3C0000
def LEDG_STATUS_SAVE : Fld := ⟨31, 30⟩
def LEDG_STATUS_ARMED : Fld := ⟨29, 29⟩
def LEDG_STATUS_CAL_VALID : Fld := ⟨28, 28⟩
def LEDG_STATUS_CAL_RC : Fld := ⟨27, 27⟩
def LEDG_STATUS_CAP_LOW : Fld := ⟨26, 26⟩
def LEDG_STATUS_VSAVE_FAIL : Fld := ⟨25, 25⟩
def LEDG_STATUS_UPDATING : Fld := ⟨24, 24⟩
def LEDG_STATUS_VSAVE : Fld := ⟨7, 0⟩
/-! Table 17.9 (R485). -/
def LEDG_SAG_CTRL : Nat := 0x3C0004
def LEDG_SAG_CTRL_THRESH : Fld := ⟨8, 0⟩
/-! Table 17.10 (R485). -/
def LEDG_CAP : Nat := 0x3C0008
def LEDG_CAP_CHARGE_MS : Fld := ⟨31, 16⟩
def LEDG_CAP_C_UF : Fld := ⟨15, 0⟩
/-! Table 17.11 (R485). -/
def LEDG_CAL_LO : Nat := 0x3C0010
def LEDG_CAL_HI : Nat := 0x3C0014
def LEDG_OFFSET_LO : Nat := 0x3C0018
def LEDG_OFFSET_HI : Nat := 0x3C001C
/-! Table 17.12 (R485). -/
def LEDG_SEQ : Nat := 0x3C0020
def LEDG_LIVE_PASS : Nat := 0x3C0024
def LEDG_LAST_SAVE : Nat := 0x3C0028
/-! Table 17.13 (R485). -/
def LEDG_CRC_COUNT : Nat := 0x3C0030
def LEDG_BROWNOUT_COUNT : Nat := 0x3C0034
/-! Table 18.5 (R510). -/
def FAB_CTRL : Nat := 0x240000
def FAB_CTRL_ACCEPT : Fld := ⟨31, 31⟩
def FAB_CTRL_RELAY_EV : Fld := ⟨30, 30⟩
def FAB_CTRL_CAL_FOLLOW : Fld := ⟨29, 29⟩
def FAB_CTRL_LINK_EN : Fld := ⟨3, 0⟩
/-! Table 18.6 (R510). -/
def FAB_STATUS : Nat := 0x240004
def FAB_STATUS_FM : Fld := ⟨31, 31⟩
def FAB_STATUS_CLAIM : Fld := ⟨30, 30⟩
def FAB_STATUS_FM_DENIED : Fld := ⟨29, 29⟩
def FAB_STATUS_FM_PRESENT : Fld := ⟨28, 28⟩
def FAB_STATUS_EXCLUDED : Fld := ⟨27, 27⟩
def FAB_STATUS_TIME_HOLD : Fld := ⟨26, 26⟩
def FAB_STATUS_CONVERGING : Fld := ⟨25, 25⟩
def FAB_STATUS_FM_ADDR : Fld := ⟨21, 16⟩
def FAB_STATUS_DEVICES : Fld := ⟨14, 8⟩
def FAB_STATUS_ADDR : Fld := ⟨5, 0⟩
/-! Table 18.7 (R510). -/
def FAB_GEN : Nat := 0x240008
/-! Table 18.8 (R510). -/
def FAB_LINK_STATUS (l : Nat) : Nat := 0x240010 + l * 0x4
def FAB_LINK_STATUS_STATE : Fld := ⟨31, 30⟩
def FAB_LINK_STATUS_WIDTH : Fld := ⟨29, 27⟩
def FAB_LINK_STATUS_UP_DIR : Fld := ⟨26, 26⟩
def FAB_LINK_STATUS_PARENT : Fld := ⟨25, 25⟩
def FAB_LINK_STATUS_CHILD : Fld := ⟨24, 24⟩
def FAB_LINK_STATUS_PEER_ADDR : Fld := ⟨5, 0⟩
/-! Table 18.9 (R510). -/
def FAB_TIME_LO : Nat := 0x240020
def FAB_TIME_HI : Nat := 0x240024
/-! Table 18.10 (R510). -/
def FAB_RELAY_HEAD : Nat := 0x240030
def FAB_RELAY_TAIL : Nat := 0x240034
/-! Table 18.11 (R510). -/
def FAB_CRC_COUNT (l : Nat) : Nat := 0x240040 + l * 0x10
def FAB_REPLAY_COUNT (l : Nat) : Nat := 0x240044 + l * 0x10
def FAB_STALE_COUNT (l : Nat) : Nat := 0x240048 + l * 0x10
/-! Table 19.7 (R531). -/
def HOST_ERR_CTRL : Nat := 0x13000
def HOST_ERR_CTRL_VECTOR : Fld := ⟨4, 0⟩
/-! Table 19.8 (R531). -/
def HOST_ERR_STATUS : Nat := 0x13004
def HOST_ERR_STATUS_SAFE : Fld := ⟨31, 31⟩
def HOST_ERR_STATUS_CLRK_DOWN : Fld := ⟨30, 30⟩
def HOST_ERR_STATUS_UNACKED : Fld := ⟨23, 16⟩
def HOST_ERR_STATUS_TRIGGER : Fld := ⟨15, 8⟩
def HOST_ERR_STATUS_HIGHEST : Fld := ⟨1, 0⟩
/-! Table 19.9 (R531). -/
def HOST_ERR_NEXT : Nat := 0x13008
def HOST_ERR_NEXT_VALID : Fld := ⟨31, 31⟩
def HOST_ERR_NEXT_SLOT : Fld := ⟨5, 0⟩
/-! Table 19.10 (R531). -/
def HOST_ERR_ACK : Nat := 0x1300C
def HOST_ERR_ACK_ALL : Fld := ⟨31, 31⟩
def HOST_ERR_ACK_SEQ : Fld := ⟨15, 0⟩
/-! Table 19.11 (R531). -/
def HOST_ERR_LOST_COUNT : Nat := 0x13010
def HOST_ERR_T_COUNT (t : Nat) : Nat := 0x13020 + t * 0x4
/-! Table 19.12 (R531). -/
def HOST_SAFE_CTRL : Nat := 0x13040
def HOST_SAFE_CTRL_KEY : Fld := ⟨15, 0⟩
/-! Table 19.13 (R531). -/
def HOST_ERR_REC_W (s : Nat) (j : Nat) : Nat := 0x14000 + s * 0x20 + j * 0x4
/-! Table 20.8 (R555). -/
def PMU_CNT_CFG (n : Nat) : Nat := 0x400100 + n * 0x10
def PMU_CNT_CFG_ENABLE : Fld := ⟨31, 31⟩
def PMU_CNT_CFG_SAMPLE : Fld := ⟨30, 30⟩
def PMU_CNT_CFG_SAT : Fld := ⟨29, 29⟩
def PMU_CNT_CFG_HOLDER : Fld := ⟨22, 16⟩
def PMU_CNT_CFG_EVENT : Fld := ⟨15, 0⟩
/-! Table 20.9 (R555). -/
def PMU_CNT_LO (n : Nat) : Nat := 0x400104 + n * 0x10
def PMU_CNT_HI (n : Nat) : Nat := 0x400108 + n * 0x10
def PMU_FIX_LO (x : Nat) : Nat := 0x400800 + x * 0x8
def PMU_FIX_HI (x : Nat) : Nat := 0x400804 + x * 0x8
/-! Table 20.10 (R555). -/
def PMU_DUMP_HEAD (f : Nat) : Nat := 0x5000800 + f * 0x1000
def PMU_DUMP_TAIL (f : Nat) : Nat := 0x5000804 + f * 0x1000
def PMU_SAMPLE_HEAD (f : Nat) : Nat := 0x5000808 + f * 0x1000
def PMU_SAMPLE_TAIL (f : Nat) : Nat := 0x500080C + f * 0x1000
/-! Table 20.11 (R555). -/
def PMU_DUMP_LOST (f : Nat) : Nat := 0x5000810 + f * 0x1000
def PMU_SAMPLE_LOST (f : Nat) : Nat := 0x5000814 + f * 0x1000
/-! Table 20.12 (R555). -/
def PMU_SECURE : Nat := 0x400000
def PMU_SECURE_OK : Fld := ⟨0, 0⟩
/-! Table 20.13 (R555). -/
def DBG_CROWN_STATUS : Nat := 0x440000
def DBG_CROWN_STATUS_LEVEL : Fld := ⟨31, 30⟩
def DBG_CROWN_STATUS_LOCK : Fld := ⟨29, 28⟩
def DBG_CROWN_STATUS_AUTH : Fld := ⟨27, 26⟩
def DBG_CROWN_STATUS_FAULT : Fld := ⟨7, 0⟩
/-! Table 20.14 (R555). -/
def DBG_MEM_HANDLE : Nat := 0x440010
def DBG_MEM_BASE_LO : Nat := 0x440014
def DBG_MEM_BASE_HI : Nat := 0x440018
/-! Table 20.15 (R555). -/
def DBG_CORE_CTRL (c : Nat) : Nat := 0x440100 + c * 0x10
def DBG_CORE_CTRL_HALT : Fld := ⟨31, 31⟩
def DBG_CORE_CTRL_RESUME : Fld := ⟨30, 30⟩
def DBG_CORE_CTRL_STEP : Fld := ⟨29, 29⟩
def DBG_CORE_CTRL_HALTED : Fld := ⟨28, 28⟩
def DBG_CORE_CTRL_HALT_PENDING : Fld := ⟨27, 27⟩
def DBG_CORE_CTRL_CAUSE : Fld := ⟨3, 0⟩
/-! Table 20.16 (R555). -/
def DBG_BP_ADDR_LO (k : Nat) : Nat := 0x440200 + k * 0x10
def DBG_BP_ADDR_HI (k : Nat) : Nat := 0x440204 + k * 0x10
def DBG_BP_CTRL (k : Nat) : Nat := 0x440208 + k * 0x10
/-! Table 20.17 (R555). -/
def DBG_SBP_KEY_LO (k : Nat) : Nat := 0x440300 + k * 0x10
def DBG_SBP_KEY_HI (k : Nat) : Nat := 0x440304 + k * 0x10
def DBG_SBP_OFFSET (k : Nat) : Nat := 0x440308 + k * 0x10
/-! Table 20.18 (R555). -/
def DBG_WAVE_SEL : Nat := 0x440400
def DBG_WAVE_VALUE : Nat := 0x440404
/-! Table 20.19 (R555). -/
def DBG_VOTE : Nat := 0x440500
def DBG_STRG_CTRL : Nat := 0x440504
/-! Table 21.7 (R574). -/
def CLRK_FW_STATUS : Nat := 0x30010
def CLRK_FW_STATUS_STAGED : Fld := ⟨31, 30⟩
def CLRK_FW_STATUS_SLOT : Fld := ⟨29, 29⟩
def CLRK_FW_STATUS_FELL_BACK : Fld := ⟨28, 28⟩
def CLRK_FW_STATUS_SWITCHING : Fld := ⟨27, 27⟩
def CLRK_FW_STATUS_COLD_BOOT : Fld := ⟨26, 26⟩
/-! Table 21.8 (R574). -/
def CLRK_FW_STAGED_VER : Nat := 0x30014
def CLRK_BOOT_US : Nat := 0x30018
/-! Table 22.7 (R587). -/
def PCU_TJ (s : Nat) : Nat := 0x380040 + s * 0x4
def PCU_TJ_VALID : Fld := ⟨31, 31⟩
def PCU_TJ_TEMP : Fld := ⟨11, 0⟩
/-! Table 22.8 (R587). -/
def PCU_TJ_HOT : Nat := 0x380064
def PCU_TJ_HOT_VALID : Fld := ⟨31, 31⟩
def PCU_TJ_HOT_SENSOR : Fld := ⟨15, 12⟩
def PCU_TJ_HOT_TEMP : Fld := ⟨11, 0⟩

/-- The registers of block HOST. -/
def regTableHOST : List RegSpec := [
  ⟨"HOST_LINK_STATUS", 0x10100, [(2, 0x40)], [⟨17, 17, .ro, .hw⟩, ⟨16, 16, .ro, .hw⟩, ⟨7, 4, .ro, .hw⟩, ⟨3, 0, .ro, .hw⟩], 0⟩,
  ⟨"HOST_BAD_WRITE_COUNT", 0x10200, [], [⟨31, 0, .rc, .hw⟩], 0⟩,
  ⟨"HOST_ERR_CTRL", 0x13000, [], [⟨4, 0, .rw, .m⟩], 0⟩,
  ⟨"HOST_ERR_STATUS", 0x13004, [], [⟨31, 31, .ro, .hw⟩, ⟨30, 30, .ro, .hw⟩, ⟨23, 16, .ro, .hw⟩, ⟨15, 8, .ro, .hw⟩, ⟨1, 0, .ro, .hw⟩], 0⟩,
  ⟨"HOST_ERR_NEXT", 0x13008, [], [⟨31, 31, .ro, .hw⟩, ⟨5, 0, .ro, .hw⟩], 0⟩,
  ⟨"HOST_ERR_ACK", 0x1300C, [], [⟨31, 31, .wo, .m⟩, ⟨15, 0, .wo, .m⟩], 0⟩,
  ⟨"HOST_ERR_LOST_COUNT", 0x13010, [], [⟨31, 0, .rc, .hw⟩], 0⟩,
  ⟨"HOST_ERR_T_COUNT", 0x13020, [(4, 0x4)], [⟨31, 0, .rc, .hw⟩], 0⟩,
  ⟨"HOST_SAFE_CTRL", 0x13040, [], [⟨15, 0, .wo, .m⟩], 0⟩,
  ⟨"HOST_ERR_REC_W", 0x14000, [(64, 0x20), (8, 0x4)], [⟨31, 0, .ro, .hw⟩], 0⟩]

/-- The registers of block ring sets. -/
def regTableRS : List RegSpec := [
  ⟨"CLRK_SQ_BASE_LO", 0x38000, [(66, 0x100), (3, 0x10)], [⟨31, 12, .rw, .i⟩], 0⟩,
  ⟨"CLRK_CQ_BASE_LO", 0x38030, [(66, 0x100)], [⟨31, 12, .rw, .i⟩], 0⟩,
  ⟨"CLRK_SQ_BASE_HI", 0x38004, [(66, 0x100), (3, 0x10)], [⟨31, 0, .rw, .i⟩], 0⟩,
  ⟨"CLRK_CQ_BASE_HI", 0x38034, [(66, 0x100)], [⟨31, 0, .rw, .i⟩], 0⟩,
  ⟨"CLRK_SQ_CTRL", 0x38008, [(66, 0x100), (3, 0x10)], [⟨31, 31, .rw, .i⟩, ⟨4, 0, .rw, .i⟩], 0⟩,
  ⟨"CLRK_SQ_HEAD", 0x3800C, [(66, 0x100), (3, 0x10)], [⟨31, 0, .ro, .hw⟩], 0⟩,
  ⟨"CLRK_CQ_CTRL", 0x38038, [(66, 0x100)], [⟨31, 31, .rw, .i⟩, ⟨30, 30, .rw, .i⟩, ⟨23, 16, .rw, .i⟩, ⟨15, 5, .rw, .i⟩, ⟨4, 0, .rw, .i⟩], 0⟩,
  ⟨"CLRK_CQ_TAIL", 0x3803C, [(66, 0x100)], [⟨31, 0, .ro, .hw⟩], 0⟩,
  ⟨"CLRK_RING_STATUS", 0x38040, [(66, 0x100)], [⟨8, 8, .ro, .hw⟩, ⟨4, 4, .w1c, .i⟩, ⟨3, 3, .w1c, .i⟩, ⟨2, 0, .w1c, .i⟩], 0⟩,
  ⟨"CLRK_EV_DROP_COUNT", 0x38044, [(66, 0x100)], [⟨31, 0, .rc, .hw⟩], 0⟩,
  ⟨"CLRK_VECMAP", 0x38048, [(66, 0x100), (3, 0x4)], [⟨29, 0, .rw, .i⟩], 0⟩,
  ⟨"CLRK_MBOX_I2M", 0x38080, [(66, 0x100), (16, 0x4)], [⟨31, 0, .rw, .i⟩], 0⟩,
  ⟨"CLRK_MBOX_M2I", 0x380C0, [(66, 0x100), (16, 0x4)], [⟨31, 0, .rw, .m⟩], 0⟩,
  ⟨"CLRK_MBOX_STATUS", 0x38060, [(66, 0x100)], [⟨2, 2, .w1c, .im⟩, ⟨1, 1, .w1c, .i⟩, ⟨0, 0, .w1c, .m⟩], 0⟩]

/-- The registers of block doorbell pages. -/
def regTableDB : List RegSpec := [
  ⟨"CLRK_DB_SQ", 0x800000, [(66, 0x1000), (3, 0x4)], [⟨31, 0, .wo, .i⟩], 0⟩,
  ⟨"CLRK_DB_CQ", 0x80000C, [(66, 0x1000)], [⟨31, 0, .wo, .i⟩], 0⟩,
  ⟨"CLRK_DB_MBOX", 0x800010, [(66, 0x1000)], [⟨0, 0, .wo, .im⟩], 0⟩]

/-- The registers of block CLRK. -/
def regTableCLRK : List RegSpec := [
  ⟨"CLRK_SLIP_STATE", 0x34000, [(256, 0x4)], [⟨31, 31, .ro, .hw⟩, ⟨30, 30, .ro, .hw⟩, ⟨23, 16, .ro, .hw⟩, ⟨6, 0, .ro, .hw⟩], 0⟩,
  ⟨"CLRK_FW_STATUS", 0x30010, [], [⟨31, 30, .ro, .hw⟩, ⟨29, 29, .ro, .hw⟩, ⟨28, 28, .ro, .hw⟩, ⟨27, 27, .ro, .hw⟩, ⟨26, 26, .ro, .hw⟩], 0⟩,
  ⟨"CLRK_FW_STAGED_VER", 0x30014, [], [⟨31, 0, .ro, .hw⟩], 0⟩,
  ⟨"CLRK_BOOT_US", 0x30018, [], [⟨31, 0, .ro, .hw⟩], 0⟩]

/-- The registers of block CAP. -/
def regTableCAP : List RegSpec := [
  ⟨"CAP_LIST_GEN", 0x40, [], [⟨31, 0, .ro, .hw⟩], 0⟩]

/-- The registers of block INST. -/
def regTableINST : List RegSpec := [
  ⟨"INST_STATE", 0x21000, [(65, 0x10)], [⟨31, 31, .ro, .hw⟩, ⟨30, 30, .ro, .hw⟩, ⟨29, 29, .ro, .hw⟩, ⟨28, 28, .ro, .hw⟩, ⟨24, 24, .ro, .hw⟩, ⟨22, 16, .ro, .hw⟩, ⟨11, 0, .ro, .hw⟩], 0⟩,
  ⟨"INST_MEM_USED", 0x21004, [(65, 0x10)], [⟨20, 0, .ro, .hw⟩], 0⟩,
  ⟨"INST_POOL_FREE_MEM", 0x20010, [], [⟨20, 0, .ro, .hw⟩], 0⟩,
  ⟨"INST_POOL_FREE_UNITS", 0x20014, [], [⟨28, 22, .ro, .hw⟩, ⟨21, 17, .ro, .hw⟩, ⟨16, 9, .ro, .hw⟩, ⟨8, 0, .ro, .hw⟩], 0⟩,
  ⟨"INST_POOL_FREE_UNITS2", 0x20018, [], [⟨29, 22, .ro, .hw⟩, ⟨21, 13, .ro, .hw⟩, ⟨12, 0, .ro, .hw⟩], 0⟩,
  ⟨"INST_POOL_FREE_MASKS", 0x2001C, [], [⟨15, 8, .ro, .hw⟩, ⟨7, 0, .ro, .hw⟩], 0⟩,
  ⟨"INST_MBOX_PENDING_LO", 0x20020, [], [⟨31, 0, .ro, .hw⟩], 0⟩,
  ⟨"INST_MBOX_PENDING_HI", 0x20024, [], [⟨31, 0, .ro, .hw⟩], 0⟩,
  ⟨"INST_MGR_CTRL", 0x20000, [], [⟨31, 31, .w1s, .m⟩, ⟨30, 30, .w1s, .m⟩, ⟨16, 16, .rw, .m⟩, ⟨15, 0, .rw, .m⟩], 0⟩,
  ⟨"INST_MGR_STATUS", 0x20004, [], [⟨2, 2, .ro, .hw⟩, ⟨1, 1, .ro, .hw⟩, ⟨0, 0, .ro, .hw⟩], 0⟩]

/-- The registers of block REGR. -/
def regTableREGR : List RegSpec := [
  ⟨"REGR_CTRL", 0x40000, [], [⟨31, 31, .rw, .m⟩, ⟨30, 30, .rw, .m⟩, ⟨29, 29, .rw, .m⟩, ⟨26, 16, .rw, .m⟩, ⟨15, 8, .rw, .m⟩, ⟨7, 0, .rw, .m⟩], 0⟩,
  ⟨"REGR_CARREL_THRESH", 0x40004, [], [⟨15, 0, .rw, .m⟩], 0⟩,
  ⟨"REGR_STATUS", 0x40008, [], [⟨31, 31, .ro, .hw⟩, ⟨30, 30, .ro, .hw⟩, ⟨15, 0, .ro, .hw⟩], 0⟩,
  ⟨"REGR_EPOCH_LO", 0x40010, [], [⟨31, 0, .ro, .hw⟩], 0⟩,
  ⟨"REGR_EPOCH_HI", 0x40014, [], [⟨31, 0, .ro, .hw⟩], 0⟩,
  ⟨"REGR_MOVE_COUNT", 0x40018, [], [⟨31, 0, .rc, .hw⟩], 0⟩,
  ⟨"REGR_CANCEL_COUNT", 0x4001C, [], [⟨31, 0, .rc, .hw⟩], 0⟩,
  ⟨"REGR_OVERRUN_COUNT", 0x40020, [], [⟨31, 0, .rc, .hw⟩], 0⟩,
  ⟨"REGR_RESERVE_FREE", 0x40024, [], [⟨20, 0, .ro, .hw⟩], 0⟩]

/-- The registers of block MEM. -/
def regTableMEM : List RegSpec := [
  ⟨"MEM_CTRL", 0x1C0000, [], [⟨31, 24, .rw, .m⟩, ⟨15, 0, .rw, .m⟩], 0⟩,
  ⟨"MEM_STATUS", 0x1C0004, [], [⟨31, 31, .ro, .hw⟩, ⟨30, 30, .ro, .hw⟩, ⟨20, 16, .ro, .hw⟩, ⟨15, 0, .ro, .hw⟩], 0⟩,
  ⟨"MEM_CONFIG", 0x1C0008, [], [⟨26, 24, .ro, .hw⟩, ⟨15, 0, .ro, .hw⟩], 0⟩,
  ⟨"MEM_TOL_MIN", 0x1C000C, [], [⟨19, 16, .ro, .hw⟩, ⟨15, 0, .ro, .hw⟩], 0⟩,
  ⟨"MEM_RETRAIN_CTRL", 0x1C0010, [], [⟨31, 31, .rw, .m⟩, ⟨23, 16, .rw, .m⟩, ⟨15, 8, .rw, .m⟩, ⟨7, 0, .rw, .m⟩], 0⟩,
  ⟨"MEM_SCRUB_CTRL", 0x1C0014, [], [⟨31, 31, .rw, .m⟩, ⟨15, 0, .rw, .m⟩], 0⟩,
  ⟨"MEM_SCRUB_STATUS", 0x1C0018, [], [⟨31, 31, .w1c, .m⟩, ⟨6, 0, .ro, .hw⟩], 0⟩,
  ⟨"MEM_CARREL_LOCK", 0x1C001C, [], [⟨31, 16, .ro, .s⟩, ⟨15, 0, .ro, .hw⟩], 0⟩,
  ⟨"MEM_FOLIO_INJECT", 0x1C0020, [], [⟨31, 31, .rw, .m⟩, ⟨30, 29, .rw, .m⟩, ⟨28, 27, .rw, .m⟩, ⟨19, 16, .rw, .m⟩, ⟨7, 0, .rw, .m⟩], 0⟩,
  ⟨"MEM_REGION_BASE", 0x1C0100, [(8, 0x8)], [⟨31, 0, .ro, .hw⟩], 0⟩,
  ⟨"MEM_REGION_CFG", 0x1C0104, [(8, 0x8)], [⟨31, 31, .ro, .hw⟩, ⟨30, 30, .ro, .hw⟩, ⟨29, 28, .ro, .hw⟩, ⟨16, 0, .ro, .hw⟩], 0⟩,
  ⟨"MEM_CH_STATE", 0x1C1000, [(16, 0x40)], [⟨31, 30, .ro, .hw⟩, ⟨4, 0, .ro, .hw⟩], 0⟩,
  ⟨"MEM_CH_CE_COUNT", 0x1C1004, [(16, 0x40)], [⟨31, 0, .rc, .hw⟩], 0⟩,
  ⟨"MEM_CH_UE_COUNT", 0x1C1008, [(16, 0x40)], [⟨31, 0, .rc, .hw⟩], 0⟩,
  ⟨"MEM_CH_SR_ENTRIES", 0x1C100C, [(16, 0x40)], [⟨31, 0, .rc, .hw⟩], 0⟩,
  ⟨"MEM_CH_LANE_EYE", 0x1C1010, [(16, 0x40), (2, 0x4)], [⟨31, 24, .ro, .hw⟩, ⟨23, 16, .ro, .hw⟩, ⟨15, 8, .ro, .hw⟩, ⟨7, 0, .ro, .hw⟩], 0⟩,
  ⟨"MEM_CARREL_CE_COUNT", 0x1C2000, [(16, 0x4)], [⟨31, 16, .rc, .hw⟩, ⟨15, 0, .rc, .hw⟩], 0⟩]

/-- The registers of block ESC. -/
def regTableESC : List RegSpec := [
  ⟨"ESC_CTRL", 0x200000, [], [⟨31, 31, .rw, .m⟩, ⟨26, 24, .rw, .m⟩, ⟨23, 16, .rw, .m⟩, ⟨11, 8, .rw, .m⟩], 0⟩,
  ⟨"ESC_HOLD_CTRL", 0x200004, [], [⟨15, 0, .rw, .m⟩], 0⟩,
  ⟨"ESC_TOL_STATUS", 0x200008, [], [⟨15, 8, .w1c, .m⟩, ⟨7, 0, .ro, .hw⟩], 0⟩,
  ⟨"ESC_PORT_FLAG_LO", 0x200010, [], [⟨31, 0, .w1c, .m⟩], 0⟩,
  ⟨"ESC_PORT_FLAG_HI", 0x200014, [], [⟨14, 0, .w1c, .m⟩], 0⟩,
  ⟨"ESC_CUTOFF_COUNT", 0x200018, [], [⟨31, 0, .rc, .hw⟩], 0⟩,
  ⟨"ESC_STALE_COUNT", 0x20001C, [], [⟨31, 0, .rc, .hw⟩], 0⟩,
  ⟨"ESC_AGED_COUNT", 0x200020, [], [⟨31, 0, .rc, .hw⟩], 0⟩,
  ⟨"ESC_C1_SLOT_COUNT", 0x200024, [], [⟨31, 0, .rc, .hw⟩], 0⟩,
  ⟨"ESC_URG7_COUNT", 0x200028, [], [⟨31, 0, .rc, .hw⟩], 0⟩]

/-- The registers of block RND. -/
def regTableRND : List RegSpec := [
  ⟨"RND_ARENA_SIZE", 0x80000, [], [⟨17, 0, .ro, .hw⟩], 0⟩,
  ⟨"RND_ARENA_FREE", 0x80004, [], [⟨17, 0, .ro, .hw⟩], 0⟩,
  ⟨"RND_ARENA_LIMITS", 0x80008, [], [⟨31, 16, .ro, .hw⟩, ⟨15, 0, .ro, .hw⟩], 0⟩,
  ⟨"RND_CODE_STATUS", 0x8000C, [], [⟨31, 16, .ro, .hw⟩, ⟨15, 0, .ro, .hw⟩], 0⟩,
  ⟨"RND_WATCHDOG", 0x80010, [], [⟨31, 16, .rw, .m⟩, ⟨15, 0, .rw, .m⟩], 0⟩,
  ⟨"RND_CLUSTER_BUSY", 0x80014, [], [⟨23, 0, .ro, .hw⟩], 0⟩,
  ⟨"RND_CLUSTER_UP", 0x80018, [], [⟨23, 0, .ro, .hw⟩], 0⟩,
  ⟨"RND_ACTIVE", 0x8001C, [], [⟨31, 16, .ro, .hw⟩, ⟨15, 0, .ro, .hw⟩], 0⟩,
  ⟨"RND_PASS_COUNT", 0x80020, [], [⟨31, 0, .rc, .hw⟩], 0⟩,
  ⟨"RND_PARTIAL_COUNT", 0x80024, [], [⟨31, 0, .rc, .hw⟩], 0⟩,
  ⟨"RND_COMPILE_COUNT", 0x80028, [], [⟨31, 0, .rc, .hw⟩], 0⟩,
  ⟨"RND_CACHE_HIT_COUNT", 0x8002C, [], [⟨31, 0, .rc, .hw⟩], 0⟩,
  ⟨"RND_EVICT_COUNT", 0x80030, [], [⟨31, 0, .rc, .hw⟩], 0⟩,
  ⟨"RND_DEADLINE_MISS_COUNT", 0x80034, [], [⟨31, 0, .rc, .hw⟩], 0⟩,
  ⟨"RND_ARENA_WAIT_COUNT", 0x80038, [], [⟨31, 0, .rc, .hw⟩], 0⟩]

/-- The registers of block TEX. -/
def regTableTEX : List RegSpec := [
  ⟨"TEX_CTRL", 0xC0000, [], [⟨31, 31, .rw, .m⟩, ⟨4, 0, .rw, .m⟩], 0⟩,
  ⟨"TEX_RAY_CTRL", 0xC0004, [], [⟨15, 0, .rw, .m⟩], 0⟩,
  ⟨"TEX_UNIT_BUSY", 0xC0008, [], [⟨23, 0, .ro, .hw⟩], 0⟩,
  ⟨"TEX_META_ERR_COUNT", 0xC0010, [], [⟨31, 0, .rc, .hw⟩], 0⟩,
  ⟨"TEX_BVH_ERR_COUNT", 0xC0014, [], [⟨31, 0, .rc, .hw⟩], 0⟩,
  ⟨"TEX_SPARSE_MISS_COUNT", 0xC0018, [], [⟨31, 0, .rc, .hw⟩], 0⟩,
  ⟨"TEX_BLOCK_CONST_COUNT", 0xC001C, [], [⟨31, 0, .rc, .hw⟩], 0⟩,
  ⟨"TEX_BLOCK_COMP_COUNT", 0xC0020, [], [⟨31, 0, .rc, .hw⟩], 0⟩,
  ⟨"TEX_BLOCK_RAW_COUNT", 0xC0024, [], [⟨31, 0, .rc, .hw⟩], 0⟩,
  ⟨"TEX_EXPAND_COUNT", 0xC0028, [], [⟨31, 0, .rc, .hw⟩], 0⟩,
  ⟨"TEX_RAY_QUERY_COUNT", 0xC002C, [], [⟨31, 0, .rc, .hw⟩], 0⟩]

/-- The registers of block BND. -/
def regTableBND : List RegSpec := [
  ⟨"BND_BG", 0x100000, [(8, 0x100)], [⟨29, 20, .rw, .im⟩, ⟨19, 10, .rw, .im⟩, ⟨9, 0, .rw, .im⟩], 0⟩,
  ⟨"BND_STATUS", 0x100004, [(8, 0x100)], [⟨31, 31, .ro, .hw⟩, ⟨30, 29, .ro, .hw⟩, ⟨20, 16, .ro, .hw⟩, ⟨15, 0, .ro, .hw⟩], 0⟩,
  ⟨"BND_FETCH", 0x100008, [(8, 0x100)], [⟨15, 0, .ro, .hw⟩], 0⟩,
  ⟨"BND_C0", 0x10000C, [(8, 0x100)], [⟨0, 0, .rw, .s⟩], 0⟩,
  ⟨"BND_SLOT_STATE", 0x102000, [(128, 0x4)], [⟨31, 31, .ro, .hw⟩, ⟨30, 29, .ro, .hw⟩, ⟨28, 27, .ro, .hw⟩, ⟨26, 20, .ro, .hw⟩, ⟨19, 13, .ro, .hw⟩, ⟨12, 7, .ro, .hw⟩], 0⟩,
  ⟨"BND_MOTION_CTRL", 0x101000, [], [⟨31, 30, .rw, .m⟩, ⟨15, 8, .rw, .m⟩, ⟨7, 0, .rw, .m⟩], 0⟩,
  ⟨"BND_MOTION_BUS", 0x101004, [], [⟨30, 24, .rw, .m⟩, ⟨15, 0, .rw, .m⟩], 0⟩,
  ⟨"BND_MOTION_STATUS", 0x101008, [], [⟨31, 31, .ro, .hw⟩, ⟨30, 30, .ro, .hw⟩, ⟨15, 0, .rc, .hw⟩], 0⟩,
  ⟨"BND_POSE_TIME_LO", 0x101010, [], [⟨31, 0, .ro, .hw⟩], 0⟩,
  ⟨"BND_POSE_TIME_HI", 0x101014, [], [⟨31, 0, .ro, .hw⟩], 0⟩,
  ⟨"BND_LATE_COUNT", 0x101020, [], [⟨31, 0, .rc, .hw⟩], 0⟩,
  ⟨"BND_CRIT_COUNT", 0x101024, [], [⟨31, 0, .rc, .hw⟩], 0⟩,
  ⟨"BND_UNDERRUN_COUNT", 0x101028, [], [⟨31, 0, .rc, .hw⟩], 0⟩,
  ⟨"BND_SKIP_COUNT", 0x10102C, [], [⟨31, 0, .rc, .hw⟩], 0⟩,
  ⟨"BND_WARP_CLAMP_COUNT", 0x101030, [], [⟨31, 0, .rc, .hw⟩], 0⟩]

/-- The registers of block layer status pages. -/
def regTableLP : List RegSpec := [
  ⟨"BND_LAYER_STATUS", 0x3000000, [(66, 0x1000), (128, 0x4)], [⟨31, 31, .ro, .hw⟩, ⟨30, 30, .ro, .hw⟩, ⟨29, 29, .ro, .hw⟩, ⟨28, 28, .ro, .hw⟩, ⟨27, 27, .ro, .hw⟩, ⟨26, 24, .ro, .hw⟩, ⟨23, 20, .ro, .hw⟩, ⟨19, 18, .ro, .hw⟩, ⟨17, 15, .ro, .hw⟩, ⟨5, 0, .ro, .hw⟩], 0⟩]

/-- The registers of block OUT. -/
def regTableOUT : List RegSpec := [
  ⟨"OUT_CTRL", 0x140000, [(8, 0x4000)], [⟨31, 31, .rw, .im⟩, ⟨30, 30, .rw, .im⟩, ⟨29, 29, .rw, .s⟩, ⟨1, 0, .rw, .im⟩], 0⟩,
  ⟨"OUT_STATUS", 0x140004, [(8, 0x4000)], [⟨31, 30, .ro, .hw⟩, ⟨29, 29, .ro, .hw⟩, ⟨28, 28, .ro, .hw⟩, ⟨27, 27, .ro, .hw⟩, ⟨26, 26, .ro, .hw⟩, ⟨18, 16, .ro, .hw⟩], 0⟩,
  ⟨"OUT_HACTIVE", 0x140010, [(8, 0x4000)], [⟨15, 0, .rw, .im⟩], 0⟩,
  ⟨"OUT_VACTIVE", 0x140020, [(8, 0x4000)], [⟨15, 0, .rw, .im⟩], 0⟩,
  ⟨"OUT_HPORCH", 0x140014, [(8, 0x4000)], [⟨31, 16, .rw, .im⟩, ⟨15, 0, .rw, .im⟩], 0⟩,
  ⟨"OUT_VPORCH", 0x140024, [(8, 0x4000)], [⟨31, 16, .rw, .im⟩, ⟨15, 0, .rw, .im⟩], 0⟩,
  ⟨"OUT_HSYNC", 0x140018, [(8, 0x4000)], [⟨31, 31, .rw, .im⟩, ⟨15, 0, .rw, .im⟩], 0⟩,
  ⟨"OUT_VSYNC", 0x140028, [(8, 0x4000)], [⟨31, 31, .rw, .im⟩, ⟨15, 0, .rw, .im⟩], 0⟩,
  ⟨"OUT_PCLK", 0x140030, [(8, 0x4000)], [⟨31, 0, .ro, .hw⟩], 0⟩,
  ⟨"OUT_LINK", 0x140034, [(8, 0x4000)], [⟨31, 24, .ro, .hw⟩, ⟨23, 20, .ro, .hw⟩, ⟨19, 16, .ro, .hw⟩, ⟨15, 15, .ro, .hw⟩, ⟨14, 14, .ro, .hw⟩, ⟨13, 13, .ro, .hw⟩], 0⟩,
  ⟨"OUT_DSC", 0x140038, [(8, 0x4000)], [⟨28, 16, .ro, .hw⟩, ⟨15, 12, .ro, .hw⟩, ⟨11, 0, .ro, .hw⟩], 0⟩,
  ⟨"OUT_LATCH", 0x140040, [(8, 0x4000)], [⟨22, 16, .rw, .im⟩, ⟨12, 0, .ro, .hw⟩], 0⟩,
  ⟨"OUT_POS", 0x140044, [(8, 0x4000)], [⟨12, 0, .ro, .hw⟩], 0⟩,
  ⟨"OUT_FRAME_LO", 0x140048, [(8, 0x4000)], [⟨31, 0, .ro, .hw⟩], 0⟩,
  ⟨"OUT_FRAME_HI", 0x14004C, [(8, 0x4000)], [⟨31, 0, .ro, .hw⟩], 0⟩,
  ⟨"OUT_LATCH_TIME_LO", 0x140050, [(8, 0x4000)], [⟨31, 0, .ro, .hw⟩], 0⟩,
  ⟨"OUT_LATCH_TIME_HI", 0x140054, [(8, 0x4000)], [⟨31, 0, .ro, .hw⟩], 0⟩,
  ⟨"OUT_TOL", 0x140058, [(8, 0x4000)], [⟨26, 16, .ro, .hw⟩, ⟨15, 0, .ro, .hw⟩], 0⟩,
  ⟨"OUT_FILL", 0x14005C, [(8, 0x4000)], [⟨29, 20, .rw, .im⟩, ⟨19, 10, .rw, .im⟩, ⟨9, 0, .rw, .im⟩], 0⟩,
  ⟨"OUT_TE", 0x140060, [(8, 0x4000)], [⟨31, 31, .rw, .im⟩, ⟨9, 0, .rw, .im⟩], 0⟩,
  ⟨"OUT_HPD", 0x140064, [(8, 0x4000)], [⟨7, 0, .rw, .im⟩], 0⟩,
  ⟨"OUT_UNDERRUN_COUNT", 0x140070, [(8, 0x4000)], [⟨31, 0, .rc, .hw⟩], 0⟩,
  ⟨"OUT_POISON_COUNT", 0x140074, [(8, 0x4000)], [⟨31, 0, .rc, .hw⟩], 0⟩,
  ⟨"OUT_TE_REJECT_COUNT", 0x140078, [(8, 0x4000)], [⟨31, 0, .rc, .hw⟩], 0⟩,
  ⟨"OUT_LINK_LOSS_COUNT", 0x14007C, [(8, 0x4000)], [⟨31, 0, .rc, .hw⟩], 0⟩]

/-- The registers of block COLL. -/
def regTableCOLL : List RegSpec := [
  ⟨"CVU_CFG", 0x181000, [(32, 0x40)], [⟨31, 31, .wo, .im⟩, ⟨30, 30, .wo, .im⟩, ⟨24, 24, .rw, .im⟩, ⟨23, 16, .rw, .im⟩, ⟨15, 8, .rw, .im⟩, ⟨1, 0, .rw, .im⟩], 0⟩,
  ⟨"CVU_DATA8", 0x181004, [(32, 0x40)], [⟨31, 0, .wo, .im⟩], 0⟩,
  ⟨"CVU_DATA16", 0x181008, [(32, 0x40)], [⟨31, 0, .wo, .im⟩], 0⟩,
  ⟨"CVU_DATA32", 0x18100C, [(32, 0x40)], [⟨31, 0, .wo, .im⟩], 0⟩,
  ⟨"CVU_VALUE", 0x181010, [(32, 0x40)], [⟨31, 0, .rw, .im⟩], 0⟩,
  ⟨"CVU_RESULT", 0x181014, [(32, 0x40)], [⟨31, 0, .ro, .hw⟩], 0⟩,
  ⟨"CVU_EXPECT", 0x181018, [(32, 0x40)], [⟨31, 0, .wo, .im⟩], 0⟩,
  ⟨"CVU_STATUS", 0x18101C, [(32, 0x40)], [⟨31, 31, .ro, .hw⟩, ⟨1, 1, .ro, .hw⟩, ⟨0, 0, .ro, .hw⟩], 0⟩,
  ⟨"CVU_ALIVE", 0x181020, [(32, 0x40)], [⟨8, 8, .wo, .im⟩, ⟨7, 0, .wo, .im⟩], 0⟩,
  ⟨"CVU_ALIVE_STATE", 0x181024, [(32, 0x40)], [⟨31, 31, .ro, .hw⟩, ⟨30, 30, .w1c, .im⟩, ⟨29, 29, .w1c, .im⟩, ⟨28, 28, .w1c, .im⟩, ⟨23, 16, .ro, .hw⟩, ⟨7, 0, .ro, .hw⟩], 0⟩,
  ⟨"COLL_WIN_CFG", 0x184000, [(8, 0x400), (16, 0x40)], [⟨31, 30, .ro, .hw⟩, ⟨29, 29, .ro, .hw⟩, ⟨28, 27, .ro, .hw⟩, ⟨26, 26, .ro, .hw⟩, ⟨25, 19, .ro, .hw⟩, ⟨18, 12, .ro, .hw⟩, ⟨11, 8, .ro, .hw⟩, ⟨7, 4, .ro, .hw⟩], 0⟩,
  ⟨"COLL_WIN_XY", 0x184004, [(8, 0x400), (16, 0x40)], [⟨28, 16, .ro, .hw⟩, ⟨12, 0, .ro, .hw⟩], 0⟩,
  ⟨"COLL_WIN_WH", 0x184008, [(8, 0x400), (16, 0x40)], [⟨28, 16, .ro, .hw⟩, ⟨12, 0, .ro, .hw⟩], 0⟩,
  ⟨"COLL_WIN_STATUS", 0x18400C, [(8, 0x400), (16, 0x40)], [⟨31, 29, .ro, .hw⟩, ⟨28, 28, .ro, .hw⟩, ⟨27, 24, .ro, .hw⟩, ⟨23, 20, .ro, .hw⟩], 0⟩,
  ⟨"COLL_WIN_FRAME", 0x184010, [(8, 0x400), (16, 0x40)], [⟨31, 0, .ro, .hw⟩], 0⟩,
  ⟨"COLL_WIN_VALUE", 0x184014, [(8, 0x400), (16, 0x40)], [⟨31, 0, .ro, .hw⟩], 0⟩,
  ⟨"GPC_VALUE", 0x188008, [(8, 0x40)], [⟨31, 0, .ro, .hw⟩], 0⟩,
  ⟨"COLL_WIN_FAIL_COUNT", 0x184018, [(8, 0x400), (16, 0x40)], [⟨31, 0, .rc, .hw⟩], 0⟩,
  ⟨"COLL_WIN_LATE_COUNT", 0x18401C, [(8, 0x400), (16, 0x40)], [⟨31, 0, .rc, .hw⟩], 0⟩,
  ⟨"GPC_FAIL_COUNT", 0x188010, [(8, 0x40)], [⟨31, 0, .rc, .hw⟩], 0⟩,
  ⟨"GPC_EXPECT", 0x188000, [(8, 0x40)], [⟨31, 0, .rw, .s⟩], 0⟩,
  ⟨"GPC_COUNT_EXP", 0x188004, [(8, 0x40)], [⟨31, 0, .rw, .s⟩], 0⟩,
  ⟨"GPC_STATUS", 0x18800C, [(8, 0x40)], [⟨31, 29, .ro, .hw⟩, ⟨23, 0, .ro, .hw⟩], 0⟩]

/-- The registers of block STRG. -/
def regTableSTRG : List RegSpec := [
  ⟨"STRG_STATUS", 0x280000, [], [⟨31, 30, .ro, .hw⟩, ⟨29, 29, .ro, .s⟩, ⟨28, 28, .ro, .hw⟩, ⟨15, 8, .ro, .s⟩, ⟨7, 0, .ro, .s⟩], 0⟩,
  ⟨"STRG_VERSION", 0x280004, [], [⟨31, 24, .ro, .s⟩, ⟨23, 0, .ro, .s⟩], 0⟩,
  ⟨"STRG_BOUND", 0x280008, [], [⟨19, 12, .ro, .s⟩, ⟨11, 4, .ro, .s⟩, ⟨3, 0, .ro, .s⟩], 0⟩,
  ⟨"STRG_BOUND_CVU", 0x28000C, [], [⟨31, 0, .ro, .s⟩], 0⟩,
  ⟨"STRG_VOTES", 0x280010, [], [⟨21, 0, .ro, .s⟩], 0⟩,
  ⟨"STRG_WAYPART", 0x280014, [], [⟨11, 8, .ro, .s⟩, ⟨3, 0, .ro, .s⟩], 0⟩,
  ⟨"STRG_REQ_PKT", 0x280100, [(16, 0x4)], [⟨31, 0, .rw, .m⟩], 0⟩,
  ⟨"STRG_REQ_DB", 0x280140, [], [⟨0, 0, .wo, .m⟩], 0⟩,
  ⟨"STRG_REQ_STATUS", 0x280144, [], [⟨1, 1, .w1c, .m⟩, ⟨0, 0, .ro, .hw⟩], 0⟩,
  ⟨"STRG_REQ_REPLY", 0x280180, [(8, 0x4)], [⟨31, 0, .ro, .s⟩], 0⟩,
  ⟨"STRG_TT_STATE", 0x280400, [(256, 0x4)], [⟨31, 31, .ro, .s⟩, ⟨30, 30, .ro, .s⟩, ⟨14, 8, .ro, .s⟩, ⟨7, 0, .ro, .s⟩], 0⟩,
  ⟨"STRG_CHIME_STATUS", 0x280800, [], [⟨31, 16, .ro, .s⟩, ⟨15, 0, .ro, .s⟩], 0⟩,
  ⟨"STRG_REFUSE_COUNT", 0x280804, [], [⟨31, 0, .rc, .hw⟩], 0⟩]

/-- The registers of block TCH. -/
def regTableTCH : List RegSpec := [
  ⟨"TCH_STATUS", 0x2C0000, [(4, 0x400)], [⟨31, 30, .ro, .hw⟩, ⟨29, 29, .ro, .hw⟩, ⟨28, 26, .ro, .hw⟩, ⟨25, 25, .ro, .hw⟩, ⟨24, 20, .ro, .hw⟩, ⟨19, 12, .ro, .hw⟩, ⟨11, 0, .ro, .hw⟩], 0⟩,
  ⟨"TCH_FRAME", 0x2C0004, [(4, 0x400)], [⟨31, 0, .ro, .hw⟩], 0⟩,
  ⟨"TCH_NOISE", 0x2C0008, [(4, 0x400)], [⟨31, 0, .ro, .hw⟩], 0⟩,
  ⟨"TCH_DROP_COUNT", 0x2C0010, [(4, 0x400)], [⟨31, 0, .rc, .hw⟩], 0x100⟩,
  ⟨"TCH_OVERFLOW_COUNT", 0x2C0014, [(4, 0x400)], [⟨31, 0, .rc, .hw⟩], 0x100⟩,
  ⟨"TCH_HOP_COUNT", 0x2C0018, [(4, 0x400)], [⟨31, 0, .rc, .hw⟩], 0x100⟩,
  ⟨"TCH_WAKE_STATUS", 0x2C1000, [], [⟨31, 31, .w1c, .m⟩, ⟨18, 16, .ro, .hw⟩, ⟨1, 0, .ro, .hw⟩], 0⟩]

/-- The registers of block touch region pages. -/
def regTableTP : List RegSpec := [
  ⟨"TCH_RGN_HEAD", 0x4000000, [(66, 0x2000), (256, 0x10)], [⟨31, 0, .rw, .i⟩], 0⟩,
  ⟨"TCH_RGN_TAIL", 0x4000004, [(66, 0x2000), (256, 0x10)], [⟨31, 0, .ro, .hw⟩], 0⟩,
  ⟨"TCH_RGN_STATUS", 0x4000008, [(66, 0x2000), (256, 0x10)], [⟨31, 31, .ro, .hw⟩, ⟨27, 24, .ro, .hw⟩, ⟨15, 0, .rc, .hw⟩], 0x1000⟩]

/-- The registers of block HAP. -/
def regTableHAP : List RegSpec := [
  ⟨"HAP_CFG", 0x300000, [(8, 0x100)], [⟨31, 31, .ro, .hw⟩, ⟨30, 30, .ro, .hw⟩, ⟨29, 28, .ro, .hw⟩, ⟨23, 16, .ro, .hw⟩, ⟨15, 8, .ro, .hw⟩, ⟨7, 0, .ro, .hw⟩], 0⟩,
  ⟨"HAP_STATUS", 0x300004, [(8, 0x100)], [⟨31, 29, .ro, .hw⟩, ⟨28, 28, .ro, .hw⟩, ⟨27, 24, .ro, .hw⟩, ⟨23, 22, .ro, .hw⟩, ⟨21, 21, .ro, .hw⟩, ⟨20, 20, .ro, .hw⟩, ⟨19, 18, .ro, .hw⟩], 0⟩,
  ⟨"HAP_CAL", 0x300008, [(8, 0x100)], [⟨31, 20, .ro, .hw⟩, ⟨19, 10, .ro, .hw⟩], 0⟩,
  ⟨"HAP_GAIN", 0x30000C, [(8, 0x100)], [⟨15, 0, .ro, .hw⟩], 0⟩,
  ⟨"HAP_SCALE", 0x300010, [(8, 0x100)], [⟨15, 0, .ro, .hw⟩], 0⟩,
  ⟨"HAP_CYCLES_LO", 0x300014, [(8, 0x100)], [⟨31, 0, .ro, .hw⟩], 0⟩,
  ⟨"HAP_CYCLES_HI", 0x300018, [(8, 0x100)], [⟨31, 0, .ro, .hw⟩], 0⟩,
  ⟨"HAP_STALL_COUNT", 0x300020, [(8, 0x100)], [⟨31, 0, .rc, .hw⟩], 0x40⟩,
  ⟨"HAP_SAT_COUNT", 0x300024, [(8, 0x100)], [⟨31, 0, .rc, .hw⟩], 0x40⟩,
  ⟨"HAP_DROP_COUNT", 0x300028, [(8, 0x100)], [⟨31, 0, .rc, .hw⟩], 0x40⟩,
  ⟨"HAP_BOOST_CTRL", 0x301000, [], [⟨7, 0, .rw, .m⟩], 0⟩,
  ⟨"HAP_BOOST_STATUS", 0x301004, [], [⟨31, 31, .ro, .hw⟩, ⟨30, 30, .ro, .hw⟩, ⟨29, 29, .ro, .hw⟩, ⟨23, 16, .ro, .hw⟩, ⟨7, 0, .ro, .hw⟩], 0⟩,
  ⟨"HAP_SENSOR_BUS", 0x301008, [], [⟨31, 30, .rw, .m⟩, ⟨15, 0, .rw, .m⟩], 0⟩]

/-- The registers of block AUD. -/
def regTableAUD : List RegSpec := [
  ⟨"AUD_STATUS", 0x340000, [], [⟨31, 31, .ro, .hw⟩, ⟨30, 30, .ro, .hw⟩, ⟨29, 29, .ro, .hw⟩, ⟨15, 8, .ro, .hw⟩, ⟨7, 0, .ro, .hw⟩], 0⟩,
  ⟨"AUD_PORT_STATUS", 0x340100, [(12, 0x4)], [⟨31, 30, .ro, .hw⟩, ⟨29, 29, .ro, .hw⟩, ⟨28, 28, .ro, .hw⟩, ⟨27, 24, .ro, .hw⟩, ⟨23, 16, .rc, .hw⟩, ⟨15, 0, .ro, .hw⟩], 0⟩,
  ⟨"AUD_EP_STATUS", 0x341000, [(64, 0x10)], [⟨31, 31, .ro, .hw⟩, ⟨30, 30, .ro, .hw⟩, ⟨29, 27, .ro, .hw⟩, ⟨26, 26, .ro, .hw⟩, ⟨25, 19, .ro, .hw⟩, ⟨15, 8, .ro, .hw⟩, ⟨7, 0, .rc, .hw⟩], 0⟩,
  ⟨"AUD_EP_HOST_POS", 0x341004, [(64, 0x10)], [⟨31, 0, .rw, .i⟩], 0⟩,
  ⟨"AUD_EP_DEV_POS", 0x341008, [(64, 0x10)], [⟨31, 0, .ro, .hw⟩], 0⟩,
  ⟨"AUD_EP_XRUN_COUNT", 0x34100C, [(64, 0x10)], [⟨31, 0, .rc, .hw⟩], 0⟩,
  ⟨"AUD_NODE_STATUS", 0x342000, [(128, 0x10)], [⟨31, 31, .ro, .hw⟩, ⟨30, 30, .ro, .hw⟩, ⟨27, 24, .ro, .hw⟩, ⟨23, 16, .ro, .hw⟩, ⟨15, 8, .ro, .hw⟩, ⟨6, 0, .ro, .hw⟩], 0⟩,
  ⟨"AUD_NODE_CLIP_COUNT", 0x342004, [(128, 0x10)], [⟨31, 0, .rc, .hw⟩], 0⟩]

/-- The registers of block PCU. -/
def regTablePCU : List RegSpec := [
  ⟨"PCU_STATE", 0x380000, [], [⟨31, 30, .ro, .hw⟩, ⟨29, 29, .ro, .hw⟩, ⟨28, 28, .ro, .hw⟩, ⟨2, 0, .ro, .hw⟩], 0⟩,
  ⟨"PCU_DOMAIN_UP", 0x380004, [], [⟨21, 0, .ro, .hw⟩], 0⟩,
  ⟨"PCU_DOMAIN_FAILED", 0x380008, [], [⟨21, 0, .ro, .hw⟩], 0⟩,
  ⟨"PCU_DOMAIN_MOVING", 0x38000C, [], [⟨21, 0, .ro, .hw⟩], 0⟩,
  ⟨"PCU_WAKE", 0x380010, [], [⟨0, 0, .wo, .m⟩], 0⟩,
  ⟨"PCU_CLK_STATUS", 0x380014, [], [⟨31, 31, .ro, .hw⟩, ⟨30, 30, .ro, .hw⟩, ⟨29, 29, .ro, .hw⟩, ⟨28, 28, .ro, .hw⟩, ⟨13, 0, .ro, .hw⟩], 0⟩,
  ⟨"PCU_EVENTS", 0x380018, [], [⟨2, 2, .w1c, .m⟩, ⟨1, 1, .w1c, .m⟩, ⟨0, 0, .w1c, .m⟩], 0⟩,
  ⟨"PCU_VOTE", 0x380400, [(72, 0x4)], [⟨21, 0, .ro, .hw⟩], 0⟩,
  ⟨"PCU_D2D_CRC_COUNT", 0x380020, [], [⟨31, 0, .rc, .hw⟩], 0x200⟩,
  ⟨"PCU_D2D_REPLAY_COUNT", 0x380024, [], [⟨31, 0, .rc, .hw⟩], 0x200⟩,
  ⟨"PCU_RETRY_COUNT", 0x380028, [], [⟨31, 0, .rc, .hw⟩], 0x200⟩,
  ⟨"PCU_DORMANT_DROP_COUNT", 0x38002C, [], [⟨31, 0, .rc, .hw⟩], 0x200⟩,
  ⟨"PCU_TJ", 0x380040, [(9, 0x4)], [⟨31, 31, .ro, .hw⟩, ⟨11, 0, .ro, .hw⟩], 0⟩,
  ⟨"PCU_TJ_HOT", 0x380064, [], [⟨31, 31, .ro, .hw⟩, ⟨15, 12, .ro, .hw⟩, ⟨11, 0, .ro, .hw⟩], 0⟩]

/-- The registers of block LEDG. -/
def regTableLEDG : List RegSpec := [
  ⟨"LEDG_STATUS", 0x3C0000, [], [⟨31, 30, .ro, .hw⟩, ⟨29, 29, .ro, .hw⟩, ⟨28, 28, .ro, .hw⟩, ⟨27, 27, .ro, .hw⟩, ⟨26, 26, .ro, .hw⟩, ⟨25, 25, .ro, .hw⟩, ⟨24, 24, .ro, .hw⟩, ⟨7, 0, .ro, .hw⟩], 0⟩,
  ⟨"LEDG_SAG_CTRL", 0x3C0004, [], [⟨8, 0, .rw, .m⟩], 0⟩,
  ⟨"LEDG_CAP", 0x3C0008, [], [⟨31, 16, .ro, .hw⟩, ⟨15, 0, .ro, .hw⟩], 0⟩,
  ⟨"LEDG_CAL_LO", 0x3C0010, [], [⟨31, 0, .ro, .hw⟩], 0⟩,
  ⟨"LEDG_CAL_HI", 0x3C0014, [], [⟨31, 0, .ro, .hw⟩], 0⟩,
  ⟨"LEDG_OFFSET_LO", 0x3C0018, [], [⟨31, 0, .ro, .hw⟩], 0⟩,
  ⟨"LEDG_OFFSET_HI", 0x3C001C, [], [⟨31, 0, .ro, .hw⟩], 0⟩,
  ⟨"LEDG_SEQ", 0x3C0020, [], [⟨31, 0, .ro, .hw⟩], 0⟩,
  ⟨"LEDG_LIVE_PASS", 0x3C0024, [], [⟨31, 0, .ro, .hw⟩], 0⟩,
  ⟨"LEDG_LAST_SAVE", 0x3C0028, [], [⟨31, 0, .ro, .hw⟩], 0⟩,
  ⟨"LEDG_CRC_COUNT", 0x3C0030, [], [⟨31, 0, .rc, .hw⟩], 0x100⟩,
  ⟨"LEDG_BROWNOUT_COUNT", 0x3C0034, [], [⟨31, 0, .rc, .hw⟩], 0x100⟩]

/-- The registers of block FAB. -/
def regTableFAB : List RegSpec := [
  ⟨"FAB_CTRL", 0x240000, [], [⟨31, 31, .rw, .m⟩, ⟨30, 30, .rw, .m⟩, ⟨29, 29, .rw, .m⟩, ⟨3, 0, .rw, .m⟩], 0⟩,
  ⟨"FAB_STATUS", 0x240004, [], [⟨31, 31, .ro, .hw⟩, ⟨30, 30, .ro, .hw⟩, ⟨29, 29, .ro, .hw⟩, ⟨28, 28, .ro, .hw⟩, ⟨27, 27, .ro, .hw⟩, ⟨26, 26, .ro, .hw⟩, ⟨25, 25, .ro, .hw⟩, ⟨21, 16, .ro, .hw⟩, ⟨14, 8, .ro, .hw⟩, ⟨5, 0, .ro, .hw⟩], 0⟩,
  ⟨"FAB_GEN", 0x240008, [], [⟨31, 0, .ro, .hw⟩], 0⟩,
  ⟨"FAB_LINK_STATUS", 0x240010, [(4, 0x4)], [⟨31, 30, .ro, .hw⟩, ⟨29, 27, .ro, .hw⟩, ⟨26, 26, .ro, .hw⟩, ⟨25, 25, .ro, .hw⟩, ⟨24, 24, .ro, .hw⟩, ⟨5, 0, .ro, .hw⟩], 0⟩,
  ⟨"FAB_TIME_LO", 0x240020, [], [⟨31, 0, .ro, .hw⟩], 0⟩,
  ⟨"FAB_TIME_HI", 0x240024, [], [⟨31, 0, .ro, .hw⟩], 0⟩,
  ⟨"FAB_RELAY_HEAD", 0x240030, [], [⟨31, 0, .rw, .m⟩], 0⟩,
  ⟨"FAB_RELAY_TAIL", 0x240034, [], [⟨31, 0, .ro, .hw⟩], 0⟩,
  ⟨"FAB_CRC_COUNT", 0x240040, [(4, 0x10)], [⟨31, 0, .rc, .hw⟩], 0⟩,
  ⟨"FAB_REPLAY_COUNT", 0x240044, [(4, 0x10)], [⟨31, 0, .rc, .hw⟩], 0⟩,
  ⟨"FAB_STALE_COUNT", 0x240048, [(4, 0x10)], [⟨31, 0, .rc, .hw⟩], 0⟩]

/-- The registers of block PMU. -/
def regTablePMU : List RegSpec := [
  ⟨"PMU_CNT_CFG", 0x400100, [(64, 0x10)], [⟨31, 31, .ro, .hw⟩, ⟨30, 30, .ro, .hw⟩, ⟨29, 29, .ro, .hw⟩, ⟨22, 16, .ro, .hw⟩, ⟨15, 0, .ro, .hw⟩], 0⟩,
  ⟨"PMU_CNT_LO", 0x400104, [(64, 0x10)], [⟨31, 0, .ro, .hw⟩], 0⟩,
  ⟨"PMU_CNT_HI", 0x400108, [(64, 0x10)], [⟨31, 0, .ro, .hw⟩], 0⟩,
  ⟨"PMU_FIX_LO", 0x400800, [(8, 0x8)], [⟨31, 0, .ro, .hw⟩], 0⟩,
  ⟨"PMU_FIX_HI", 0x400804, [(8, 0x8)], [⟨31, 0, .ro, .hw⟩], 0⟩,
  ⟨"PMU_SECURE", 0x400000, [], [⟨0, 0, .rw, .s⟩], 0⟩]

/-- The registers of block counter pages. -/
def regTablePP : List RegSpec := [
  ⟨"PMU_DUMP_HEAD", 0x5000800, [(66, 0x1000)], [⟨31, 0, .rw, .im⟩], 0⟩,
  ⟨"PMU_DUMP_TAIL", 0x5000804, [(66, 0x1000)], [⟨31, 0, .ro, .hw⟩], 0⟩,
  ⟨"PMU_SAMPLE_HEAD", 0x5000808, [(66, 0x1000)], [⟨31, 0, .rw, .im⟩], 0⟩,
  ⟨"PMU_SAMPLE_TAIL", 0x500080C, [(66, 0x1000)], [⟨31, 0, .ro, .hw⟩], 0⟩,
  ⟨"PMU_DUMP_LOST", 0x5000810, [(66, 0x1000)], [⟨31, 0, .rc, .hw⟩], 0⟩,
  ⟨"PMU_SAMPLE_LOST", 0x5000814, [(66, 0x1000)], [⟨31, 0, .rc, .hw⟩], 0⟩]

/-- The registers of block DBG. -/
def regTableDBG : List RegSpec := [
  ⟨"DBG_CROWN_STATUS", 0x440000, [], [⟨31, 30, .ro, .hw⟩, ⟨29, 28, .ro, .hw⟩, ⟨27, 26, .ro, .hw⟩, ⟨7, 0, .ro, .hw⟩], 0⟩,
  ⟨"DBG_MEM_HANDLE", 0x440010, [], [⟨31, 0, .rw, .crown⟩], 0⟩,
  ⟨"DBG_MEM_BASE_LO", 0x440014, [], [⟨31, 0, .rw, .crown⟩], 0⟩,
  ⟨"DBG_MEM_BASE_HI", 0x440018, [], [⟨31, 0, .rw, .crown⟩], 0⟩,
  ⟨"DBG_CORE_CTRL", 0x440100, [(4, 0x10)], [⟨31, 31, .w1s, .crown⟩, ⟨30, 30, .w1s, .crown⟩, ⟨29, 29, .w1s, .crown⟩, ⟨28, 28, .ro, .hw⟩, ⟨27, 27, .ro, .hw⟩, ⟨3, 0, .ro, .hw⟩], 0⟩,
  ⟨"DBG_BP_ADDR_LO", 0x440200, [(4, 0x10)], [⟨31, 0, .rw, .crown⟩], 0⟩,
  ⟨"DBG_BP_ADDR_HI", 0x440204, [(4, 0x10)], [⟨31, 0, .rw, .crown⟩], 0⟩,
  ⟨"DBG_BP_CTRL", 0x440208, [(4, 0x10)], [⟨31, 0, .rw, .crown⟩], 0⟩,
  ⟨"DBG_SBP_KEY_LO", 0x440300, [(8, 0x10)], [⟨31, 0, .rw, .crown⟩], 0⟩,
  ⟨"DBG_SBP_KEY_HI", 0x440304, [(8, 0x10)], [⟨31, 0, .rw, .crown⟩], 0⟩,
  ⟨"DBG_SBP_OFFSET", 0x440308, [(8, 0x10)], [⟨31, 0, .rw, .crown⟩], 0⟩,
  ⟨"DBG_WAVE_SEL", 0x440400, [], [⟨31, 0, .rw, .crown⟩], 0⟩,
  ⟨"DBG_WAVE_VALUE", 0x440404, [], [⟨31, 0, .ro, .hw⟩], 0⟩,
  ⟨"DBG_VOTE", 0x440500, [], [⟨31, 0, .rw, .crown⟩], 0⟩,
  ⟨"DBG_STRG_CTRL", 0x440504, [], [⟨31, 0, .rw, .crown⟩], 0⟩]

/-- Every register of the spec. -/
def regTable : List RegSpec :=
  regTableHOST ++ regTableRS ++ regTableDB ++ regTableCLRK ++ regTableCAP ++ regTableINST ++ regTableREGR ++ regTableMEM ++ regTableESC ++ regTableRND ++
  regTableTEX ++ regTableBND ++ regTableLP ++ regTableOUT ++ regTableCOLL ++ regTableSTRG ++ regTableTCH ++ regTableTP ++ regTableHAP ++ regTableAUD ++ regTablePCU ++ regTableLEDG ++
  regTableFAB ++ regTablePMU ++ regTablePP ++ regTableDBG

/-- The registers whose reset value is not zero (Reset columns). -/
def nonZeroResets : List (RegSpec × Nat) := [
  (⟨"HOST_LINK_STATUS", 0x10100, [(2, 0x40)], [], 0⟩, 0x20000),
  (⟨"CLRK_CQ_CTRL", 0x38038, [(66, 0x100)], [], 0⟩, 0x10000),
  (⟨"CLRK_VECMAP", 0x38048, [(66, 0x100), (3, 0x4)], [], 0⟩, 0x4210842),
  (⟨"INST_POOL_FREE_UNITS", 0x20014, [], [], 0⟩, 0x10210100),
  (⟨"INST_POOL_FREE_UNITS2", 0x20018, [], [], 0⟩, 0x20201000),
  (⟨"INST_POOL_FREE_MASKS", 0x2001C, [], [], 0⟩, 0xFFFF),
  (⟨"INST_MGR_CTRL", 0x20000, [], [], 0⟩, 0x10000),
  (⟨"REGR_CTRL", 0x40000, [], [], 0⟩, 0x20301005),
  (⟨"REGR_CARREL_THRESH", 0x40004, [], [], 0⟩, 0x8),
  (⟨"MEM_CTRL", 0x1C0000, [], [], 0⟩, 0x10000014),
  (⟨"MEM_STATUS", 0x1C0004, [], [], 0⟩, 0x1F0000),
  (⟨"MEM_TOL_MIN", 0x1C000C, [], [], 0⟩, 0xFFFF),
  (⟨"MEM_RETRAIN_CTRL", 0x1C0010, [], [], 0⟩, 0x80140A0A),
  (⟨"MEM_SCRUB_CTRL", 0x1C0014, [], [], 0⟩, 0x80000018),
  (⟨"MEM_FOLIO_INJECT", 0x1C0020, [], [], 0⟩, 0x8000000),
  (⟨"ESC_CTRL", 0x200000, [], [], 0⟩, 0x86200400),
  (⟨"ESC_HOLD_CTRL", 0x200004, [], [], 0⟩, 0x200),
  (⟨"RND_ARENA_SIZE", 0x80000, [], [], 0⟩, 0x1000),
  (⟨"RND_ARENA_FREE", 0x80004, [], [], 0⟩, 0x1000),
  (⟨"RND_ARENA_LIMITS", 0x80008, [], [], 0⟩, 0x400020),
  (⟨"RND_CODE_STATUS", 0x8000C, [], [], 0⟩, 0x400000),
  (⟨"RND_WATCHDOG", 0x80010, [], [], 0⟩, 0x3E80064),
  (⟨"TEX_CTRL", 0xC0000, [], [], 0⟩, 0x80000010),
  (⟨"TEX_RAY_CTRL", 0xC0004, [], [], 0⟩, 0x1000),
  (⟨"BND_STATUS", 0x100004, [(8, 0x100)], [], 0⟩, 0x20000000),
  (⟨"BND_MOTION_BUS", 0x101004, [], [], 0⟩, 0x1F40),
  (⟨"OUT_CTRL", 0x140000, [(8, 0x4000)], [], 0⟩, 0x1),
  (⟨"OUT_TOL", 0x140058, [(8, 0x4000)], [], 0⟩, 0xFFFF),
  (⟨"OUT_TE", 0x140060, [(8, 0x4000)], [], 0⟩, 0x80000001),
  (⟨"OUT_HPD", 0x140064, [(8, 0x4000)], [], 0⟩, 0x64),
  (⟨"CVU_CFG", 0x181000, [(32, 0x40)], [], 0⟩, 0x10000),
  (⟨"CVU_VALUE", 0x181010, [(32, 0x40)], [], 0⟩, 0xFFFFFFFF),
  (⟨"GPC_STATUS", 0x18800C, [(8, 0x40)], [], 0⟩, 0xE0000000),
  (⟨"STRG_WAYPART", 0x280014, [], [], 0⟩, 0x402),
  (⟨"HAP_BOOST_CTRL", 0x301000, [], [], 0⟩, 0x6E),
  (⟨"HAP_SENSOR_BUS", 0x301008, [], [], 0⟩, 0x2710),
  (⟨"AUD_EP_STATUS", 0x341000, [(64, 0x10)], [], 0⟩, 0xFF),
  (⟨"PCU_STATE", 0x380000, [], [], 0⟩, 0x40000000),
  (⟨"PCU_DOMAIN_UP", 0x380004, [], [], 0⟩, 0x400001),
  (⟨"LEDG_SAG_CTRL", 0x3C0004, [], [], 0⟩, 0x122),
  (⟨"FAB_CTRL", 0x240000, [], [], 0⟩, 0xE000000F),
  (⟨"HOST_ERR_CTRL", 0x13000, [], [], 0⟩, 0x1F)]

/-- The address of an unbound function's ring set or doorbell page, moved to function 0's, so that the table's
first entry describes it. -/
def canonAddr (a : Nat) : Nat :=
  if 0x2000000 ≤ a ∧ a < 0x2800000 then 0x38000 + a % 0x100
  else if 0x2800000 ≤ a ∧ a < 0x3000000 then 0x800000 + a % 0x1000
  else a

/-- The indices of offset `o` in an array with these (count, stride) pairs, if it is the start of an element. -/
def indexOf : List (Nat × Nat) → Nat → Option (List Nat)
  | [], o => if o = 0 then some [] else none
  | (n, st) :: r, o =>
    match indexOf r (o % st) with
    | some is => if o / st < n then some (o / st :: is) else none
    | none => none

/-- The indices of address `a` in register `r`. -/
def RegSpec.index (r : RegSpec) (a : Nat) : Option (List Nat) :=
  if r.base ≤ a then indexOf r.dims (a - r.base) else none

/-- The register at address `a`. -/
def regAt (a : Nat) : Option RegSpec := regTable.find? (fun r => (r.index (canonAddr a)).isSome)

/-- The fields of the register at `a`; an unassigned offset has none (R17). -/
def fieldsAt (a : Nat) : List FieldSpec :=
  match regAt a with
  | some r => r.fields
  | none => []

/-- The value of the register at `a` right after reset. -/
def resetValue (a : Nat) : Word :=
  match nonZeroResets.find? (fun p => (p.1.index (canonAddr a)).isSome) with
  | some p => BitVec.ofNat 32 p.2
  | none => 0

end Sys2Proof.Machine
end

