-- ==== Sys2Proof/Syntax.lean ====
section
/-! DEFINITION. The commands of the block: one constructor of `Instr` for each row of spec/opcode_table.json, and the
plain data their operands are made of. A packet command carries the packet the Clerk executes; an event carries what
the world outside the device supplies (a measured value, a line's level, host memory the device reads). -/

namespace Sys2Proof

/-- Status codes (Table 0.6, R18). -/
inductive Status where
  | ok | badOpcode | badLength | outOfRange | notPermitted | noResource | busy | timedOut | aborted | frozen
  | dependencyFailed | staleGeneration | integrityFail | brokenLock | wakeFailed | linkDown | versionMismatch | faulted
  deriving DecidableEq, Repr

/-- A command packet (Table 2.16) as the Clerk holds it: the function that sent it (R55), the ring it came from, the
fields of bytes 2 to 15, and the 48 bytes from offset 16 on. The opcode is the command itself. -/
structure Pkt where
  fn : Nat
  ring : Nat
  flags : Byte
  plen : Nat
  seq : Nat
  timeout : Nat
  rsv : Nat
  params : List Byte
  deriving DecidableEq, Repr

/-- An entry of a completion ring (R56): a status reply (Table 2.18) or an event notice (Table 2.19). -/
inductive CqEntry where
  | reply (seq : Nat) (status : Status) (detail time result0 result1 : Nat)
  | notice (count code detail time data0 data1 : Nat)
  deriving DecidableEq, Repr

/-- A grant record (Table 3.6), in table order. -/
structure Grant where
  mem : Nat := 0
  shelf : Nat := 0
  shader : Nat := 0
  touch : Nat := 0
  layers : Nat := 0
  scalers : Nat := 0
  audio : Nat := 0
  counters : Nat := 0
  outOwn : Nat := 0
  outLayer : Nat := 0
  hap : Nat := 0
  deriving DecidableEq, Repr

/-- The architected part of a Shelfmark entry (Table 4.2), with the resident tiles of a sparse object (R239). -/
structure ObjDesc where
  handle : Nat
  usage : Nat
  cls : Nat
  attr : Nat
  size : Nat
  dva : Nat
  deadline : Nat
  period : Nat
  sparse : Option (List Nat)
  deriving DecidableEq, Repr

/-- A packet withdrawn by a freeze, with its opcode and copied parameter block (R100, section 0x0003). -/
structure Item where
  op : Nat
  pk : Pkt
  block : List Byte
  deriving DecidableEq, Repr

end Sys2Proof

namespace Sys2Proof.Machine

/-- The settings of a layer (Table 9.2, R255); DEPTH, LOW_WM and CRIT_WM with their defaults resolved, the coefficients of
a custom set as copied at validation. -/
structure LayerSet where
  output : Nat
  enable : Bool
  warp : Bool
  cls : Nat
  format : Nat
  blend : Nat
  degamma : Nat
  filter : Nat
  alpha : Nat
  z : Nat
  late : Nat
  surfW : Nat
  surfH : Nat
  srcX : Nat
  srcY : Nat
  srcW : Nat
  srcH : Nat
  dstX : Int
  dstY : Int
  dstW : Nat
  dstH : Nat
  depth : Nat
  lowWm : Nat
  critWm : Nat
  expect : Nat
  subColor : Nat
  coef : List Int
  warpBand : Nat
  warpMargin : Nat
  fx : Nat
  fy : Nat
  cx : Nat
  cy : Nat
  deriving DecidableEq, Repr

/-- A pose: its time and its quaternion W, X, Y, Z as signed 16-bit values (Table 9.5). -/
structure Pose where
  time : Nat
  w : Int
  x : Int
  y : Int
  z : Int
  deriving DecidableEq, Repr

/-- The timing of an output (Table 10.2). -/
structure Timing where
  mode : Nat := 0
  flags : Nat := 0
  bpc : Nat := 8
  hactive : Nat := 0
  hfp : Nat := 0
  hsync : Nat := 0
  hbp : Nat := 0
  vactive : Nat := 0
  vfp : Nat := 0
  vsync : Nat := 0
  vbp : Nat := 0
  pclk : Nat := 0
  rate : Nat := 0
  lanes : Nat := 0
  slices : Nat := 0
  bpp16 : Nat := 0
  sliceH : Nat := 0
  deriving DecidableEq, Repr

/-- The settings of a verification window (Table 11.5). -/
structure WinCfg where
  mode : Nat
  alg : Nat
  policy : Nat
  thresh : Nat
  lateLimit : Nat
  supplier : Nat
  layer : Nat
  x : Nat
  y : Nat
  w : Nat
  h : Nat
  deriving DecidableEq, Repr

/-- A key of an expectation table with its four values (R333). -/
structure Expect where
  key : Nat
  vals : List (Option Nat)
  deriving DecidableEq, Repr

/-- The settings of an enabled region (Table 13.4). -/
structure RegionCfg where
  ctl : Nat
  flags : Nat
  vector : Nat
  x0 : Nat
  y0 : Nat
  x1 : Nat
  y1 : Nat
  stuck : Nat
  ring : Nat
  depth : Nat
  hapCh : Nat
  effect : Nat
  deriving DecidableEq, Repr

/-- The settings of an endpoint (Table 15.4); owner 127 is the Strongroom. -/
structure AudEpCfg where
  owner : Nat
  dir : Nat
  kind : Nat
  port : Nat
  first : Nat
  channels : Nat
  rate : Nat
  format : Nat
  logPeriod : Nat
  logDepth : Nat
  vector : Nat
  bus : Nat
  limit : Int
  release : Nat
  access : Nat
  deriving DecidableEq, Repr

/-- The settings of a node (Table 15.5). -/
structure AudNodeCfg where
  flags : Nat
  channels : Nat
  trim : Int
  rampMs : Nat
  delayObj : Nat
  delaySamples : Nat
  compThresh : Int
  compRatio : Nat
  compAttack : Nat
  compRelease : Nat
  compMakeup : Int
  duckKey : Nat
  duckDepth : Nat
  duckThresh : Int
  duckAttack : Nat
  duckRelease : Nat
  eq : List Int
  deriving DecidableEq, Repr

/-- What a general counter counts beside its CFG register (Table 20.4): units, classes, world, instance (0xFF: any), object (0: any) with its range, and
the sample period. -/
structure PmuCnt where
  units : Nat := 0
  classes : Nat := 15
  world : Nat := 0
  inst : Nat := 0
  handle : Nat := 0
  lo : Nat := 0
  hi : Nat := 0
  period : Nat := 0
  deriving DecidableEq, Repr

/-- Periodic dumps of a holder (Table 20.6): period, ring object, counters in the holder's numbering, depth, periods since the dump was set, whether a
record was lost since the last one written. -/
structure PmuDump where
  periodUs : Nat
  handle : Nat
  mask : Nat
  depth : Nat
  seq : Nat
  lost : Bool
  deriving DecidableEq, Repr

end Sys2Proof.Machine

namespace Sys2Proof

open Sys2Proof.Machine

/-- A layer in a state image: its number, settings, latched buffer with its pose stamp, de-gamma table. -/
structure SavedLayer where
  number : Nat
  set : LayerSet
  buf : Option (Nat × Option Pose)
  lut : List Nat
  deriving DecidableEq, Repr

/-- An owned output in a state image: its number, timing, ADVANCE, background, re-gamma mode and table. -/
structure SavedOutput where
  number : Nat
  timing : Timing
  advance : Nat
  bg : Nat
  mode : Nat
  table : List Nat
  deriving DecidableEq, Repr

/-- A verification window of an owned output in a state image: its place (16 × output + window), settings and table. -/
structure SavedWindow where
  place : Nat
  cfg : WinCfg
  table : List Expect
  deriving DecidableEq, Repr

/-- The audio of an instance in a state image: nodes by number, routes by key (origin, map, gain, ramp time), endpoints by number. -/
structure SavedAudio where
  nodes : List (Nat × AudNodeCfg) := []
  routes : List (Nat × Nat × List Nat × Int × Nat) := []
  eps : List (Nat × AudEpCfg) := []
  deriving DecidableEq, Repr

/-- A touch region in a state image: its number, settings, HEAD and TAIL of its ring, reports generated, whether the next carries DROPPED. -/
structure SavedRegion where
  number : Nat
  cfg : RegionCfg
  head : Nat
  tail : Nat
  seq : Nat
  dropped : Bool
  deriving DecidableEq, Repr

/-- A haptic channel in a state image: its number, HAP_CFG, HAP_SCALE, HAP_CAL, HAP_GAIN, whether it is calibrated, its gains and slots. -/
structure SavedHaptic where
  number : Nat
  cfg : Nat
  scale : Nat
  cal : Nat
  gain : Nat
  calibrated : Bool
  gains : List Nat
  slots : List (Nat × List Byte)
  deriving DecidableEq, Repr

/-- A general counter in a state image, in the holder's numbering: its CFG register, value and settings. -/
structure SavedCounter where
  number : Nat
  cfg : Nat
  value : Nat
  settings : PmuCnt
  deriving DecidableEq, Repr

/-- What the sections 0x0010 to 0x0016 of a state image carry (Table 3.25); `positions` are the counts of the dump and sample rings. Their layout is not in the spec; the model holds their contents. -/
structure Chapters where
  layers : List SavedLayer := []
  outputs : List SavedOutput := []
  units : List (List Nat) := []
  windows : List SavedWindow := []
  audio : SavedAudio := {}
  regions : List SavedRegion := []
  haptics : List SavedHaptic := []
  counters : List SavedCounter := []
  dump : Option PmuDump := none
  ring : Option (Nat × Nat) := none
  positions : List Nat := []
  deriving DecidableEq, Repr

/-- An instance's state image (R103, R104, Tables 3.24 and 3.25): its header, the sections the instance chapter lays out, and what the others carry; the
bytes of the sections of one that is encrypted are under the key of its slot; an object's data are held as those of its bytes
that are not zero, with their offsets. What the verification of its digest or tag finds is the environment's. -/
structure Image where
  magic : Nat
  fmtMajor : Nat
  fmtMinor : Nat
  sectionVersions : List Nat
  length : Nat
  sourceUid : Nat
  sourcePart : Nat
  sourceRev : Nat
  damath : Nat
  digestOk : Bool
  encrypted : Bool
  keySlot : Nat
  instance_ : Nat
  shelfBase : Nat
  instFlags : Nat
  saveTime : Nat
  saveSeq : Nat
  nonce : Nat
  grant : Grant
  use : Grant
  ringSet : List (Nat × Word)
  tails : List Word
  pendingItems : List Item
  notices : List CqEntry
  objects : List (ObjDesc × Option (Nat × Nat))
  data : List (Nat × List (Nat × Byte))
  chapters : Chapters
  deriving DecidableEq, Repr

/-- A request to a target of Escapement (R182): its port, for a layer fetch the slot of its pipe, the instance it works for (0: the manager, 0xFF:
none) and the SEQ of its pass or dispatch, issued urgency and class tag, the object index and beat it addresses (an index above the Shelfmark Table: storage of no object), and for a write the 32 bytes, which of them it writes, and the poison mark. -/
structure EscReq where
  port : Nat
  slot : Nat
  inst : Nat
  seq : Nat
  urg : Nat
  cls : Nat
  index : Nat
  beat : Nat
  write : Option (List Byte)
  mask : Nat
  poison : Bool
  deriving DecidableEq, Repr

/-- A telltale's sprite record (Table 12.8). -/
structure Sprite where
  x : Nat
  y : Nat
  variants : List Nat
  blink : Nat
  controller : Nat
  failState : Nat
  refreshMs : Nat
  deriving DecidableEq, Repr

/-- A chime pattern of the binding table (R364, R365): its priority and the functions that control it. -/
structure Chime where
  priority : Nat
  controllers : List Nat
  deriving DecidableEq, Repr

/-- A secure sink of the binding table (R420, R432): its port, first slot and channels, LIMIT in 1/64 dB, RELEASE_MS, ACCESS. -/
structure BoundSink where
  port : Nat
  first : Nat
  channels : Nat
  limit : Int
  release : Nat
  access : Nat
  deriving DecidableEq, Repr

/-- The binding table (R348), whose layout in the boot image the spec does not give: sprites by telltale, assets by
number, masks of outputs with C0 and of those that may change timing, masks of units bound to the secure world and of units
that may be handed over, banks held for C0 content, chimes by pattern, the chime sink (a TDM port, or 8 + output for a DP
stream), secure sinks by endpoint number, CHIME_DUCK, responses of each output, C0_THRESH, the chimes of the responses and of the safe state, the Clerk way partition,
boot timings by output as OUT_SET_TIMING parameters (R565). -/
structure Binding where
  sprites : List (Nat × Sprite) := []
  assets : List (Nat × List Byte) := []
  c0Outputs : Nat := 0
  mayChange : Nat := 0
  boundTch : Nat := 0
  boundHap : Nat := 0
  boundTdm : Nat := 0
  boundCvu : Nat := 0
  transTch : Nat := 0
  transHap : Nat := 0
  transTdm : Nat := 0
  transCvu : Nat := 0
  banks : Nat := 0
  chimes : List (Nat × Chime) := []
  chimeSink : Option Nat := none
  sinks : List (Nat × BoundSink) := []
  chimeDuck : Nat := 0
  c0Response : List Nat := []
  escResponse : List Nat := []
  c0Thresh : Nat := 3
  c0Chime : Nat := 0
  escChime : Nat := 0
  safeChime : Nat := 0
  l1Ways : Nat := 2
  l2Ways : Nat := 4
  timings : List (Nat × List Byte) := []
  deriving DecidableEq, Repr

/-- A slot image as the checks of R559 and R560 find it: SLOT_SEQ and the rollback values of its directory; which checks fail (bit 0 the signature or
the layout, bit 1 the Strongroom firmware's digest, bit 2 a later entry's, bit 3 the binding table's digest or its rules (R357, R432), bit 4 PART or
FMT); versions; whether it carries a debug key; and the entries the model uses: binding table, data rate (R145), boot settings (regions as number, ORDER,
Folio, base and size in MiB; move pool in granules and arena and code store in MiB, 0 for the default; votes of voter 67). -/
structure FwSlot where
  seq : Nat
  strgRollback : Nat
  damathRollback : Nat
  bad : Nat
  strgVersion : Nat
  damathVersion : Nat
  touchVersion : Nat
  hapticVersion : Nat
  debugKey : Bool
  binding : Binding
  rate : Nat
  regions : List (Nat × Nat × Bool × Nat × Nat)
  movePool : Nat
  arenaMib : Nat
  codeMib : Nat
  votes67 : Nat
  deriving DecidableEq, Repr

/-- What a loop period of a haptic channel measures (R398 to R412): the residual acceleration in mg and the phase of the residual motion in
1/16,000 cycle; the capacitance the charge drawn since the start of drive shows; a current-limit trip; whether the drive needed more than
it may, whether it stood at VMAX, whether the response was below a quarter of its target; whether an accelerometer sample came in time; the
full cycles of drive above 10 % of VMAX that ended. -/
structure HapMeas where
  residual : Nat
  angle : Nat
  capNf : Nat
  trip : Bool
  limited : Bool
  atVmax : Bool
  weak : Bool
  sample : Bool
  cycles : Nat
  deriving DecidableEq, Repr


/-- What a sweep measures of a byte lane (R156, R159): width in taps, height in Vref steps, and the midpoint of the eye as delay and Vref code. -/
structure Eye where
  width : Nat
  height : Nat
  delay : Nat
  vref : Nat
  deriving DecidableEq, Repr

/-- A block that a resolve writes (R216, R232): its target record (0 to 8), or 16 and the record for its RESOLVE; its place; whether no fragment
touched it; the channels of its 64 pixels, row by row, sample by sample. -/
structure BlockOut where
  target : Nat
  bx : Nat
  y : Nat
  cleared : Bool
  px : List (List Nat)
  deriving DecidableEq, Repr

/-- A node a ray query reaches (R242 to R244): the object's handle, the LEVEL its tree must have, the reference followed (0: the header), the box
levels within the tree, the visits of the query so far. -/
structure BvhVisit where
  handle : Nat
  level : Nat
  ref : Nat
  depth : Nat
  visits : Nat
  deriving DecidableEq, Repr

/-- What the texture and traversal units met while a pass or dispatch ran: texel accesses of tiles that were not resident (object, tile), invalid
blocks read (object, offset of the metadata byte), nodes reached, ray queries completed. -/
structure UnitsSaw where
  misses : List (Nat × Nat)
  badBlocks : List (Nat × Nat)
  nodes : List BvhVisit
  queries : Nat
  deriving DecidableEq, Repr

/-- A discovery flit (R494): the identifier of the device it tells of, the peer on each of its links (0: none), whether it claims the fabric
manager's role, whether a host link is up, its sequence number. -/
structure Disc where
  uid : Nat
  peers : List Nat
  claims : Bool
  hostUp : Bool
  seq : Nat
  deriving DecidableEq, Repr

/-- An object flit (R490, R491): its header fields, for a request the beats it asks for, its beats as 35-byte codewords, the POISON bits, whether its
CRC and TYPE are right. -/
structure Flit where
  typ : Nat
  urg : Nat
  cls : Nat
  fgen : Nat
  dest : Nat
  src : Nat
  handle : Nat
  beat : Nat
  want : Nat
  copyGen : Nat
  tag : Nat
  beats : List (List Byte)
  poison : Nat
  crcOk : Bool
  deriving DecidableEq, Repr

/-- A request of the Crown port (R547): COUNT, ADDR, data words, whether its CRC is right, whether its result is not ready within 1,024 clocks, and for
a register write the mask of the Clerk cores that run in the secure partition. -/
structure CrownFrame where
  count : Nat
  addr : Nat
  words : List Nat
  crcOk : Bool
  late : Bool
  secure : Nat
  deriving DecidableEq, Repr

/-- One command of spec/opcode_table.json for each constructor; what the hosts, pins, panels, engines and timers
supply stands in the operands. Commands with operands come first, in the table's order, then those without. -/
inductive Instr where
  /-- POWER_ON_RESET (R439): Power-on reset of the AO domain (cold boot) starts the RC oscillator, samples
      PWR_AUTO and starts the save-capacitor charge pump. -/
  | powerOnReset (pwrAuto : Bool)
  /-- VSAVE_ARMED (R467): VSAVE reaches 4.6 V, the save is armed, and the capacitance estimate is stored. -/
  | vsaveArmed (chargeUs : Option Nat)
  /-- SAG_DETECTED (R470): VDDAO stays below THRESH for 5 µs; when armed the AO domain switches to VSAVE,
      PWR_FAIL_N is asserted and the save set is written. -/
  | sagDetected (durationUs mv mvAfter : Nat)
  /-- PERST_ASSERT (R42): Assertion of PERST# on a port resets that port's link and functions and breaks their
      slips, and on the manager's port may request a recovery reset. -/
  | perstAssert (port : Nat)
  /-- PERST_RELEASE (R440): Release of PERST# on HP0 or HP1 is a wake command in DORMANT or HAIRSPRING and lets
      the link train. -/
  | perstRelease (port : Nat)
  /-- FUNCTION_LEVEL_RESET (R89): A Function Level Reset of a virtual function resets its PCI Express state and
      the bound instance as Table 3.8 states. -/
  | functionLevelReset (port vf : Nat)
  /-- HOST_LINK_DOWN (R602): A host port link goes down, so fetching from its functions stops and their replies
      and notices are held. -/
  | hostLinkDown (port : Nat)
  /-- HOST_LINK_UP (R602): A host port link comes up, so held replies and notices are written and fetching resumes
      from HEAD. -/
  | hostLinkUp (port speed width : Nat)
  /-- MANAGER_LOSS (R98): The manager's link has been down for 100 ms, or the heartbeat period expires, so LOSS
      rises and EV_INST_MGR_LOST is posted to the standby. -/
  | managerLoss (byLink : Bool)
  /-- MGR_BEAT (R98): A write of 1 to INST_MGR_CTRL.BEAT restarts the heartbeat period. -/
  | mgrBeat (writer : Nat)
  /-- MGR_HANDOVER (R98): A write of 1 to INST_MGR_CTRL.HANDOVER declares the manager lost at once. -/
  | mgrHandover (writer : Nat)
  /-- MGR_HB_PERIOD_WRITE (R98): A write that changes HB_PERIOD sets the heartbeat period and restarts it. -/
  | mgrHbPeriodWrite (writer period : Nat)
  /-- REGISTER_WRITE (R14): A register write with no row of its own is checked against access codes, writers and
      ranges, and takes effect whole or is discarded and counted. -/
  | registerWrite (writer addr size value : Nat)
  /-- RC_REGISTER_READ (R13): A read of an RC register returns its value and clears it, and on the MSD updates its
      _SNAP companion. -/
  | rcRegisterRead (reader addr : Nat) (resent : Bool)
  /-- D2D_LINK_RETRAIN (R23): A die-to-die transfer needs more than 16 resends, so a D2D_LINK record is written
      and the link retrains while MSD accesses stall. -/
  | d2dLinkRetrain (resends offset : Nat) (failedTwice : Bool)
  /-- LOW_WORD_READ_LATCH (R16): A read of the low word of a 64-bit quantity latches its high word. -/
  | lowWordReadLatch (reader addr : Nat)
  /-- SQ_ENABLE (R48): Setting EN of a submission ring latches BASE and LOG2_DEPTH and zeroes its head, tail and
      stored doorbell, or sets CFG_ERR. -/
  | sqEnable (writer fn ring value : Nat)
  /-- SQ_DISABLE (R49): Clearing EN of a submission ring stops fetching at the next packet boundary and drops
      unfetched packets. -/
  | sqDisable (writer fn ring : Nat)
  /-- CQ_ENABLE (R48): Setting EN of the completion ring latches its settings and writes held replies and notices
      first. -/
  | cqEnable (writer fn value : Nat)
  /-- CQ_DISABLE (R49): Clearing EN of the completion ring pauses fetching and holds replies and notices. -/
  | cqDisable (writer fn : Nat)
  /-- DOORBELL_SQ (R50): A write to CLRK_DB_SQp is accepted as the new producer count or refused with DB_ERR and
      EV_CLRK_DOORBELL_BAD. -/
  | doorbellSq (writer fn ring value : Nat)
  /-- DOORBELL_CQ (R50): A write to CLRK_DB_CQ is accepted as the new consumer count, freeing completion slots, or
      refused. -/
  | doorbellCq (writer fn value : Nat)
  /-- DOORBELL_MBOX (R96): A write of 1 to CLRK_DB_MBOX sets the matching FULL bit and signals vector 1 of the
      receiver, or sets ERR while FULL. -/
  | doorbellMbox (writer fn : Nat)
  /-- MBOX_FULL_CLEAR (R96): The receiver clears a mailbox FULL bit and EV_INST_MBOX_TAKEN is posted to the
      sender. -/
  | mboxFullClear (writer fn : Nat)
  /-- CLRK_FETCH_PACKET (R63): A Clerk core fetches a packet by ring priority and round-robin order once a
      completion slot can be reserved. -/
  | clrkFetchPacket (slot : List Byte)
  /-- COMMAND_TIMEOUT (R66): A command's timeout expires before commit and it completes with TIMED_OUT. -/
  | commandTimeout (pk : Pkt)
  /-- COALESCE_TIMEOUT (R67): COAL_TIME passes after the first unsignalled reply, so its MSI-X vector 0 message is
      sent. -/
  | coalesceTimeout (fn : Nat)
  /-- SYS_NOP (R68): Completes with OK once validated. -/
  | sysNop (pk : Pkt)
  /-- SYS_GET_CAPS (R70): Copies a consistent snapshot of the sender's capability view into an object. -/
  | sysGetCaps (pk : Pkt)
  /-- SYS_FENCE (R69): Completes once every packet the function fetched earlier has completed. -/
  | sysFence (pk : Pkt)
  /-- SYS_SLIP_ACQUIRE (R72): Acquires a lending slip, returns BUSY, or waits in first-come order. -/
  | sysSlipAcquire (pk : Pkt)
  /-- SYS_SLIP_RELEASE (R73): The owner releases a slip, handing it to the first waiter or making it FREE. -/
  | sysSlipRelease (pk : Pkt)
  /-- SYS_SLIP_CLEAR (R73): The owner clears the BROKEN mark of a held slip. -/
  | sysSlipClear (pk : Pkt)
  /-- SYS_SLIP_GRANT (R74): The manager sets the mask of instances permitted to use a slip. -/
  | sysSlipGrant (pk : Pkt)
  /-- SYS_SLIP_QUERY (R75): Returns a slip's state word. -/
  | sysSlipQuery (pk : Pkt)
  /-- INST_CREATE (R86): Binds a virtual function, reserves a grant, resets its ring set and publishes the
      instance's view. -/
  | instCreate (pk : Pkt)
  /-- INST_RESIZE (R91): Sets a new grant, posts EV_INST_RECLAIM for use above lowered limits and starts the grace
      period. -/
  | instResize (pk : Pkt)
  /-- RESIZE_GRACE_END (R92): The grace period ends and the device reclaims by force whatever is still over the
      limits, then replies. -/
  | resizeGraceEnd (inst : Nat)
  /-- INST_FREEZE (R100): Stops fetching, breaks slips, withdraws uncommitted packets as pending items and enters
      FREEZING. -/
  | instFreeze (pk : Pkt)
  /-- FREEZE_COMPLETE (R100): The last committed command of a FREEZING instance completes, so it enters FROZEN and
      INST_FREEZE replies. -/
  | freezeComplete (inst : Nat)
  /-- INST_SAVE (R102): Writes the frozen instance's state image to host memory. -/
  | instSave (pk : Pkt)
  /-- INST_RESTORE (R106): Reads, verifies and loads a state image into a frozen empty instance. -/
  | instRestore (pk : Pkt) (image : Image)
  /-- INST_THAW (R107): Sets the instance RUNNING, writes held notices and EV_INST_THAWED, and validates pending
      items again. -/
  | instThaw (pk : Pkt)
  /-- INST_DESTROY (R87): Enters DESTROYING, resets the ring set and returns the instance's resources. -/
  | instDestroy (pk : Pkt)
  /-- DESTROY_COMPLETE (R88): No engine references the instance any more, so it becomes ABSENT and INST_DESTROY
      replies. -/
  | destroyComplete (inst : Nat)
  /-- INST_TAKEOVER (R99): The standby becomes the manager: ROLE toggles, manager slips break and
      EV_INST_MGR_CHANGED is posted. -/
  | instTakeover (pk : Pkt)
  /-- SHM_ALLOC (R116): Allocates an object with a handle, a DVA range and quota. -/
  | shmAlloc (pk : Pkt)
  /-- SHM_FREE (R117): Frees an object, makes its handle stale and returns its quota. -/
  | shmFree (pk : Pkt)
  /-- STORAGE_DRAIN_COMPLETE (R117): No engine references a freed object any more, so its storage and DVA range
      return to the free pools. -/
  | storageDrainComplete (index : Nat)
  /-- SHM_HINT (R118): Changes an object's class, attributes, deadline or period. -/
  | shmHint (pk : Pkt)
  /-- SHM_UPLOAD (R119): Copies host memory into staged granules and flips them at commit. -/
  | shmUpload (pk : Pkt) (host : Option (List Byte))
  /-- SHM_DOWNLOAD (R119): Copies an object into host memory. -/
  | shmDownload (pk : Pkt) (busError : Bool)
  /-- SHM_QUERY (R120): Returns an object's size and where its granules lie. -/
  | shmQuery (pk : Pkt)
  /-- SHM_ALLOC_SPARSE (R239): Allocates a sparse object with no resident tiles. -/
  | shmAllocSparse (pk : Pkt)
  /-- SHM_SET_RESIDENCY (R240): Commits or releases tiles of a sparse object. -/
  | shmSetResidency (pk : Pkt)
  /-- MEM_SET_REGION (R153): Enables a DRAM region, or withdraws one after moving its granules out. -/
  | memSetRegion (pk : Pkt)
  /-- MEM_SET_RESERVE (R154): Sets the size of the move pool. -/
  | memSetReserve (pk : Pkt)
  /-- MEM_LOCK_BANK (R176): Locks a Carrel bank after moving its C2 and C3 granules out. -/
  | memLockBank (pk : Pkt)
  /-- MEM_UNLOCK_BANK (R176): Unlocks a Carrel bank unless STRG_HOLD is set. -/
  | memUnlockBank (pk : Pkt)
  /-- EPOCH_DECISIONS_PUBLISHED (R124): The policy run publishes moves, cluster allotments and Carrel ranking, and
      moves start up to the budget. -/
  | epochDecisionsPublished (moves : List (Nat × Nat × Nat)) (allot : List (Nat × Nat)) (shadows mirrors : List (Nat × Nat × Nat))
  /-- GRANULE_COPY_PASS_DONE (R126): A first or re-copy pass of a granule move completes, and another pass or the
      write hold follows. -/
  | granuleCopyPassDone (index gran : Nat)
  /-- GRANULE_FLIP (R126): The last dirty lines are copied, the location switches, the copy generation rises and
      the write hold is released. -/
  | granuleFlip (index gran : Nat)
  /-- MOVE_READ_DRAIN (R126): Reads issued before a flip have drained and the old storage returns to the reserve. -/
  | moveReadDrain (index gran : Nat)
  /-- MOVE_TIME_LIMIT (R128): Steps 2 and 3 of a move exceed 1 ms and the move is cancelled with reason 5. -/
  | moveTimeLimit (index gran : Nat)
  /-- XDEV_WAIT_EXPIRY (R139): A wait for a peer's action exceeds XDEV_WAIT_MS, so the command returns
      DEPENDENCY_FAILED. -/
  | xdevWaitExpiry (pk : Pkt)
  /-- REMOTE_SEGMENT_LOST (R138): A remote render segment's peer leaves or it does not return in time, so it is
      run again locally and EV_REGR_SPAN_LOST is posted. -/
  | remoteSegmentLost (pk : Pkt) (peer : Nat)
  /-- RND_COMPILE (R203): Compiles one program into the sender's cache or finds it there. -/
  | rndCompile (pk : Pkt)
  /-- RND_PASS (R211): Validates and commits a render pass, dispatching its first segment to binning. -/
  | rndPass (pk : Pkt)
  /-- PARTIAL_RENDER (R216): A segment refused a chunk ends by rendering, resolving and spilling its touched tiles
      and returning its chunks. -/
  | partialRender (pk : Pkt) (held : Nat) (blocks : List BlockOut)
  /-- PASS_COMPLETE (R211): The final segment's tiles are all resolved and visible, so RND_PASS replies and a
      deadline miss is reported. -/
  | passComplete (pk : Pkt) (blocks : List BlockOut) (saw : UnitsSaw)
  /-- RND_DISPATCH (R221): Validates and commits a compute dispatch whose workgroups are placed on clusters. -/
  | rndDispatch (pk : Pkt)
  /-- DISPATCH_COMPLETE (R221): Every workgroup has finished and its writes are visible, so the dispatch replies. -/
  | dispatchComplete (pk : Pkt) (saw : UnitsSaw)
  /-- RND_SET_ARENA (R215): Sets the bin arena, C1 reserve, per-segment limit and code store sizes. -/
  | rndSetArena (pk : Pkt)
  /-- TILE_WATCHDOG (R222): A tile or workgroup runs longer than LIMIT_MS, so it is stopped as a T1 fault. -/
  | tileWatchdog (pk : Pkt) (cluster : Nat)
  /-- CLUSTER_STALL_TIMEOUT (R224): Committed work has waited longer than STALL_MS with no cluster up and ends
      with FAULTED. -/
  | clusterStallTimeout (pk : Pkt)
  /-- BND_SET_LAYER (R258): Validates a layer setting, reserves its resources and commits it at a latch. -/
  | bndSetLayer (pk : Pkt)
  /-- BND_FLIP (R263): Names a buffer for a layer, to take effect after the latch at which it is ready. -/
  | bndFlip (pk : Pkt)
  /-- BND_SET_LUT (R270): Loads a de-gamma or re-gamma table or mode, effective at a latch. -/
  | bndSetLut (pk : Pkt)
  /-- BND_SET_POSE (R284): Supplies a host pose sample while SRC is 3. -/
  | bndSetPose (pk : Pkt)
  /-- MOTION_SAMPLE (R285): A rising edge of MOT_DRDY reads a pose sample from the sensor and records or discards
      it. -/
  | motionSample (q : Nat)
  /-- BND_COMPOSE_LINE (R277): A pipe composes a line once its FIFO has room, dropping layers that cannot supply
      it when the FIFO is low. -/
  | bndComposeLine (pipe : Nat) (fills : List (Nat × Nat))
  /-- OUT_SET_TIMING (R298): Validates and commits a timing change, which is then run by the sequenced steps of
      Table 10.6. -/
  | outSetTiming (pk : Pkt)
  /-- OUT_LINK_STOPPED (R298): The old frame's back porch ends and the link stops, with STATE CHANGING. -/
  | outLinkStopped (out : Nat)
  /-- OUT_PLL_LOCKED (R297): The pixel PLL locks at the new clock. -/
  | outPllLocked (out hz : Nat)
  /-- OUT_LINK_TRAINED (R300): Link training or DSI start ends, successfully or with EV_OUT_LINK_LOST. -/
  | outLinkTrained (out outcome outcomeOdd : Nat)
  /-- OUT_TIMING_STARTED (R298): The timing generator starts at the new latch line, STATE becomes RUNNING and the
      first latch takes place. -/
  | outTimingStarted (out : Nat)
  /-- OUT_AUX (R316): Runs one AUX, I2C or DSI sideband transaction. -/
  | outAux (pk : Pkt) (outcome r0 r1 : Nat)
  /-- OUT_TIMING_REG_WRITE (R303): A direct write to a timing register takes effect on the next pixel clock. -/
  | outTimingRegWrite (writer addr value : Nat)
  /-- OUT_ADVANCE_WRITE (R292): A write to OUTk_LATCH.ADVANCE moves the latch line from the next frame. -/
  | outAdvanceWrite (writer out value : Nat)
  /-- OUT_LINE_START (R29): A line starts scanning out, the output refreshes its stated tolerance, and a missing
      line is sent as fill. -/
  | outLineStart (out line : Nat) (bad : List Nat)
  /-- OUT_LATCH (R292): At the start of the latch line every latched change takes effect on the same frame and
      EV_OUT_FRAME may be posted. -/
  | outLatch (out : Nat)
  /-- FLIP_PREVIOUS_RELEASED (R263): At the start of the vertical front porch the previous buffer is no longer
      read and the flip replies. -/
  | flipPreviousReleased (out : Nat)
  /-- OUT_FRAME_START (R291): Line 0 of a frame begins and OUTk_FRAME increments. -/
  | outFrameStart (out : Nat)
  /-- TE_EDGE (R311): A filtered TE edge in MODE 4 is accepted to start line 0, or is rejected and counted. -/
  | teEdge (out : Nat)
  /-- TE_PERIOD_MISSED (R311): No TE edge is accepted by 1.1 F, so line 0 starts then, and after three misses the
      output falls back. -/
  | tePeriodMissed (out : Nat)
  /-- HPD_PLUG (R317): A filtered HPD rise that stays high for 2 ms posts EV_OUT_HOTPLUG with DETAIL 1. -/
  | hpdPlug (out : Nat)
  /-- HPD_UNPLUG (R318): A low HPD level beyond 2 ms stops driving the lanes and clears LINK_UP. -/
  | hpdUnplug (out : Nat)
  /-- HPD_IRQ (R317): An HPD low pulse of 250 µs to 2 ms posts EV_OUT_HOTPLUG with DETAIL 2. -/
  | hpdIrq (out : Nat)
  /-- TOL_MESSAGE (R192): An output sends its stated tolerance on the tolerance bus at a line start or after 16 µs
      without one. -/
  | tolMessage (out : Nat)
  /-- TOL_LOST (R193): No tolerance message from an output for 64 µs, so its tolerance counts as 0 and
      EV_ESC_TOL_LOST is posted. -/
  | tolLost (out : Nat)
  /-- ESC_GRANT (R185): A target chooses a pending request for a grant slot and re-checks write hold, STRG_HOLD
      and poison at the grant. -/
  | escGrant (target : Nat) (arrived : List EscReq)
  /-- ESC_ROUND_END (R186): A round of ROUND_GRANTS grants ends and requests pending throughout it age by one
      step. -/
  | escRoundEnd (target : Nat)
  /-- ESC_CUTOFF (R190): A grant is held beyond HOLD_LIMIT clocks, so the target cuts it off and a T2 record is
      written. -/
  | escCutoff (port target urg cls index : Nat) (src : Option Pkt)
  /-- SELF_REFRESH_ENTRY (R161): A channel idle for ENTRY_IDLE, with the permit held and the tolerance test
      passed, enters self-refresh. -/
  | selfRefreshEntry (ch : Nat)
  /-- SELF_REFRESH_EXIT (R162): A request, the tolerance falling to 6 µs or withdrawal of the permit ends self-
      refresh. -/
  | selfRefreshExit (ch : Nat) (request : Bool) (mr4 : Nat)
  /-- RETRAIN_STEP (R158): A due lane is retrained in a step started only under R31. -/
  | retrainStep (lane : Nat) (eye : Eye)
  /-- RETRAIN_STARVED (R160): A lane has been due for over 10 × PERIOD without a window and EV_MEM_RETRAIN_STARVED
      is raised. -/
  | retrainStarved (lane : Nat)
  /-- MR4_POLL (R164): Every 16 ms MR4 is read, the refresh interval follows it, and a hot reading posts
      EV_MEM_DRAM_HOT. -/
  | mr4Poll (ch mr4 : Nat) (hot : Bool)
  /-- FOLIO_INJECT_ARM (R174): A write setting ARM of MEM_FOLIO_INJECT arms corruption of the next whole-beat
      write to the unit. -/
  | folioInjectArm (writer value : Nat)
  /-- DRAM_TRAINING (R156): Start-up training of all channels runs, and a failed channel sets DRAM_FAIL. -/
  | dramTraining (densities : List Nat) (eyes : List Eye) (failed : List (Nat × Nat))
  /-- COLL_SET_WINDOW (R331): Configures a verification window, effective at a latch. -/
  | collSetWindow (pk : Pkt)
  /-- COLL_EXPECT (R333): Writes an expected value into a window's expectation table at a latch. -/
  | collExpect (pk : Pkt)
  /-- COLL_ASSIGN_UNIT (R324): Assigns a check-value unit to a function at reset values. -/
  | collAssignUnit (pk : Pkt)
  /-- COLL_COMPUTE (R329): Feeds bytes of an object to a check-value unit. -/
  | collCompute (pk : Pkt)
  /-- CVU_START (R326): A write of 1 to CFG.START loads the initial value and clears MATCH and MISMATCH. -/
  | cvuStart (writer unit : Nat)
  /-- CVU_ALG_CHANGE (R326): A write that changes ALG loads the initial value as START does. -/
  | cvuAlgChange (writer unit value : Nat)
  /-- CVU_DATA8 (R325): A write to CVUn_DATA8 feeds one byte to the unit. -/
  | cvuData8 (writer unit value : Nat)
  /-- CVU_DATA16 (R325): A write to CVUn_DATA16 feeds two bytes to the unit. -/
  | cvuData16 (writer unit value : Nat)
  /-- CVU_DATA32 (R325): A write to CVUn_DATA32 feeds four bytes to the unit. -/
  | cvuData32 (writer unit value : Nat)
  /-- CVU_VALUE_WRITE (R326): A write of VALUE resumes a saved partial computation. -/
  | cvuValueWrite (writer unit value : Nat)
  /-- CVU_EXPECT_WRITE (R327): A write of EXPECT compares it with RESULT and sets MATCH or MISMATCH. -/
  | cvuExpectWrite (writer unit value : Nat)
  /-- CVU_ALIVE_VALUE (R328): A received alive counter is judged against the last accepted value. -/
  | cvuAliveValue (writer unit value : Nat)
  /-- CVU_ALIVE_NEXT (R328): A write of 1 to NEXT advances the unit's own alive counter. -/
  | cvuAliveNext (writer unit : Nat)
  /-- CVU_ALIVE_RESET (R328): A write of 1 to ALIVE_RESET forgets the counter and clears LOST. -/
  | cvuAliveReset (writer unit : Nat)
  /-- WINDOW_OUTCOME (R334): After a window's last pixel its value is final and the frame takes an outcome of
      Table 11.7. -/
  | windowOutcome (out win : Nat)
  /-- GPC_OUTCOME (R339): The guarantee-plane checker reaches its frame outcome and delivers it to the Strongroom. -/
  | gpcOutcome (out : Nat) (fault : Option (Nat × Nat))
  /-- STRG_GET_INFO (R355): Returns the Strongroom firmware version, rollback counter, status and bound units. -/
  | strgGetInfo (pk : Pkt)
  /-- STRG_SET_TELLTALE (R359): Sets telltale states on one output, effective at a latch with their expected
      values. -/
  | strgSetTelltale (pk : Pkt)
  /-- STRG_CHIME (R365): Stops, plays once or repeats a chime pattern. -/
  | strgChime (pk : Pkt)
  /-- STRG_HANDOVER (R351): Moves a transferable unit between the worlds. -/
  | strgHandover (pk : Pkt)
  /-- STRG_KEY_LOAD (R366): Unwraps a key blob into a key slot, or empties it. -/
  | strgKeyLoad (pk : Pkt)
  /-- STRG_PERMIT_TIMING (R363): Sets MODE_CHG_OK for one timing change of a named size. -/
  | strgPermitTiming (pk : Pkt)
  /-- PERMIT_EXPIRY (R363): An unused timing permit is cleared after 1 s. -/
  | permitExpiry (out : Nat)
  /-- STRG_REQ_DOORBELL (R354): A write of 1 to STRG_REQ_DB submits the packet in the direct request window. -/
  | strgReqDoorbell (writer : Nat)
  /-- TELLTALE_REFRESH_EXPIRY (R360): REFRESH_MS passes without an accepted command, so the telltale takes
      FAIL_STATE and EV_STRG_TT_STALE is posted. -/
  | telltaleRefreshExpiry (tt : Nat)
  /-- BLINK_PHASE_UPDATE (R361): Before a blink phase begins, the Strongroom writes the expected values for that
      phase. -/
  | blinkPhaseUpdate (out : Nat)
  /-- CHIME_VOICE_FREE (R364): A chime pattern ends or is stopped and a waiting pattern sounds. -/
  | chimeVoiceFree (pattern : Nat)
  /-- TCH_SET_PANEL (R374): Configures a touch panel, effective at the next frame boundary. -/
  | tchSetPanel (pk : Pkt)
  /-- TCH_SET_REGION (R382): Sets up or frees a touch region and its report ring. -/
  | tchSetRegion (pk : Pkt)
  /-- TCH_RECALIBRATE (R386): Nodes in a region take the frame's raw count as baseline and their contacts end. -/
  | tchRecalibrate (pk : Pkt)
  /-- TCH_SET_WAKE (R388): Configures the wake scanner of a controller. -/
  | tchSetWake (pk : Pkt)
  /-- TCH_CAPTURE (R387): Writes one frame of raw, baseline, delta or self values into an object. -/
  | tchCapture (pk : Pkt)
  /-- TOUCH_FRAME_START (R373): A touch frame starts on its 1/RATE_HZ schedule and runs its listen, mutual and
      self steps. -/
  | touchFrameStart (ctl : Nat)
  /-- TOUCH_FRAME_END (R379): At frame end baselines track, contacts begin, move or end, reports are written and
      reflexes fire. -/
  | touchFrameEnd (ctl : Nat) (raw selfRaw : List Nat) (listen : Nat)
  /-- SUSPECT_STABLE_TIMEOUT (R378): A SUSPECT node's raw count has been stable for 8 s, so that value becomes its
      baseline. -/
  | suspectStableTimeout (ctl node : Nat)
  /-- CONTACT_STUCK (R381): A contact held longer than STUCK_S posts EV_TCH_STUCK once. -/
  | contactStuck (ctl id : Nat)
  /-- TOUCH_BASELINE_SAVE (R377): Every 10 minutes with no node frozen, the controller saves its baselines to the
      Ledger. -/
  | touchBaselineSave (ctl : Nat) (frozen : Bool)
  /-- WAKE_SCAN (R389): Every 50 ms the wake scanner measures its electrodes and recognises gestures. -/
  | wakeScan (ctl : Nat) (raw : List Nat) (cycles : Nat)
  /-- WAKE_PENDING_CLEAR (R390): The manager clears TCH_WAKE_STATUS.PENDING and WAKE# is released. -/
  | wakePendingClear (writer : Nat)
  /-- HAP_SET_CHANNEL (R400): Configures a haptic channel. -/
  | hapSetChannel (pk : Pkt)
  /-- HAP_LOAD_EFFECT (R404): Copies and checks an effect descriptor into a slot. -/
  | hapLoadEffect (pk : Pkt)
  /-- HAP_PLAY (R406): Requests an effect, which starts, preempts or waits under R408. -/
  | hapPlay (pk : Pkt)
  /-- HAP_STOP (R407): Sends the running effect to BRAKE and aborts the pending one. -/
  | hapStop (pk : Pkt)
  /-- HAP_CALIBRATE (R402): Starts a calibration sweep of a channel. -/
  | hapCalibrate (pk : Pkt)
  /-- CALIBRATION_COMPLETE (R402): The sweep ends and C, f0 and G0 are stored and returned, or the channel is left
      uncalibrated. -/
  | calibrationComplete (ch : Nat) (trip : Bool) (cNf f0 g0 : Nat) (gains : List Nat)
  /-- HAP_LOOP_PERIOD (R405): Each 62.5 µs loop period updates the drive, moves phases, starts pending effects and
      detects stalls and faults. -/
  | hapLoopPeriod (ch : Nat) (m : HapMeas)
  /-- VHV_SAG (R399): VHV is 6 V below its set point for 100 µs, so drives are limited and EV_HAP_BOOST is posted. -/
  | vhvSag (vhv : Nat)
  /-- VHAPT_LOSS (R399): VHAPT falls below 4.5 V, the boost stops, channels brake passively and pending effects
      fault. -/
  | vhaptLoss (vhapt : Nat)
  /-- AUD_SET_PORT (R417): Configures a TDM or PDM port. -/
  | audSetPort (pk : Pkt)
  /-- AUD_SET_ENDPOINT (R420): Defines, redefines or turns off a source or sink endpoint. -/
  | audSetEndpoint (pk : Pkt)
  /-- AUD_SET_NODE (R425): Configures or disables a mixer node, now or staged. -/
  | audSetNode (pk : Pkt)
  /-- AUD_SET_ROUTE (R427): Sets a node input or routing point, now or staged. -/
  | audSetRoute (pk : Pkt)
  /-- AUD_COMMIT (R428): Validates the staged set and applies it at one block boundary. -/
  | audCommit (pk : Pkt)
  /-- AUDIO_BLOCK (R424): Each 32-sample block evaluates the graph, applies committed changes, ramps, limiters and
      host streams. -/
  | audioBlock (ins : List (Nat × List (List Int))) (chime : List Int) (poison : List Nat)
  /-- TDM_PORT_LOST (R419): No FS edge is accepted for 4 nominal periods, so the slave port is LOST. -/
  | tdmPortLost (port : Nat)
  /-- TDM_PORT_RELOCK (R419): After 64 accepted FS edges the converter relocks and sources ramp up. -/
  | tdmPortRelock (port : Nat)
  /-- PWR_VOTE (R445): Sets or withdraws the sender's votes on power domains. -/
  | pwrVote (pk : Pkt)
  /-- PWR_SET_STATE (R455): Drains the device and enters DORMANT or HAIRSPRING. -/
  | pwrSetState (pk : Pkt)
  /-- PWR_MEM_IDLE_PERMIT (R459): Grants or withdraws the memory-idle permit. -/
  | pwrMemIdlePermit (pk : Pkt)
  /-- PWR_CLEAR_FAIL (R452): Clears FAILED marks and raises cleared domains that are wanted. -/
  | pwrClearFail (pk : Pkt)
  /-- PCU_WAKE (R440): A write of 1 to PCU_WAKE.RING in DORMANT is the wake command. -/
  | pcuWake (writer value : Nat)
  /-- DORMANT_WRITE_DROP (R441): A write that reaches the device in DORMANT or while waking is discarded and
      counted. -/
  | dormantWriteDrop (writer addr : Nat)
  /-- DOMAIN_STEP_READY (R450): A sequencing step's ready signal arrives and the domain moves to its next step or
      is up. -/
  | domainStepReady (domain : Nat)
  /-- DOMAIN_STEP_TIMEOUT (R451): A step's ready signal is absent at four times its delay, so it is retried once
      or the domain is marked FAILED. -/
  | domainStepTimeout (domain : Nat)
  /-- DOMAIN_DROP (R450): A domain no longer wanted quiesces, is isolated and its switches open. -/
  | domainDrop (domain : Nat)
  /-- PLL_LOCK_LOSS (R462): A PLL loses lock while its domain is up and is reset as a T2 error. -/
  | pllLockLoss (pll failed : Nat)
  /-- FAB_LINK_UP (R493): A Maermop link trains up and starts a topology change. -/
  | fabLinkUp (link width uid : Nat)
  /-- FAB_LINK_LOSS (R493): A link loses block lock or ACK progress and goes down, starting a topology change. -/
  | fabLinkLoss (link : Nat)
  /-- FLIT_RESEND (R491): ACK has not advanced for 2 µs and the sender resends from the flit after ACK. -/
  | flitResend (link seq : Nat)
  /-- FLIT_DISCOVERY (R494): A received discovery flit is recorded and forwarded if newer. -/
  | flitDiscovery (link : Nat) (d : Disc)
  /-- FLIT_OBJECT_READ (R498): A home device answers an object read with data flits. -/
  | flitObjectRead (link : Nat) (f : Flit)
  /-- FLIT_OBJECT_DATA (R498): Object data flits are taken, and are discarded and re-read if COPYGEN is mixed. -/
  | flitObjectData (link : Nat) (f : Flit)
  /-- FLIT_OBJECT_WRITE (R498): A peer applies an object write to its mirror or home copy as one flip and
      acknowledges. -/
  | flitObjectWrite (link : Nat) (f : Flit)
  /-- FLIT_WRITE_ACK (R498): A write acknowledgement marks a mirror update complete. -/
  | flitWriteAck (link : Nat) (f : Flit)
  /-- FLIT_MGMT_PACKET (R501): A worker runs a management packet from the fabric manager as function 66. -/
  | flitMgmtPacket (tag : Nat) (packet block : List Byte)
  /-- FLIT_MGMT_REPLY (R503): A management reply or notice copy is written to the relay ring. -/
  | flitMgmtReply (kind src tag time : Nat) (e : CqEntry)
  /-- FLIT_TIME (R505): A time flit exchange sets the child's fabric time and disciplines its rate. -/
  | flitTime (time : Nat) (calendar : Option (Nat × Nat))
  /-- MANAGEMENT_WAKE (R504): A sleeping device detects a training pattern on a link and takes it as its
      management wake. -/
  | managementWake (link : Nat)
  /-- FAB_SET_ROLE (R499): Claims or gives up the fabric manager role. -/
  | fabSetRole (pk : Pkt)
  /-- FAB_FORWARD (R502): Delivers a packet to a worker over the management tree. -/
  | fabForward (pk : Pkt)
  /-- FAB_SET_RELAY (R503): Names the relay ring for worker replies and notices. -/
  | fabSetRelay (pk : Pkt)
  /-- FAB_WAKE (R504): Wakes a sleeping fabric device through a neighbour. -/
  | fabWake (pk : Pkt)
  /-- FAB_QUERY (R508): Writes the current fabric map into an object. -/
  | fabQuery (pk : Pkt)
  /-- LEDG_READ (R484): Copies valid Ledger records into an object. -/
  | ledgRead (pk : Pkt)
  /-- LEDG_SET_CALENDAR (R482): Sets OFFSET_NS, sets CAL_VALID and writes a CALENDAR record. -/
  | ledgSetCalendar (pk : Pkt)
  /-- LEDG_FLUSH (R483): Runs a periodic update at once. -/
  | ledgFlush (pk : Pkt)
  /-- LEDG_GET_CALENDAR (R483): Returns the calendar seconds and the timebase of the same instant. -/
  | ledgGetCalendar (pk : Pkt)
  /-- PMU_SET_COUNTER (R538): Configures, clears, enables or disables a general counter. -/
  | pmuSetCounter (pk : Pkt)
  /-- PMU_CONTROL (R539): Stops, starts or clears a set of counters in one PMU clock. -/
  | pmuControl (pk : Pkt)
  /-- PMU_SET_DUMP (R543): Sets up periodic counter dumps. -/
  | pmuSetDump (pk : Pkt)
  /-- PMU_SET_SAMPLES (R542): Names the sender's sample ring. -/
  | pmuSetSamples (pk : Pkt)
  /-- PMU_DUMP_PERIOD (R543): At each dump period the counters are latched and a record is written or skipped. -/
  | pmuDumpPeriod (owner : Nat) (adv fixed : List (Nat × Nat)) (busy : Bool)
  /-- PMU_SAMPLE (R541): A counter crosses a multiple of PERIOD and a sample record is taken. -/
  | pmuSample (counter n kind unit inst skid loc0 loc1 loc2 : Nat) (fixed : List (Nat × Nat))
  /-- CROWN_ID (R547): Crown request returning IDCODE, UID and DBG_CROWN_STATUS. -/
  | crownId (f : CrownFrame)
  /-- CROWN_CHALLENGE (R549): Crown request returning a nonce for raising the session level. -/
  | crownChallenge (f : CrownFrame)
  /-- CROWN_RESPONSE (R549): Crown request carrying half of the authentication signature. -/
  | crownResponse (f : CrownFrame)
  /-- CROWN_READ_REG (R551): Crown request reading registers as the manager. -/
  | crownReadReg (f : CrownFrame)
  /-- CROWN_WRITE_REG (R551): Crown request writing registers as the manager. -/
  | crownWriteReg (f : CrownFrame)
  /-- CROWN_READ_MEM (R551): Crown request reading the object named by DBG_MEM_HANDLE. -/
  | crownReadMem (f : CrownFrame)
  /-- CROWN_WRITE_MEM (R551): Crown request writing the object named by DBG_MEM_HANDLE. -/
  | crownWriteMem (f : CrownFrame)
  /-- CROWN_END (R548): Crown request ending the session and returning it to LOCKED. -/
  | crownEnd (f : CrownFrame)
  /-- DBG_CORE_HALT (R552): HALT stops a Clerk core at its next instruction boundary. -/
  | dbgCoreHalt (core : Nat) (secure : Bool)
  /-- DBG_CORE_RESUME (R552): RESUME lets a halted Clerk core continue. -/
  | dbgCoreResume (target : Nat)
  /-- DBG_CORE_STEP (R552): STEP runs one instruction of a halted Clerk core. -/
  | dbgCoreStep (target : Nat) (live : List (Nat × Nat × Nat))
  /-- CLERK_BREAKPOINT_HIT (R552): A Clerk core reaches a breakpoint address and halts. -/
  | clerkBreakpointHit (core addr : Nat)
  /-- SHADER_BREAKPOINT_HIT (R553): A wave reaches a shader breakpoint and its cluster halts. -/
  | shaderBreakpointHit (cluster unit key offset : Nat) (live : List (Nat × Nat × Nat))
  /-- DBG_VOTE_WRITE (R551): A write to DBG_VOTE sets the votes of voter 68. -/
  | dbgVoteWrite (value : Nat)
  /-- ERROR_RECORD (R516): The collector makes a journal record or folds a repeat, evicting or dropping when full,
      and signals the manager. -/
  | errorRecord (subsys unit tier code inst info0 info1 : Nat) (src : Option Pkt)
  /-- ERROR_ACK (R516): A write of a SEQ to HOST_ERR_ACK sets that record's ACKED bit. -/
  | errorAck (writer seq : Nat)
  /-- ERROR_ACK_ALL (R516): A write of ALL to HOST_ERR_ACK acknowledges every record. -/
  | errorAckAll (writer : Nat)
  /-- CLERK_CORE_EXCEPTION (R521): A Clerk core takes an exception outside the handler and is reset. -/
  | clerkCoreException (core cause : Nat) (held : List Pkt)
  /-- CLERK_RESTART (R522): A handler fault or a fourth exception within 1 s restarts the whole Clerk, or halts it
      with CLRK_DOWN. -/
  | clerkRestart (core cause : Nat) (fourth : Bool)
  /-- SUPPLY_MONITOR_TRIP (R530): A main rail is outside its window for 10 µs and a SUPPLY record is raised at T3. -/
  | supplyMonitorTrip (rail mv request : Nat)
  /-- THERMAL_TRIP (R530): The hottest junction exceeds the grade limit by 5 °C and a THERMAL record is raised at
      T3. -/
  | thermalTrip (temps : List Int)
  /-- RECOVERY_RESET (R528): A write of 0x5AFE to HOST_SAFE_CTRL or another request switches off all but AO and
      boots again. -/
  | recoveryReset (writer key : Nat)
  /-- BOOT_SEQUENCE (R563): The boot verifies the slot and firmware, applies the binding table, trains DRAM and
      releases the Clerk. -/
  | bootSequence (own : Bool) (bootUs : Nat)
  /-- XSPI_OWN_RELEASE (R558): XSPI_OWN goes low and a waiting boot proceeds. -/
  | xspiOwnRelease (slotA slotB : Option FwSlot)
  /-- FW_STAGE (R568): Checks a slot image, writes it to the inactive slot and loads Damath into the staging half. -/
  | fwStage (pk : Pkt) (image : Option FwSlot) (readBack : Bool)
  /-- FW_SWITCH (R569): Switches Damath, the Strongroom firmware, or the touch or haptic microcode to the staged
      slot. -/
  | fwSwitch (pk : Pkt)
  /-- TDM_FS_EDGE (R419): A filtered FS edge on a slave TDM port is accepted within ±2 % of its nominal period, or
      ignored and counted in REJECT. -/
  | tdmFsEdge (port ps : Nat)
  /-- VHV_SAG_END (R399): VHV returns to within 6 V of VHV_SET, the drive limit lifts, LOW clears and the sag
      episode ends. -/
  | vhvSagEnd (vhv : Nat)
  /-- VHAPT_RESTORED (R397): VHAPT rises back to 4.5 V or above, VHAPT_UV clears and the boost may start again. -/
  | vhaptRestored (vhapt : Nat)
  /-- CLERK_RESTART_COMPLETE (R522): Damath is running again after a core reset (within 50 µs) or a whole-Clerk
      restart (within 20 ms); fetching and epochs resume and held replies are written. -/
  | clerkRestartComplete (core : Option Nat)
  /-- XTAL32_QUALIFIED (R460): The 32.768 kHz crystal runs 1,024 cycles within ±500 ppm of the RC count and the AO
      domain switches to it. -/
  | xtal32Qualified
  /-- XTAL32_QUALIFY_TIMEOUT (R460): The crystal has not qualified within 2 s of reset, so the RC stays in use,
      XTAL32_FAIL is latched and a Ledger record is written. -/
  | xtal32QualifyTimeout
  /-- VSAVE_ARM_TIMEOUT (R467): VSAVE has not reached 4.6 V within 400 ms of the pump starting, so VSAVE_FAIL is
      set and a POWER_EVENT record is written. -/
  | vsaveArmTimeout
  /-- VDDAO_RECOVERED (R473): VDDAO stays above THRESH + 100 mV for 1 ms after a save, so AO returns to VDDAO,
      PWR_FAIL_N is released and the brownout count rises. -/
  | vddaoRecovered
  /-- VSAVE_EXHAUSTED (R473): VSAVE falls below 2.5 V while AO runs from it, so the AO domain turns off and the
      device is OFF. -/
  | vsaveExhausted
  /-- LEDGER_PERIODIC_UPDATE (R477): Every 600 s of timebase the Ledger writes COUNTERS, WEAR_MAP, HAPTIC and held
      ERROR records. -/
  | ledgerPeriodicUpdate
  /-- WEAR_SAVE_BUFFER_ADD (R479): Once a second each output adds its wear accumulators into the save buffer. -/
  | wearSaveBufferAdd
  /-- RETRAIN_HOUR_RECORD (R476): Each completed hour the RETRAIN history record is written to HISTORY. -/
  | retrainHourRecord
  /-- MANAGER_LOSS_CLEARED (R98): No loss condition holds any more and LOSS falls. -/
  | managerLossCleared
  /-- PLACEMENT_EPOCH (R123): At each 1 ms timebase boundary the heat counters are snapshot and the policy run
      starts. -/
  | placementEpoch
  /-- EPOCH_OVERRUN (R125): The decisions are not ready within 400 µs, so they are discarded and
      EV_REGR_EPOCH_OVERRUN is posted. -/
  | epochOverrun
  /-- ARENA_CHUNK_FREED (R214): Freed arena chunks go to waiting segments, C1 first and then in order of arrival. -/
  | arenaChunkFreed
  /-- POSE_STALE (R283): The current pose is older than 2 ms at a band start, so H holds, POSE_STALE is set and
      EV_BND_POSE_STALE is posted. -/
  | poseStale
  /-- SCRUB_PERIOD_END (R173): A scrub period ends, LATE is set if the pass is unfinished, and a new pass begins. -/
  | scrubPeriodEnd
  /-- HANDOVER_QUIESCED (R351): The unit has quiesced, is reset and opens to the new world, and the reply is
      written. -/
  | handoverQuiesced
  /-- BOOST_UP (R397): The boost reaches its set point and pending effects may start. -/
  | boostUp
  /-- DRAIN_COMPLETE (R456): The drain for a state change completes, the command commits and the entry steps run. -/
  | drainComplete
  /-- WAKE_FROM_DORMANT (R457): A wake runs step X and raises every domain that was up, ending ACTIVE with
      EV_PCU_STATE. -/
  | wakeFromDormant
  /-- WAKE_FROM_HAIRSPRING (R458): A wake raises the main enables, runs the base domains and the boot. -/
  | wakeFromHairspring
  /-- REFCLK_STOP (R454): The 38.4 MHz reference stops while ACTIVE, PLLs go to holdover and a T3 record is
      written. -/
  | refclkStop
  /-- FABRIC_CONVERGED (R496): No device learns anything new for 200 µs, so addresses, routes and the tree are
      installed and FGEN rises. -/
  | fabricConverged
  /-- FABRIC_TIME_HOLD (R505): No time flit for 1 ms, so fabric time free-runs, TIME_HOLD is set and EV_FAB_TIME
      is posted. -/
  | fabricTimeHold
  /-- CROWN_AUTH_VERIFIED (R549): The Strongroom finishes verifying the signature and grants or refuses the level. -/
  | crownAuthVerified
  /-- CROWN_SESSION_TIMEOUT (R548): 60 s without a valid request returns the session to LOCKED. -/
  | crownSessionTimeout
  /-- CROWN_LOCKOUT_END (R549): The 10 s lockout after three refusals ends. -/
  | crownLockoutEnd
  /-- DBG_STRG_HALT (R554): At SECURE the Strongroom core halts and STRG_ALERT_N is asserted. -/
  | dbgStrgHalt
  /-- DBG_STRG_RESUME (R554): At SECURE the Strongroom core resumes. -/
  | dbgStrgResume
  /-- STRG_WATCHDOG_EXPIRY (R530): The Strongroom watchdog expires after 100 ms and a T3 record is raised. -/
  | strgWatchdogExpiry
  /-- SAFE_STATE_ENTRY (R524): The safe-state machine halts the engines, asserts STRG_ALERT_N and shows telltales
      in FAIL_STATE. -/
  | safeStateEntry
  /-- ROLLBACK_RAISE (R562): Once the Clerk is ready, OTP rollback counters are raised to the running slot's
      values. -/
  | rollbackRaise
  /-- STRONGROOM_SWITCH_TIMEOUT (R571): The new Strongroom firmware does not run within 10 ms, so the device
      enters the safe state. -/
  | strongroomSwitchTimeout
  /-- REFCLK_HOLDOVER_END (R454): The 10 ms PLL holdover after the 38.4 MHz reference stopped runs out, and the
      outputs and the chime stop, leaving only STRG_ALERT_N, the hold-up save and AO. -/
  | refclkHoldoverEnd
  /-- TAKEOVER_COMPLETE (R99): The takeover finishes within 1 ms of its commit and class 0x01 commands stop
      returning BUSY. -/
  | takeoverComplete
  /-- FW_SWITCH_COMPLETE (R570): A running Damath, Strongroom or microcode switch reaches its end: the halves
      exchange roles or the reloaded units resume, RUN returns to 1 and EV_FW_SWITCHED is posted. -/
  | fwSwitchComplete
  /-- STATE_ENTRY_COMPLETE (R456): Entry step 6 to DORMANT or HAIRSPRING ends, ENTERING clears and PCU_STATE takes
      the new state, and a wake held during entry then begins. -/
  | stateEntryComplete
  deriving DecidableEq, Repr

end Sys2Proof
end

