-- ==== Sys2Proof/Machine/State.lean ====
section
/-! DEFINITION. The state of the device as plain data, and the reasons a command can stop. A register of the
register tables lives in `State.regs`; a status register that only mirrors other state is computed from it
(Machine/Views.lean). -/

namespace Sys2Proof.Machine

/-- What the device writes to the host or sends it (R59): a completion entry in a slot, a tail write-back, an MSI-X
message, bytes of a host buffer, a host buffer whose contents are undefined, a state image; over the fabric an object flit, a discovery
flit, a management packet (destination, TAG, packet, block), what a worker sends its fabric manager (R503: KIND, TAG, entry, or the count of
entries lost), a calendar (R506), a training pattern that wakes a neighbour, an order to a neighbour to do so (R504), the write of a mirrored
granule (R498: peer, handle, offset), a response of the Crown port (R547: STATUS, words). -/
inductive HostOut where
  | entry (fn slot : Nat) (e : CqEntry)
  | tail (fn count : Nat)
  | msix (fn vector : Nat)
  | buffer (fn addr : Nat) (bytes : List Byte)
  | undefinedBuffer (fn addr length : Nat)
  | image (fn addr : Nat) (img : Image)
  | flit (link : Nat) (f : Flit)
  | discovery (link : Nat) (d : Disc)
  | mgmt (dest tag : Nat) (packet block : List Byte)
  | fabric (kind tag : Nat) (e : CqEntry)
  | fabricLost (n : Nat)
  | calendar (seconds time : Nat)
  | train (link : Nat)
  | wakeOrder (neighbour uid : Nat)
  | mirrorWrite (peer handle off : Nat) (bytes : List Byte)
  | crown (status : Nat) (words : List Nat)
  deriving DecidableEq, Repr

/-- What a function has beside its registers: the stored doorbell tails of its three rings and the consumer count of
its completion ring (R50), replies not yet signalled (R67), notices posted and dropped (Table 2.19, R58), whether the
completion ring has been enabled since the set's reset (R58), replies and notices held (R49, R602), the length of its
runs of HIGH and of HIGH or NORMAL fetches (R63), its CAP_LIST_GEN (R79). -/
structure FnState where
  tails : List Word := [0, 0, 0]
  cqHead : Word := 0
  unsignalled : Nat := 0
  noticeCount : Nat := 0
  lost : Nat := 0
  cqEver : Bool := false
  heldReplies : List CqEntry := []
  heldNotices : List CqEntry := []
  runHigh : Nat := 0
  runUpper : Nat := 0
  capGen : Nat := 0
  deriving DecidableEq, Repr

/-- A fetched packet that has not completed (R57): its opcode, its copied block (R54), whether it has committed (R61),
whether its ring set has been reset since (R87), the objects it names and those it writes (R64), whether these are known yet: its parameters have been
looked at. -/
structure Flight where
  op : Nat
  pk : Pkt
  block : List Byte
  committed : Bool
  orphan : Bool
  names : List Nat
  writes : List Nat
  seen : Bool := true
  deriving DecidableEq, Repr

/-- A lending slip (R71 to R75). -/
structure Slip where
  owner : Option Nat := none
  last : Nat := 0
  broken : Bool := false
  waiters : List Pkt := []
  mask : Nat := 0
  deriving DecidableEq, Repr

/-- The instance states of Table 3.2. -/
inductive InstState where
  | absent | running | freezing | frozen | contained | destroying
  deriving DecidableEq, Repr

/-- A resize in its grace period (R91 to R93). -/
structure Resize where
  pk : Pkt
  orphan : Bool := false
  deriving DecidableEq, Repr

/-- One instance number (R80 to R107). -/
structure Inst where
  state : InstState := .absent
  fixed : Bool := false
  c1 : Bool := false
  span : Bool := false
  port : Nat := 0
  vf : Nat := 0
  shelfBase : Nat := 0
  grant : Grant := {}
  oldGrant : Grant := {}
  resize : Option Resize := none
  createTime : Nat := 0
  freezeTime : Nat := 0
  everFrozen : Bool := false
  restored : Option Nat := none
  freezePk : Option Pkt := none
  freezeDetail : Nat := 0
  withdrawn : Nat := 0
  items : List Item := []
  destroyPk : Option Pkt := none
  flrPending : Bool := false
  deriving DecidableEq, Repr

/-- The instances and the two physical functions (R80 to R99): the instances, NumVFs of the two ports, what makes the manager lost, the time of the last beat, a takeover in progress,
the count of saves, a restore that has committed with the outputs whose timing it applies (R106). -/
structure InstsState where
  insts : Tab Inst := []
  numVfs : List Nat := [64, 64]
  lossLink : Bool := false
  lossBeat : Bool := false
  handover : Bool := false
  beatAt : Nat := 0
  takeover : Option Pkt := none
  saveSeq : Nat := 0
  restoring : Option (Pkt × List Nat) := none
  deriving DecidableEq, Repr

/-- Where a granule may lie (Table 4.9): a DRAM region or a Carrel bank. -/
inductive Place where
  | region (n : Nat)
  | bank (n : Nat)
  deriving DecidableEq, Repr

/-- What a granule has beside its object's first placement: the place a move gave it, its copy generation (8 bits,
R126), whether it has been written (R116), bytes read and written in this epoch and in the last eight (R122), the
epoch of its last flip or of the last move given up (R124, R129), peers that mirror it, those among them that have not
acknowledged the last write (R137, R498), the bank of its shadow (R130). -/
structure Gran where
  place : Option Place := none
  copyGen : Nat := 0
  written : Bool := false
  traffic : Nat := 0
  heat : List Nat := []
  flipEpoch : Option Nat := none
  mirrors : List Nat := []
  behind : List Nat := []
  shadow : Option Nat := none
  deriving DecidableEq, Repr

/-- A live object (R110 to R116): its owner (0: the manager), its description, the order of its allocation, where its
granules were placed at allocation (runs in ascending granule order, R122), its granules' own state, the feedback map of a sparse
object (handle and offset, R239), epochs a C1 object has lain outside its first address order (Table 4.24). -/
structure Obj where
  owner : Nat
  desc : ObjDesc
  born : Nat
  runs : List (Place × Nat)
  grans : Tab Gran := []
  feedback : Option (Nat × Nat) := none
  degraded : Nat := 0
  deriving DecidableEq, Repr

/-- One entry of the Shelfmark Table (R111): its handle generation, when it was last freed, its object. -/
structure ShelfEntry where
  gen : Nat := 1
  freed : Nat := 0
  obj : Option Obj := none
  deriving DecidableEq, Repr

/-- A granule move in flight (Table 4.12): the granule, its target, re-copy passes begun, whether the first pass is done, the lines of
the dirty map, whether the write hold stands, whether a command requires it (R124). -/
structure Move where
  index : Nat
  gran : Nat
  target : Place
  passes : Nat := 0
  firstDone : Bool := false
  dirty : List Nat := []
  hold : Bool := false
  byCommand : Bool := false
  deriving DecidableEq, Repr

/-- Storage still held by engines after a free, a release of tiles or a flip (then of this granule), with the DVA range it keeps (R117,
R240, Table 4.12 step 7). -/
structure Drain where
  index : Nat
  gran : Option Nat
  owner : Nat
  places : List (Place × Nat)
  dva : Nat
  dvaLen : Nat
  deriving DecidableEq, Repr

/-- The Shelfmark Table and the Registrar (R110 to R143): the table; numbers of allocations and of frees so far; moves in flight;
storage that drains; the move pool in granules (R154); whether the policy half is in its run for this epoch; handles whose cancelled
moves have been told of in this epoch (R128); epochs begun; cluster allotments; storage that commands in progress empty (R153, R176);
packets that wait for a peer (R139). -/
structure ShmState where
  entries : Tab ShelfEntry := []
  births : Nat := 0
  frees : Nat := 0
  moves : List Move := []
  draining : List Drain := []
  movePool : Nat := 0
  policyRun : Bool := false
  cancelled : List Nat := []
  epochIndex : Nat := 0
  allotments : List (Nat × Nat) := []
  leaving : List (Place × Pkt) := []
  xdevWaits : List Pkt := []
  deriving DecidableEq, Repr

/-- One lane of a channel beside its eye register: whether EV_MEM_RETRAIN_STARVED has been raised since its last step (R160), and its part of
the RETRAIN record of the current hour (Table 17.5). -/
structure Lane where
  starved : Bool := false
  steps : Nat := 0
  minWidth : Nat := 255
  maxWidth : Nat := 0
  lowEvents : Nat := 0
  deriving DecidableEq, Repr

/-- Memory beside its registers (R144 to R180): object data and the stored errors of beats (patterns over the 35 bytes
of a codeword, R167), installed DRAM, the bin arena's granules by region, the lanes by 2 × channel + lane, corrected errors of each channel in
the current second (R172), beats scrubbed in this pass (R173), withdrawals of the permit that wait for the channels (R459), and for each object whose contents became
undefined (R223) one more than the count of free values at that time. -/
structure MemState where
  data : List Host.Cell := []
  errors : Tab (List Byte) := []
  installedMib : Nat := 0
  arena : List (Nat × Nat) := []
  lanes : Tab Lane := []
  ceSecond : Tab (Nat × Nat) := []
  scrubbed : Nat := 0
  permitWaits : List Pkt := []
  spoiled : Tab Nat := []
  deriving DecidableEq, Repr

/-- A request pending at a target (R182): its order of arrival, what it asks, its issued urgency as R184 changes it, the urgency aging has
given it (0: none), whether it was pending when the round began. -/
structure Pending where
  order : Nat
  req : EscReq
  issued : Nat
  aged : Nat
  sinceRound : Bool
  deriving DecidableEq, Repr

/-- One target (R185 to R187): its queue, grants made in this round, the control value in effect (R194). -/
structure Target where
  queue : List Pending := []
  grants : Nat := 0
  orders : Nat := 0
  ctrl : Word := 0x86200400
  deriving DecidableEq, Repr

/-- Escapement beside its registers: the targets, and for each output the tolerance held by the arbiters with the time
it arrived (R193). -/
structure EscState where
  targets : Tab Target := []
  tol : List (Nat × Nat) := List.replicate 8 (0xFFFF, 0)
  deriving DecidableEq, Repr

/-- An error record (Table 19.2). -/
structure ErrRec where
  subsys : Nat
  unit : Nat
  tier : Nat
  code : Nat
  inst : Nat
  rpt : Nat
  seq : Nat
  time : Nat
  info0 : Nat
  info1 : Nat
  last : Nat
  acked : Bool
  escalated : Bool
  deriving DecidableEq, Repr

/-- The collector and the safe-state machine beside their registers (R516 to R530): the slots, the next SEQ, the T2
faults of the last second (R518), core exceptions and Clerk restarts (R522), whether the whole Clerk restarts and which cores restart alone, the T3 trigger waiting for
SAFE_STATE_ENTRY, whether the device is in the safe state, the words latched by a read of word 0 (Table 19.13). -/
structure ErrState where
  slots : Tab ErrRec := []
  nextSeq : Nat := 0
  t2Faults : List (Nat × Nat × Nat) := []
  coreFaults : List Nat := []
  restarts : List Nat := []
  restarting : Bool := false
  coresDown : List Nat := []
  trigger : Option Nat := none
  safe : Bool := false
  latched : Option (Nat × List Word) := none
  deriving DecidableEq, Repr

/-- A Ledger record (Table 17.4) with its payload; `valid` is false for one whose writing was cut short (R474). -/
structure LedgRec where
  typ : Nat
  saved : Bool
  estimated : Bool
  seq : Nat
  cal : Nat
  time : Nat
  payload : List Byte
  valid : Bool := true
  deriving DecidableEq, Repr

/-- The Ledger, the save buffer and the calendar (R466 to R487): the two partitions, oldest record first, with the bytes
ever written to LIVE; OFFSET_NS; seconds AO has run before this session and nanoseconds in ACTIVE (R476); the counts of the COUNTERS record; wear
accumulators in the outputs and in the save buffer and lifetime totals by 2,304 × output + zone; ERROR records held for the next update (R513);
whether the last session ended with a save (R475); the PWR_FAIL_N pin; notices that wait for the manager's rings (code, DETAIL, DATA0). -/
structure LedgState where
  live : List LedgRec := []
  history : List LedgRec := []
  nextSeq : Nat := 0
  liveWritten : Nat := 0
  liveUsed : Nat := 0
  historyUsed : Nat := 0
  offset : Int := 0
  powerS : Nat := 0
  activeNs : Nat := 0
  coldBoots : Nat := 0
  saves : Nat := 0
  unsaved : Nat := 0
  brownouts : Nat := 0
  wakeFails : Nat := 0
  thermal : List Nat := List.replicate 17 0
  wearOut : Tab Nat := []
  wearBuf : Tab Nat := []
  wearTotal : Tab Nat := []
  errHeld : List (List Byte) := []
  closed : Bool := true
  pwrFail : Bool := false
  events : List (Nat × Nat × Nat) := []
  deriving DecidableEq, Repr
/-- A flip that is ready (R263): its packet, its buffer's handle, its pose stamp. -/
structure Flip where
  pk : Pkt
  handle : Nat
  pose : Option Pose
  deriving DecidableEq, Repr

/-- What a layer holds or reserves (R134, R135, R257 to R261): slots (16 × pipe + slot), scalers, and by pipe its
line-buffer charge in bytes and its fetch charge in bytes a second. -/
structure LayerRes where
  slots : List Nat := []
  scalers : List Nat := []
  pool : Tab Nat := []
  fetch : Tab Nat := []
  deriving DecidableEq, Repr

/-- One layer of a function (R253 to R283): the settings in effect, those validated and waiting for a latch with their
packet and reservation, resources held, the ready flip, the latched buffer and its stamp, a flip that took effect and
whose reply waits for the release of the previous buffer (with its frame and latch time), the de-gamma table in effect
(empty: identity) and the one waiting, the frame of the last flip, what the current frame shows (late, policy, poison,
clamped), the event flags of the frame, whether the buffer's invalid blocks have been told of, the fill of its parts by slot (none:
as much as it can hold), and by pipe the pose its H was last computed from. -/
structure Layer where
  cur : Option LayerSet := none
  pend : Option (LayerSet × Pkt) := none
  held : LayerRes := {}
  reserved : LayerRes := {}
  flip : Option Flip := none
  buf : Option (Nat × Option Pose) := none
  releasing : List (Pkt × Nat × Nat) := []
  lut : List Nat := []
  lutPend : List (List Nat × Pkt) := []
  lastFlip : Nat := 0
  late : Bool := false
  policy : Nat := 0
  poison : Bool := false
  clamped : Bool := false
  critPosted : Bool := false
  clampPosted : Bool := false
  metaPosted : Bool := false
  fills : Tab (Option Nat) := []
  poses : Tab (Option Pose) := []
  deriving DecidableEq, Repr

/-- A layer as one frame shows it: its key (128 × owner + number), settings, buffer and pose stamp, de-gamma table, and
what is shown of it: 0 the new or static buffer, 1 REPEAT, 2 REPROJECT, 3 nothing, 4 the substitute colour. -/
structure SceneLayer where
  key : Nat
  set : LayerSet
  handle : Nat
  pose : Option Pose
  lut : List Nat
  shown : Nat
  deriving DecidableEq, Repr

/-- What a latch gives a pipe for the frame that follows it: the frame number, background, re-gamma mode and table,
layers from the bottom up (R268), the sprites shown (left, top, asset) and whether the C0 plane is composed (R271). -/
structure Scene where
  frame : Nat := 0
  bg : Nat := 0
  mode : Nat := 1
  table : List Nat := []
  layers : List SceneLayer := []
  c0 : List (Nat × Nat × Nat) := []
  c0On : Bool := false
  deriving DecidableEq, Repr

/-- One composition pipe: the scene being composed and the one latched for the next frame, whether a frame is being composed, its next line,
re-gamma table loaded (empty: none), re-gamma changes waiting for a latch (mode, table, packet), and whether the pipe shows no layers in
the next frame because it resets (Table 19.5). -/
structure Pipe where
  scene : Scene := {}
  next : Option Scene := none
  busy : Bool := false
  nextLine : Nat := 0
  mode : Nat := 1
  table : List Nat := []
  pend : List (Nat × List Nat × Pkt) := []
  resetFrame : Bool := false
  deriving DecidableEq, Repr

/-- The Bindery beside its registers: layers by 128 × owner + number, pipes, the current pose, whether the current
stale episode has been reported (R283). -/
structure BndState where
  layers : Tab Layer := []
  pipes : Tab Pipe := []
  pose : Option Pose := none
  deriving DecidableEq, Repr

/-- A timing change in progress (Table 10.6): its packet (none for a restart under Table 19.5), the new timing, the step
last done, whether the link was up and has stayed up, the pixel clock achieved, whether training failed. -/
structure Change where
  pk : Option Pkt
  timing : Timing
  step : Nat
  linkHeld : Bool := false
  hz : Nat := 0
  failed : Bool := false
  deriving DecidableEq, Repr

/-- A line in a pixel FIFO (R307, R308): its number and frame, the pixels as stored. -/
structure FifoLine where
  line : Nat
  frame : Nat
  pixels : List Nat
  deriving DecidableEq, Repr

/-- One output beside its registers (R289 to R319): the requested timing in effect, the change in progress, ADVANCE as
in effect, the FIFO (oldest line first; the line being sent stays at its head), whether that line is being sent, whether
events of this frame have been posted, lines sent as fill (frame, line), which are discarded when they arrive, and beats
replaced (frame, line, beat); for TE the missed
periods and accepted edges in a row, whether no frame has started since step 5, whether the edge of this period has
come; the time of line 0; AUX commands in order and DSI transactions of this frame; for the wear map the sums of codes by
2,304 × frame + zone, and whether the link was down in the frame being sent (R478). -/
structure OutState where
  timing : Timing := {}
  change : Option Change := none
  advance : Nat := 0
  fifo : List FifoLine := []
  sending : Bool := false
  underrunPosted : Bool := false
  poisonPosted : Bool := false
  late : List (Nat × Nat) := []
  replaced : List (Nat × Nat × Nat) := []
  teMissed : Nat := 0
  teGood : Nat := 0
  teFirst : Bool := false
  teEdge : Bool := false
  line0 : Nat := 0
  aux : List Pkt := []
  dsiSent : Nat := 0
  zones : Tab Nat := []
  unlit : Bool := false
  deriving DecidableEq, Repr

/-- The outputs. -/
structure OutsState where
  outs : Tab OutState := []
  deriving DecidableEq, Repr

/-- What a window does in one frame: the settings and the table as they stood at the frame's latch, the buffer the bound
layer shows, how it is shown (0 by its own buffer, 1 late, underrun or poisoned, 2 not shown), what the running CRC has come
to, the lines composed, whether the outcome has been taken. -/
structure WinRun where
  frame : Nat
  cfg : WinCfg
  table : List Expect
  shown : Nat
  kind : Nat
  crc : Nat := 0xFFFFFFFF
  line : Nat := 0
  done : Bool := false
  deriving DecidableEq, Repr

/-- A command of a window that waits for a latch: new settings, or a value for a key and a phase (255: all four). -/
inductive WinPend where
  | set (c : WinCfg) (pk : Pkt)
  | expect (key phase value : Nat) (pk : Pkt)
  deriving DecidableEq, Repr

/-- A verification window (R331 to R337): the settings in effect, commands waiting for a latch, the expectation table (the
key written last at the end), the frame being composed and the one latched next, the RESULTs of the last frames (newest
first), whether HIDE and going to MODE 0 wait for a latch, PASS outcomes in a row since it escalated. -/
structure Win where
  cfg : Option WinCfg := none
  pend : List WinPend := []
  table : List Expect := []
  run : Option WinRun := none
  next : Option WinRun := none
  results : List (Nat × Nat) := []
  hideDue : Bool := false
  escalated : Option Nat := none
  offDue : Bool := false
  deriving DecidableEq, Repr

/-- What a checker does in one frame (R338, R339): the frame, the sprites shown, the expected value and count in effect, the
CRC and count so far, the lines composed, whether the outcome has been taken. -/
structure GpcRun where
  frame : Nat
  sprites : List (Nat × Nat × Nat)
  expect : Nat
  countExp : Nat
  crc : Nat := 0xFFFFFFFF
  count : Nat := 0
  line : Nat := 0
  done : Bool := false
  deriving DecidableEq, Repr

/-- A guarantee-plane checker (R338, R339): the frame being checked, the one latched next, whether the last outcome (other
than NONE) was no MATCH. -/
structure Gpc where
  run : Option GpcRun := none
  next : Option GpcRun := none
  failed : Bool := false
  deriving DecidableEq, Repr

/-- Collation beside its registers: the holder of each check-value unit (R324), units lost at a restore to report
(R330), windows by 16 × output + window, checkers by output, layers hidden by HIDE (R336). -/
structure CollState where
  holders : Tab Nat := []
  unitsLost : Tab Nat := []
  wins : Tab Win := []
  gpcs : Tab Gpc := []
  hiddenKeys : List Nat := []
  deriving DecidableEq, Repr

/-- A telltale beside its STRG_TT<t>_STATE register (R359, R360): whether a command has ever been accepted, when the last one
was, whether FAIL_STATE is due at the next latch. -/
structure Telltale where
  spoken : Bool := false
  last : Nat := 0
  failDue : Bool := false
  deriving DecidableEq, Repr

/-- A pattern sounding or waiting (R364): its number, whether it repeats, why it was started: 0 a command, 1 a
guarantee-plane fault, 2 an escalation, 3 the safe state. -/
structure Voice where
  pattern : Nat
  again : Bool
  cause : Nat
  deriving DecidableEq, Repr

/-- A hand-over in progress (Table 12.5). -/
structure Handover where
  pk : Pkt
  kind : Nat
  unit : Nat
  dir : Nat
  deriving DecidableEq, Repr

/-- The Strongroom beside its registers (R343 to R369): the binding table applied at boot, telltales, commands waiting for
a latch (output, entries, packet), consecutive checker failures and matches by output, the safe-state expected values (R526),
voices and waiting patterns, the hand-over in progress, key slots by number, the sizes permits name (R363), what holds
STRG_ALERT_N low (0 to 7 a C0 fault, 8 to 15 an escalation, 16 the safe state, 17 a debug halt). -/
structure StrgState where
  bind : Option Binding := none
  tts : Tab Telltale := []
  ttPend : List (Nat × List (Nat × Nat) × Pkt) := []
  c0Bad : Tab Nat := []
  c0Good : Tab Nat := []
  safeExp : Tab (Nat × Nat) := []
  voices : List Voice := []
  waiting : List Voice := []
  handover : Option Handover := none
  keys : Tab (List Byte) := []
  permits : Tab (Nat × Nat) := []
  alerts : List Nat := []
  deriving DecidableEq, Repr

/-- A request for an effect that waits for a loop boundary, for the boost or for the effect before it (R405, R408): the slot,
its priority, its packet (none for a reflex or a wake gesture), since when, whether it starts with matched phase. -/
structure HapReq where
  slot : Nat
  priority : Nat
  src : Option Pkt
  since : Nat
  matched : Bool
  deriving DecidableEq, Repr

/-- The effect of a channel (R405): its slot and descriptor as started, its packet, the start of drive; the phase as in
HAPn_STATUS (2 START, 3 RUN, 4 BRAKE), the plays done, the segment and the periods of it done, all periods since the start; the
phase of the sine in 1/16,000 cycle; the residual it matched at its start; the outcome its reply gives; whether it goes to BRAKE
at the next boundary, whether it brakes passively; periods of braking, periods in a row below RESIDUAL_MG, periods in a row at
VMAX with a weak response. -/
structure HapRun where
  slot : Nat
  desc : List Byte
  src : Option Pkt
  start : Nat
  phase : Nat := 2
  play : Nat := 0
  seg : Nat := 0
  pos : Nat := 0
  periods : Nat := 0
  angle : Nat := 0
  matched : Option Nat := none
  outcome : Nat := 0
  stop : Bool := false
  passive : Bool := false
  brake : Nat := 0
  below : Nat := 0
  weak : Nat := 0
  deriving DecidableEq, Repr

/-- A haptic channel beside its registers (R395 to R412): slots, the 32 calibrated gains, the effect, the pending effect, the
calibration in progress (its packet, and whether its result still belongs to the channel), HAP_STOPs that wait for the braking,
stale and fresh samples in a row, lifetime stalls and faults, whether its HAPTIC record is due. -/
structure HapChan where
  slots : Tab (List Byte) := []
  gains : List Nat := []
  run : Option HapRun := none
  pend : Option HapReq := none
  calib : Option (Pkt × Bool) := none
  stops : List Pkt := []
  stale : Nat := 0
  fresh : Nat := 0
  stalls : Nat := 0
  faults : Nat := 0
  changed : Bool := false
  deriving DecidableEq, Repr

/-- Haptics beside its registers. -/
structure HapState where
  chans : Tab HapChan := []
  deriving DecidableEq, Repr

/-- The panel of a controller (Table 13.2), with the block it came in. -/
structure Panel where
  block : List Byte
  flags : Nat
  ntx : Nat
  nrx : Nat
  rate : Nat
  integ : Nat
  txKhz : Nat
  touchTh : Nat
  releaseTh : Nat
  noiseGain : Nat
  shift : Nat
  noiseEnter : Nat
  noiseExit : Nat
  hops : List Nat
  map : List Nat
  deriving DecidableEq, Repr

/-- A node (R375 to R378): its baseline in 1/256 count, whether it is SUSPECT and the value its raw count stays near since when,
whether it was saturated in the last frame, the sum of raw counts since a change of frequency. -/
structure Node where
  base : Nat := 0
  suspect : Bool := false
  near : Nat := 0
  since : Nat := 0
  saturated : Bool := false
  sum : Nat := 0
  deriving DecidableEq, Repr

/-- A contact (R379 to R383): its ID, its region (owner and number) if it landed in one, its position, SIGNAL, AREA, its peak
node, when it began, whether it is reported SUSPECT, whether EV_TCH_STUCK has been posted, whether it ends as LOST. -/
structure Contact where
  id : Nat
  region : Option (Nat × Nat)
  x : Nat
  y : Nat
  signal : Nat
  area : Nat
  node : Nat
  since : Nat
  suspect : Bool
  stuck : Bool
  lost : Bool
  deriving DecidableEq, Repr

/-- A command that waits for a frame of a controller: TCH_RECALIBRATE with its region (none: all), TCH_CAPTURE with kind,
handle and offset. -/
inductive TouchWait where
  | recal (pk : Pkt) (region : Option (Nat × Nat))
  | capture (pk : Pkt) (kind handle off : Nat)
  deriving DecidableEq, Repr

/-- The wake scanner of a controller (R388 to R390): gestures enabled, electrodes in slider order, the feedback channel and slot
with the copy of its effect (R411), the threshold; its baselines in 1/256 count; scans the present touch has lasted and the
electrodes its peak has crossed (newest first); whether it is the second touch of a double tap, scans since a tap was lifted, and
whether a swipe was recognised in this touch. -/
structure WakeScan where
  gestures : Nat := 0
  pins : List Nat := []
  hapCh : Nat := 0xFF
  effect : Nat := 0
  copy : List Byte := []
  thresh : Nat := 0
  bases : List Nat := []
  present : Nat := 0
  trail : List Nat := []
  second : Bool := false
  lifted : Option Nat := none
  swiped : Bool := false
  deriving DecidableEq, Repr

/-- A sense controller beside its registers (R371 to R391): the panel in effect and the one waiting for a frame boundary, whether a
frame is being scanned, whether the next frame is the first since scanning started, whether baselines restart with it, whether the
saved baseline was discarded (R374); nodes, contacts, in noise mode the new peaks of the last frame; nodes resolved by lift and by
stability; the listen level by hop, the hop whose level comes next, the hop in use, frames in a row above NOISE_ENTER and below
NOISE_EXIT, frames left of the average after a change of frequency; commands waiting; the wake scanner. -/
structure TouchCtl where
  panel : Option Panel := none
  next : Option Panel := none
  scanning : Bool := false
  first : Bool := true
  restart : Bool := false
  discarded : Bool := false
  nodes : List Node := []
  contacts : List Contact := []
  candidates : List (Nat × Nat) := []
  lifts : Nat := 0
  stables : Nat := 0
  levels : Tab Nat := []
  turn : Nat := 0
  hop : Option Nat := none
  loud : Nat := 0
  quiet : Nat := 0
  average : Nat := 0
  waits : List TouchWait := []
  wake : WakeScan := {}
  deriving DecidableEq, Repr

/-- A region of a function beside its registers (R382, R383): its settings, those waiting for a frame boundary with
their controller and packet,
reports generated, whether the next report carries DROPPED, whether it had a contact in the last frame. -/
structure Region where
  cfg : Option RegionCfg := none
  pend : List (Option RegionCfg × Nat × Pkt) := []
  seq : Nat := 0
  dropped : Bool := false
  had : Bool := false
  deriving DecidableEq, Repr

/-- The effect the wake drive plays (R411): the channel, when it began, its segments as frequency, peak drive in 10 mV as a
numerator and a denominator, and loop periods. -/
structure WakeDrive where
  ch : Nat
  start : Nat
  segs : List (Nat × Nat × Nat × Nat)
  deriving DecidableEq, Repr

/-- Touch beside its registers: controllers, regions by 256 × owner + number, the gesture EV_TCH_WAKE waits to tell the manager
(R390), the WAKE# pin, the last effect of the wake drive. -/
structure TchState where
  ctls : Tab TouchCtl := []
  regions : Tab Region := []
  wakeDue : Option (Nat × Nat) := none
  wakePin : Bool := false
  drive : Option WakeDrive := none
  deriving DecidableEq, Repr
/-- A linear ramp (R429): from `a` to `b` over `len` samples, `pos` of them done; amplitudes in 2⁻³¹. -/
structure Ramp where
  a : Int := 0
  b : Int := 0
  pos : Nat := 0
  len : Nat := 0
  deriving DecidableEq, Repr

/-- The settings of a port (Table 15.2). -/
structure AudPortCfg where
  role : Nat := 0
  rate : Nat := 0
  slots : Nat := 0
  bits : Nat := 0
  format : Nat := 0
  pdmKhz : Nat := 0
  deriving DecidableEq, Repr

/-- A port beside its status register: its settings, edges accepted in a row while LOST (R419). -/
structure AudPort where
  cfg : AudPortCfg := {}
  edges : Nat := 0
  deriving DecidableEq, Repr

/-- An endpoint beside its registers (R420 to R423, R431): settings, definitions that wait for its routes to fall silent (none: off;
the packet if there is one); for a host stream the frames of the period done times 96,000, whether the period is there, whether an
xrun episode runs; the hold ramp of a source, or the resume ramp of a DP sink; the last sample of each channel; the look-ahead of
the limiter by channel, its gain and that of the chime's ducking; the samples of the last block. -/
structure AudEp where
  cfg : Option AudEpCfg := none
  pend : List (Option AudEpCfg × Option Pkt) := []
  frames : Nat := 0
  live : Bool := false
  episode : Bool := false
  hold : Ramp := {}
  last : List Int := []
  look : List (List Int) := []
  limitGain : Int := 2147483648
  duckGain : Int := 2147483648
  out : List (List Int) := []
  deriving DecidableEq, Repr

/-- What a node's processing remembers (R426): the delay lines by channel, x1, x2, y1, y2 of each EQ section by 8 × channel + section,
the compressor's gain and the ducker's. -/
structure AudDsp where
  delay : List (List Int) := []
  eq : Tab (List Int) := []
  comp : Int := 2147483648
  duck : Int := 2147483648
  deriving DecidableEq, Repr

/-- A node (R424 to R430): its physical node, its settings, the ramp of its TRIM, its processing, the old processing it fades from (with
samples done and in all), whether it is being disabled, its last block and its peak, when it last told of a clip. -/
structure AudNode where
  phys : Nat
  cfg : AudNodeCfg
  trim : Ramp
  dsp : AudDsp
  old : Option (AudNodeCfg × AudDsp × Nat × Nat)
  closing : Bool
  out : List (List Int)
  peak : Nat
  clipAt : Option Nat
  deriving DecidableEq, Repr

/-- A route (R427 to R430): origin, map, gain and ramp time; the ramp of its amplitude, the old origin and map it fades from, whether it
is being removed. -/
structure AudRoute where
  from_ : Nat
  map : List Nat
  gain : Int
  rampMs : Nat
  amp : Ramp
  old : Option (Nat × List Nat × Nat × Nat)
  closing : Bool
  deriving DecidableEq, Repr

/-- A command that waits for a block boundary (R428): AUD_SET_NODE, AUD_SET_ROUTE or AUD_COMMIT with its owner and parameters. -/
structure AudChange where
  owner : Nat
  op : Nat
  params : List Byte
  pk : Pkt
  deriving DecidableEq, Repr

/-- Audio beside its registers: ports, endpoints (sinks from 32), nodes by 128 × owner + number, routes by key, commands waiting, staged
sets by owner. -/
structure AudState where
  ports : Tab AudPort := []
  eps : Tab AudEp := []
  nodes : List (Nat × AudNode) := []
  routes : List (Nat × AudRoute) := []
  changes : List AudChange := []
  staged : Tab (List (Nat × List Byte)) := []
  deriving DecidableEq, Repr
/-- A program in the cache (R200, R202): its owner, its key (digest, then ENTRY, STAGE, formats and samples), the bytes of its code, when it was last
used. -/
structure Prog where
  owner : Nat
  digest : List Byte
  sig : List Nat
  code : Nat
  used : Nat
  deriving DecidableEq, Repr

/-- A pass or dispatch that has been validated (R211, R221): its packet, owner, opcode and parameters; its class; the programs it uses; whether it
has committed and when; the segments begun; the chunks held; when it began to wait for a chunk; whether EV_RND_PARTIAL has been posted. -/
structure Work where
  pk : Pkt
  owner : Nat
  op : Nat
  params : List Byte
  cls : Nat
  progs : List (List Byte × List Nat)
  committed : Bool := false
  start : Nat := 0
  segs : Nat := 0
  chunks : Nat := 0
  waiting : Option Nat := none
  told : Bool := false
  deriving DecidableEq, Repr

/-- The render engine beside its registers: programs, work, a count of uses and waits, the arena's size asked for in MiB, whether
EV_RND_NO_CLUSTER has been posted for the present wait. -/
structure RndState where
  progs : List Prog := []
  works : List Work := []
  stamp : Nat := 0
  goalMib : Nat := 256
  noCluster : Bool := false
  deriving DecidableEq, Repr

/-- A device of the installed map (R494, R495, R508): identifier, address, hop count, the link toward it while its route may go up and once it goes
down, whether it is the fabric manager, whether its host link is up. -/
structure FabDev where
  uid : Nat
  addr : Nat
  hops : Nat
  link : Nat
  linkDown : Nat
  fm : Bool
  hostUp : Bool
  deriving DecidableEq, Repr

/-- A mirror held here of a granule of another device (R137, R498): its home's identifier, handle, granule, copy generation, beats, whether it is
whole. -/
structure Mirror where
  home : Nat
  handle : Nat
  gran : Nat
  copyGen : Nat
  beats : Tab (List Byte) := []
  whole : Bool := false
  deriving DecidableEq, Repr

/-- The fabric beside its registers (R488 to R508): identifiers of the devices that can be reached; discovery flits heard and the number of the next
own one; the peer and the count of resends of one flit on each link; the installed map; for each device ever present the neighbours it had; commands
that wait for a convergence (FAB_SET_ROLE) or for a device to join (FAB_WAKE); deliveries that wait for an acceptance; the relay ring's address,
LOG2_DEPTH and VECTOR; whether the device is a worker, what it holds for its fabric manager and how many entries it dropped; fabric time less the
timebase, what remains to be slewed, the last time flit; mirrors held for other devices. -/
structure FabState where
  reach : List Nat := []
  heard : List Disc := []
  ownSeq : Nat := 0
  peers : Tab Nat := []
  resends : Tab (Nat × Nat) := []
  map : List FabDev := []
  adjacent : Tab (List Nat) := []
  roleWaits : List Pkt := []
  wakeWaits : List (Pkt × Nat) := []
  deliveries : List (Pkt × Nat) := []
  tag : Nat := 0
  relay : Option (Nat × Nat × Nat) := none
  worker : Bool := false
  held : List (Nat × Nat × CqEntry) := []
  heldLost : Nat := 0
  timeOffset : Option Int := none
  slew : Int := 0
  lastTime : Nat := 0
  mirrors : List Mirror := []
  deriving DecidableEq, Repr

/-- Firmware and the boot beside their registers (R558 to R574): the flash's slots A and B; the OTP rollback counters of the Strongroom firmware and of
Damath (R562); what the running slot holds; the version of Damath that runs; the image staged; the switch in progress (its packet and
target, R569); whether a boot waits for XSPI_OWN; whether the next boot is the first since a power-on reset, and whether the session before that reset
ended with a save (R475). -/
structure FwState where
  slotA : Option FwSlot := none
  slotB : Option FwSlot := none
  otpStrg : Nat := 0
  otpDamath : Nat := 0
  run : Option FwSlot := none
  damath : Nat := 0
  staged : Option FwSlot := none
  switch : Option (Pkt × Nat) := none
  ownWait : Bool := false
  cold : Bool := true
  prevClosed : Bool := true
  deriving DecidableEq, Repr


/-- What a power domain, or the steps M (22) and X (23), is doing (Table 16.5): rising through step S1, S2 or S3, which may have been retried (R451), or
dropping, not yet isolated or isolated (R448). -/
inductive Motion where
  | rise (step : Nat) (retried : Bool)
  | drop (isolated : Bool)
  deriving DecidableEq, Repr

/-- A PWR_SET_STATE that drains the device or has committed (R456): its packet and the state it enters. -/
structure StateEntry where
  pk : Pkt
  target : Nat
  committed : Bool
  deriving DecidableEq, Repr

/-- A command that waits for domains to rise (R446, R452): the domains it makes wanted, its voter, the votes it set anew. -/
structure RiseWait where
  pk : Pkt
  need : Nat
  voter : Nat
  votes : Nat
  deriving DecidableEq, Repr

/-- The power controller beside its registers: what moves, the entry to another state, a wake command held during it, when DORMANT began, the main
supplies, when the enables of the main supplies last went low (R584), whether the boot may run (R458), commands that wait for domains to rise or (with the domains named and those no longer wanted) to drop,
whether EV_PCU_XTAL32 is still to be posted (R460), whether the device is OFF. -/
structure PwrState where
  motions : Tab (Option Motion) := []
  entry : Option StateEntry := none
  heldWake : Option Nat := none
  sleptAt : Nat := 0
  mainUp : Bool := false
  lowAt : Option Nat := none
  booting : Bool := false
  riseWaits : List RiseWait := []
  dropWaits : List (Pkt × Nat × Nat) := []
  xtalDue : Bool := false
  off : Bool := false
  deriving DecidableEq, Repr

/-- The performance monitor beside its registers (R533 to R545): settings of the general counters, whose holder and event stand in PMU_CNT_CFG; by holder
(0: the manager) its dumps and its sample ring (handle, LOG2_DEPTH); holders in an episode of lost dumps and of lost samples. -/
structure PmuState where
  cnts : Tab PmuCnt := []
  dumps : Tab (Option PmuDump) := []
  rings : Tab (Option (Nat × Nat)) := []
  lostDump : List Nat := []
  lostSample : List Nat := []
  deriving DecidableEq, Repr

/-- A shader wave halted at a breakpoint (R553): its wave unit, the values live there by lane and SPIR-V result ID. -/
structure WaveHalt where
  unit : Nat
  live : List (Nat × Nat × Nat)
  deriving DecidableEq, Repr

/-- The Crown port beside its registers (R546 to R554): the nonce of a challenge not yet used and the level it is for; the words of the signature received, by
offset; the level being verified; refusals in a row and whether the lockout runs; the request whose result was not ready (its OP, the request, its
status and words); halted waves by cluster; whether the Strongroom core is halted. -/
structure DbgState where
  nonce : Option (List Byte × Nat) := none
  sig : Tab (List Nat) := []
  verifying : Option (List Byte × Nat) := none
  refusals : Nat := 0
  lockout : Bool := false
  again : Option (Nat × CrownFrame × Nat × List Nat) := none
  waves : Tab (Option WaveHalt) := []
  strgHalted : Bool := false
  deriving DecidableEq, Repr


/-- The reasons a step stops with a fault. -/
inductive Fault where
  /-- Raised by a register access outside the 16 MiB of the manager's BAR0 and the pages keyed above it (R43): no such
  address exists. Safe: the model stops where the device has no address. -/
  | noSuchAddress (addr : Nat)
  deriving DecidableEq, Repr

/-- The reasons a command has no meaning. -/
inductive Refusal where
  /-- Raised by the dispatch for a command whose meaning is not written. Safe. -/
  | notModelled (mnemonic : String)
  deriving DecidableEq, Repr

/-- The device. `pending` is the queue of commands that wait, first in, first out; `now` is the timebase (R12);
`freeCount` is the model's own counter of free values (assumption 4); `wideLow` and `wideHigh` hold the halves of 64-bit
quantities of R16; `lastRead` is what the last register read returned; `out` is what the device has written to the
hosts, oldest first. -/
structure State where
  pending : List Instr
  now : Nat
  freeCount : Nat
  regs : Tab Word
  wideLow : Tab (Option Word)
  wideHigh : Tab (Option Word)
  lastRead : Nat
  out : List HostOut
  fns : Tab FnState
  flight : List Flight
  slips : Tab Slip
  rrPos : Nat
  rrTaken : Nat
  insts : InstsState
  shm : ShmState
  mem : MemState
  esc : EscState
  err : ErrState
  ledg : LedgState
  bnd : BndState
  outs : OutsState
  coll : CollState
  strg : StrgState
  hap : HapState
  tch : TchState
  aud : AudState
  rnd : RndState
  fab : FabState
  fw : FwState
  pwr : PwrState
  pmu : PmuState
  dbg : DbgState
  deriving DecidableEq, Repr

/-- The machine right after reset: every register at the Reset column's value (the register list lists only what
differs), no memory written, no instance, nothing queued. -/
def State.reset : State where
  pending := []
  now := 0
  freeCount := 0
  regs := []
  wideLow := []
  wideHigh := []
  lastRead := 0
  out := []
  fns := []
  flight := []
  slips := []
  rrPos := 0
  rrTaken := 0
  insts := {}
  shm := {}
  mem := {}
  esc := {}
  err := {}
  ledg := {}
  bnd := {}
  outs := {}
  coll := {}
  strg := {}
  hap := {}
  tch := {}
  aud := {}
  rnd := {}
  fab := {}
  fw := {}
  pwr := {}
  pmu := {}
  dbg := {}

end Sys2Proof.Machine
end

