-- ==== Sys2Proof/Machine/Ops.lean ====
section
/-! DEFINITION. The operations every chapter shares: registers and counters, the functions and their rings, replies
and notices (R56 to R59, R67, R602), the packets in flight (R57, R64, R65), objects and their bytes, slips that break
(R71), the Ledger's records (R476) and the error collector (R516 to R519). -/

namespace Sys2Proof.Machine

/-! ### Registers -/

/-- The value of the register at address `a`. -/
def State.reg (s : State) (a : Nat) : Nat := (tabGet resetValue s.regs a).toNat

/-- `s` with the register at `a` holding the low 32 bits of `v`. -/
def State.setReg (s : State) (a v : Nat) : State :=
  { s with regs := tabSet resetValue s.regs a (BitVec.ofNat 32 v) }

/-- A field of a register. -/
def State.getF (s : State) (a : Nat) (f : Fld) : Nat := bits (s.reg a) f.hi f.lo

/-- `s` with a field of a register set. -/
def State.setF (s : State) (a : Nat) (f : Fld) (v : Nat) : State := s.setReg a (setBits (s.reg a) f.hi f.lo v)

/-- `s` with the 64-bit quantity whose low word is at `a` set (R16). -/
def State.setReg64 (s : State) (a v : Nat) : State := (s.setReg a v).setReg (a + 4) (v / 2 ^ 32)

/-- The 64-bit quantity whose low word is at `a` (R16). -/
def State.reg64 (s : State) (a : Nat) : Nat := s.reg a + 2 ^ 32 * s.reg (a + 4)

/-- `s` with `n` added to the saturating counter register at `a`. -/
def State.count (s : State) (a : Nat) (n : Nat := 1) : State := s.setReg a (satAdd 0xFFFFFFFF (s.reg a) n)

/-- `s` with `n` added to a saturating counter field. -/
def State.countF (s : State) (a : Nat) (f : Fld) (n : Nat := 1) : State :=
  s.setF a f (satAdd (2 ^ (f.hi + 1 - f.lo) - 1) (s.getF a f) n)

/-- `s` with bit `n` of the register at `a` set to `b`. -/
def State.setBit (s : State) (a n : Nat) (b : Bool) : State := s.setReg a (setBits (s.reg a) n n (b2n b))

/-- A value the spec leaves open, and the state in which the next one differs (assumption 4). -/
def State.fresh (s : State) : Nat × State :=
  ((Config.free s.freeCount).toNat, { s with freeCount := s.freeCount + 1 })

/-! ### Functions, instances and ports -/

/-- The physical function that is the manager: that of HP0 (index 0) while ROLE is 0, else that of HP1 (index 65)
(R99, Table 3.21). -/
def State.mgrFn (s : State) : Nat := if s.getF INST_MGR_STATUS INST_MGR_STATUS_ROLE = 0 then 0 else 65

/-- The physical function that is the standby manager (R97). -/
def State.standbyFn (s : State) : Nat := 65 - s.mgrFn

/-- The function that stands for the fabric manager's packets on a worker (R501). -/
def fabricFn : Nat := 66

/-- Whose objects, slips and grants a function uses: 0 for the manager, whichever physical function it is (R99), and for the fabric manager, which
acts with its rights (R501). -/
def State.ownerOf (s : State) (fn : Nat) : Nat := if fn = s.mgrFn ∨ fn = fabricFn then 0 else fn

/-- The function that stands for owner `o`. -/
def State.fnOf (s : State) (o : Nat) : Nat := if o = 0 then s.mgrFn else o

/-- What a function has beside its registers. -/
def State.fnState (s : State) (fn : Nat) : FnState := tabGet (fun _ => {}) s.fns fn

/-- `s` with a function's state changed. -/
def State.setFn (s : State) (fn : Nat) (x : FnState) : State := { s with fns := tabSet (fun _ => {}) s.fns fn x }

/-- Instance `n`. -/
def State.inst (s : State) (n : Nat) : Inst := tabGet (fun _ => {}) s.insts.insts n

/-- `s` with instance `n` changed. -/
def State.setInst (s : State) (n : Nat) (x : Inst) : State :=
  { s with insts := { s.insts with insts := tabSet (fun _ => {}) s.insts.insts n x } }

/-- Is `fn` the index of an instance? -/
def isInst (fn : Nat) : Bool := decide (1 ≤ fn) && decide (fn ≤ 64)

/-- The function index of virtual function `vf` of a port that no instance is bound to (assumption 2). -/
def unboundFn (port vf : Nat) : Nat := 128 + 64 * port + (vf - 1)

/-- The host port of a function (R41); that of the fabric manager's packets is one that is up (R501). -/
def State.portOf (s : State) (fn : Nat) : Nat :=
  if fn = 65 then 1 else if isInst fn then (s.inst fn).port else if 128 ≤ fn then (fn - 128) / 64
  else if fn = fabricFn ∧ s.getF (HOST_LINK_STATUS 0) HOST_LINK_STATUS_UP = 0 then 1 else 0

/-- Is the link of the function's port up (R602)? -/
def State.linkUp (s : State) (fn : Nat) : Bool :=
  s.getF (HOST_LINK_STATUS (s.portOf fn)) HOST_LINK_STATUS_UP = 1

/-- The instance bound to a virtual function of a port, if any (R40). -/
def State.boundInst (s : State) (port vf : Nat) : Option Nat :=
  (s.insts.insts.find? (fun p => p.2.state ≠ .absent ∧ p.2.port = port ∧ p.2.vf = vf)).map Prod.fst

/-- The instances that exist. -/
def State.liveInsts (s : State) : List Nat :=
  (s.insts.insts.filter (fun p => p.2.state ≠ .absent)).map Prod.fst

/-- Is the instance of this owner stopped for its tenant: FREEZING or FROZEN (R101)? -/
def State.isFrozen (s : State) (fn : Nat) : Bool :=
  isInst fn && ((s.inst fn).state = .freezing || (s.inst fn).state = .frozen)

/-- Does the owner hold the right to C1 (R36)? -/
def State.c1Right (s : State) (owner : Nat) : Bool := owner = 0 || (s.inst owner).c1

/-- What an owner may use of the pool: an instance's grant. -/
def State.grantOf (s : State) (owner : Nat) : Grant := (s.inst owner).grant

/-- Is the Clerk halted for good, or is the device in the safe state (R522, R524)? -/
def State.clerkStopped (s : State) : Bool :=
  s.err.safe || s.getF HOST_ERR_STATUS HOST_ERR_STATUS_CLRK_DOWN = 1

/-- Does the Clerk run: neither halted nor restarting (R522, R524), nor switching Damath (R570)? -/
def State.clerkRuns (s : State) : Bool := !s.clerkStopped && !s.err.restarting && !s.fw.switch.any (fun x => decide (x.2 = 0))

/-! ### Completion rings (R46 to R59, R67, R602) -/

/-- Is the completion ring enabled? -/
def State.cqOn (s : State) (fn : Nat) : Bool := s.getF (CLRK_CQ_CTRL fn) CLRK_CQ_CTRL_EN = 1

/-- The depth D of the completion ring: the field cannot change while EN is 1 (R48). -/
def State.cqDepth (s : State) (fn : Nat) : Nat := 2 ^ s.getF (CLRK_CQ_CTRL fn) CLRK_CQ_CTRL_LOG2_DEPTH

/-- Packets of a function that hold a reservation: those in flight, and replies held (R49, R57). -/
def State.reserved (s : State) (fn : Nat) : Nat :=
  (s.flight.filter (fun f => f.pk.fn = fn ∧ f.pk.ring < 3 ∧ ¬ f.orphan)).length + (s.fnState fn).heldReplies.length

/-- Slots of the completion ring the host has freed and the device has not filled (R47). -/
def State.freeSlots (s : State) (fn : Nat) : Nat :=
  s.cqDepth fn - (BitVec.ofNat 32 (s.reg (CLRK_CQ_TAIL fn)) - (s.fnState fn).cqHead).toNat

/-- Slots that are free and not reserved (R58). -/
def State.spareSlots (s : State) (fn : Nat) : Nat := s.freeSlots fn - s.reserved fn

/-- `s` with one more thing written to the host. -/
def State.emit (s : State) (o : HostOut) : State := { s with out := s.out ++ [o] }

/-- The vector CLRK_VECMAP gives for a class (Table 2.23). -/
def State.vectorOf (s : State) (fn cls : Nat) : Nat :=
  bits (s.reg (CLRK_VECMAP fn (cls / 6))) (5 * (cls % 6) + 4) (5 * (cls % 6))

/-- Send the message of vector 0 for the replies not yet signalled (R67). -/
def State.signalReplies (s : State) (fn : Nat) : State :=
  (s.setFn fn { s.fnState fn with unsignalled := 0 }).emit (.msix fn 0)

/-- Write one entry (R59): the entry, the tail count, the tail write-back, then the interrupt: for a reply moderated
by COAL_COUNT, for a notice the vector of its class at once (R67). -/
def State.writeEntry (s : State) (fn : Nat) (e : CqEntry) : State :=
  let t := s.reg (CLRK_CQ_TAIL fn)
  let t' := (t + 1) % 2 ^ 32
  let s := (s.emit (.entry fn (t % s.cqDepth fn) e)).setReg (CLRK_CQ_TAIL fn) t'
  let s := if s.getF (CLRK_CQ_CTRL fn) CLRK_CQ_CTRL_WB_EN = 1 then s.emit (.tail fn t') else s
  match e with
  | .reply .. =>
    let n := (s.fnState fn).unsignalled + 1
    let s := s.setFn fn { s.fnState fn with unsignalled := n }
    if s.getF (CLRK_CQ_CTRL fn) CLRK_CQ_CTRL_COAL_COUNT ≤ n then s.signalReplies fn else s
  | .notice _ code .. => s.emit (.msix fn (s.vectorOf fn (bits code 11 8)))

/-- May entries be written now: the ring enabled, the link up and the Clerk running (R49, R522, R602)? -/
def State.canWrite (s : State) (fn : Nat) : Bool := s.cqOn fn && s.linkUp fn && s.clerkRuns

/-- Post a status reply: written at once if it can be and none is held before it, else held; none is ever dropped
(R49, R57, R602). -/
def State.pushReply (s : State) (fn : Nat) (e : CqEntry) : State :=
  if s.canWrite fn && decide ((s.fnState fn).heldReplies = []) && decide (0 < s.freeSlots fn) then s.writeEntry fn e
  else s.setFn fn { s.fnState fn with heldReplies := (s.fnState fn).heldReplies ++ [e] }

/-- Count a notice that finds no slot (R58). -/
def State.dropNotice (s : State) (fn : Nat) : State :=
  (s.setFn fn { s.fnState fn with lost := (s.fnState fn).lost + 1 }).count (CLRK_EV_DROP_COUNT fn)

/-- A notice of a function with the next COUNT (Table 2.19), and the state in which it has been counted. -/
def State.mkNotice (s : State) (fn code detail data0 data1 : Nat) : CqEntry × State :=
  let c := ((s.fnState fn).noticeCount + 1) % 2 ^ 32
  (.notice c code (detail % 2 ^ 16) s.now (data0 % 2 ^ 64) (data1 % 2 ^ 64),
    s.setFn fn { s.fnState fn with noticeCount := c })

/-- EV_CLRK_EVENT_LOST (Table 2.28). -/
def evEventLost : Nat := 0x8002

/-- Write a counted notice into a slot that is free and not reserved, or drop it (R58). -/
def State.writeNotice (s : State) (fn : Nat) (e : CqEntry) : State :=
  if 0 < s.spareSlots fn then s.writeEntry fn e else s.dropNotice fn

/-- Before a later notice, tell how many were dropped (R58). -/
def State.writeLost (s : State) (fn : Nat) : State :=
  if 0 < (s.fnState fn).lost ∧ 0 < s.spareSlots fn then
    let n := s.mkNotice fn evEventLost 0 (s.fnState fn).lost 0
    (n.2.writeEntry fn n.1).setFn fn { (n.2.writeEntry fn n.1).fnState fn with lost := 0 }
  else s

/-- Post an event notice to a function (R58, R101, R602): nothing reaches an ABSENT instance, nor anyone while the
Clerk is halted or the device is in the safe state (R532); a ring never enabled since its reset drops it; it is held
while the function's ring is disabled, its link is down or its instance is frozen (then up to 256). -/
def State.post (s : State) (fn code detail data0 data1 : Nat) : State :=
  if s.clerkStopped || (isInst fn && decide ((s.inst fn).state = .absent)) then s
  else
    if ¬ (s.fnState fn).cqEver then (s.mkNotice fn code detail data0 data1).2.dropNotice fn
    else if s.isFrozen fn ∧ 256 ≤ (s.fnState fn).heldNotices.length then
      (s.mkNotice fn code detail data0 data1).2.dropNotice fn
    else if s.isFrozen fn ∨ ¬ s.canWrite fn then
      let n := s.mkNotice fn code detail data0 data1
      n.2.setFn fn { n.2.fnState fn with heldNotices := (n.2.fnState fn).heldNotices ++ [n.1] }
    else
      let s := s.writeLost fn
      let n := s.mkNotice fn code detail data0 data1
      if 0 < (s.fnState fn).lost then n.2.dropNotice fn else n.2.writeNotice fn n.1

/-- What a worker sends its fabric manager (R503): at once while one is present, else held, up to 256 entries, and then dropped and counted. -/
def State.toFabricManager (s : State) (kind tag : Nat) (e : CqEntry) : State :=
  if s.getF FAB_STATUS FAB_STATUS_FM_PRESENT = 1 ∧ s.getF FAB_STATUS FAB_STATUS_CONVERGING = 0 ∧ s.fab.held = [] then
    let s := if s.fab.heldLost = 0 then s else { (s.emit (.fabricLost s.fab.heldLost)) with fab := { s.fab with heldLost := 0 } }
    s.emit (.fabric kind tag e)
  else if s.fab.held.length < 256 then { s with fab := { s.fab with held := s.fab.held ++ [(kind, tag, e)] } }
  else { s with fab := { s.fab with heldLost := s.fab.heldLost + 1 } }

/-- Post a notice to the manager; a worker sends its fabric manager a copy while RELAY_EV is set (R503). -/
def State.postMgr (s : State) (code detail data0 data1 : Nat) : State :=
  let s := s.post s.mgrFn code detail data0 data1
  if s.fab.worker ∧ s.getF FAB_CTRL FAB_CTRL_RELAY_EV = 1 ∧ ¬ s.clerkStopped then
    s.toFabricManager 2 0 (.notice (s.fnState s.mgrFn).noticeCount code (detail % 2 ^ 16) s.now (data0 % 2 ^ 64) (data1 % 2 ^ 64))
  else s

/-- Write held replies, in order, while slots are free (R49). -/
def State.flushReplies : Nat → State → Nat → State
  | 0, s, _ => s
  | n + 1, s, fn =>
    match (s.fnState fn).heldReplies with
    | [] => s
    | e :: r =>
      if s.canWrite fn && decide (0 < s.freeSlots fn) then
        flushReplies n ((s.setFn fn { s.fnState fn with heldReplies := r }).writeEntry fn e) fn
      else s

/-- Write held notices, in order, each into a slot that is free and not reserved or dropped (R49, R58). -/
def State.flushNotices : Nat → State → Nat → State
  | 0, s, _ => s
  | n + 1, s, fn =>
    match (s.fnState fn).heldNotices with
    | [] => s
    | e :: r => flushNotices n ((s.setFn fn { s.fnState fn with heldNotices := r }).writeNotice fn e) fn

/-- Write what is held for a function once it can be: the replies first, then, when none is left and its instance is
not frozen, the notices (R49, R101, R602). -/
def State.flushHeld (s : State) (fn : Nat) : State :=
  if s.canWrite fn then
    let s := s.flushReplies (s.fnState fn).heldReplies.length fn
    if decide ((s.fnState fn).heldReplies = []) && !s.isFrozen fn then
      s.flushNotices (s.fnState fn).heldNotices.length fn
    else s
  else s

/-- A register write is discarded whole and counted (R14): HOST_BAD_WRITE_COUNT and EV_HOST_BAD_WRITE. -/
def State.badWrite (s : State) (fn addr : Nat) : State := (s.count HOST_BAD_WRITE_COUNT).postMgr 0x8003 fn addr 0

/-! ### Packets in flight (R57, R61, R64, R65) -/

/-- FENCE, WANT_REPLY, BY_HANDLE (Table 2.16). -/
def fenced (pk : Pkt) : Bool := bit pk.flags.toNat 0
def wantsReply (pk : Pkt) : Bool := bit pk.flags.toNat 1
def usesBlock (pk : Pkt) : Bool := bit pk.flags.toNat 2

/-- The number in `size` parameter bytes at packet offset `off` (at least 16). -/
def par (p : List Byte) (off size : Nat) : Nat := leNat (slice p (off - 16) size)

/-- The packet's place among those in flight. -/
def State.flightOf (s : State) (pk : Pkt) : Option Flight := s.flight.find? (fun f => f.pk = pk)

/-- The list without its first element that satisfies `p`. -/
def dropFirst {α : Type} (p : α → Bool) : List α → List α
  | [] => []
  | x :: r => if p x then r else x :: dropFirst p r

/-- The list with its first element that satisfies `p` changed. -/
def changeFirst {α : Type} (p : α → Bool) (g : α → α) : List α → List α
  | [] => []
  | x :: r => if p x then g x :: r else x :: changeFirst p g r

/-- The code of a status (Table 0.6). -/
def statusCode : Status → Nat
  | .ok => 0
  | .badOpcode => 0x0101
  | .badLength => 0x0102
  | .outOfRange => 0x0103
  | .notPermitted => 0x0104
  | .noResource => 0x0105
  | .busy => 0x0106
  | .timedOut => 0x0107
  | .aborted => 0x0108
  | .frozen => 0x0109
  | .dependencyFailed => 0x010A
  | .staleGeneration => 0x010B
  | .integrityFail => 0x010C
  | .brokenLock => 0x010D
  | .wakeFailed => 0x010E
  | .linkDown => 0x010F
  | .versionMismatch => 0x0110
  | .faulted => 0x0111

/-- An entry as its 32 bytes (Tables 2.18 and 2.19). -/
def entryBytes : CqEntry → List Byte
  | .reply seq st detail time r0 r1 =>
    leBytes 4 seq ++ leBytes 2 (statusCode st) ++ leBytes 2 detail ++ leBytes 8 time ++ leBytes 8 r0 ++ leBytes 8 r1
  | .notice count code detail time d0 d1 =>
    leBytes 4 count ++ leBytes 2 code ++ leBytes 2 detail ++ leBytes 8 time ++ leBytes 8 d0 ++ leBytes 8 d1

/-- The ring number of a packet that came through the direct request window of the Strongroom (R354). -/
def windowRing : Nat := 3

/-- The ring of a packet; the fabric manager's packets run as on one ring, and carry their TAG in its place (R501). -/
def ringOf (pk : Pkt) : Nat := if pk.fn = fabricFn then 1 else pk.ring

/-- The reply to the direct request window (R354): its words in STRG_REQ_REPLY, DONE set, BUSY clear. -/
def State.windowReply (s : State) (e : CqEntry) : State :=
  (((List.range 8).foldl (fun t i => t.setReg (STRG_REQ_REPLY i) (leNat (slice (entryBytes e) (4 * i) 4))) s).setF
    STRG_REQ_STATUS STRG_REQ_STATUS_DONE 1).setF STRG_REQ_STATUS STRG_REQ_STATUS_BUSY 0

/-- A packet completes: it leaves flight, which releases its reservation, and its reply is written if the status is
not OK or WANT_REPLY is set (R57); a packet whose ring set has been reset since gets none (R87). A packet of the direct
window answers there (R354), one of the fabric manager over the fabric (R501). -/
def State.complete (s : State) (pk : Pkt) (st : Status) (detail : Nat := 0) (r0 : Nat := 0) (r1 : Nat := 0) : State :=
  let orphan := match s.flightOf pk with
    | some f => f.orphan
    | none => false
  let s := { s with flight := dropFirst (fun f => decide (f.pk = pk)) s.flight }
  let e := CqEntry.reply pk.seq st (detail % 2 ^ 16) s.now (r0 % 2 ^ 64) (r1 % 2 ^ 64)
  if pk.ring = windowRing then s.windowReply e
  else if orphan || (decide (st = .ok) && !wantsReply pk) then s
  else if pk.fn = fabricFn then s.toFabricManager 1 pk.ring e
  else s.pushReply pk.fn e

/-- The packet is in flight from now on, if it was not (a command may stand for its own fetch), and the objects it names are known. -/
def State.letIn (s : State) (op : Nat) (pk : Pkt) (block : List Byte) (names writes : List Nat) : State :=
  if (s.flightOf pk).isSome then
    { s with flight := changeFirst (fun f => decide (f.pk = pk)) (fun f => if f.seen then f else { f with names := names, writes := writes, seen := true }) s.flight }
  else { s with flight := s.flight ++ [⟨op, pk, block, false, false, names, writes, true⟩] }

/-- A packet fetched from a ring is in flight (R57); what it names is not known until its parameters are looked at. -/
def State.fetched (s : State) (op : Nat) (pk : Pkt) (block : List Byte) : State :=
  { s with flight := s.flight ++ [⟨op, pk, block, false, false, [], [], false⟩] }

/-- The packet has committed (R61): its timeout no longer applies (R66). -/
def State.commit (s : State) (pk : Pkt) : State :=
  { s with flight := changeFirst (fun f => decide (f.pk = pk)) (fun f => { f with committed := true }) s.flight }

/-- The packet writes these objects from now on (R64). -/
def State.noteWrites (s : State) (pk : Pkt) (hs : List Nat) : State :=
  { s with flight := changeFirst (fun f => decide (f.pk = pk)) (fun f => { f with writes := f.writes ++ hs }) s.flight }

/-- The packets fetched before this one. -/
def State.earlier (s : State) (pk : Pkt) : List Flight := s.flight.takeWhile (fun f => decide (f.pk ≠ pk))

/-- Is a packet fetched earlier from the ring of `pk` still in flight? -/
def State.fencePending (s : State) (pk : Pkt) : Bool :=
  (s.earlier pk).any (fun f => decide (f.pk.fn = pk.fn) && decide (ringOf f.pk = ringOf pk))

/-- Must the packet wait for a fence (R65): its own, while an earlier packet of its ring has not completed, or that of a
packet before it on its ring which still waits? -/
def State.fenceHolds (s : State) (pk : Pkt) : Bool :=
  (fenced pk && s.fencePending pk) ||
    (s.earlier pk).any (fun f => fenced f.pk && decide (f.pk.fn = pk.fn) && decide (ringOf f.pk = ringOf pk) &&
      s.fencePending f.pk)

/-- Must the packet wait for an earlier-fetched packet of its function that writes an object it names, or has not been looked at (R64)? -/
def State.hazard (s : State) (pk : Pkt) (objects : List Nat) : Bool :=
  (s.earlier pk).any (fun f => decide (f.pk.fn = pk.fn) && (!f.seen || f.writes.any (fun h => objects.contains h)))

/-- Must the packet wait for an earlier-fetched packet of its function that uses an object (R117)? -/
def State.stillUsed (s : State) (pk : Pkt) (h : Nat) : Bool :=
  (s.earlier pk).any (fun f => decide (f.pk.fn = pk.fn) && f.names.contains h)

/-- Complete every uncommitted packet that satisfies `p`, in fetch order, with one status (R87, R520 to R522). -/
def State.completeAll (s : State) (p : Flight → Bool) (st : Status) (detail : Nat) : State :=
  (s.flight.filter (fun f => !f.committed && p f)).foldl (fun t f => t.complete f.pk st detail) s

/-! ### Objects -/

/-- The Shelfmark Table entry with this index. -/
def State.shelf (s : State) (i : Nat) : ShelfEntry := tabGet (fun _ => {}) s.shm.entries i

/-- `s` with an entry of the Shelfmark Table changed. -/
def State.setShelf (s : State) (i : Nat) (e : ShelfEntry) : State :=
  { s with shm := { s.shm with entries := tabSet (fun _ => {}) s.shm.entries i e } }

/-- The index of a handle (Table 4.1). -/
def handleIndex (h : Nat) : Nat := bits h 31 20

/-- The object a handle names, if the handle is current (R111). -/
def State.obj? (s : State) (h : Nat) : Option Obj :=
  if (s.shelf (handleIndex h)).gen = bits h 19 0 then (s.shelf (handleIndex h)).obj else none

/-- The size of the object a handle names, 0 if none. -/
def State.objSize (s : State) (h : Nat) : Nat := ((s.obj? h).map (fun o => o.desc.size)).getD 0

/-- The USAGE of the object a handle names. -/
def State.objUsage (s : State) (h : Nat) : Nat := ((s.obj? h).map (fun o => o.desc.usage)).getD 0

/-- `s` with the object at an index changed. -/
def State.setObj (s : State) (i : Nat) (g : Obj → Obj) : State :=
  s.setShelf i { s.shelf i with obj := (s.shelf i).obj.map g }

/-- A granule of an object. -/
def Obj.gran (o : Obj) (g : Nat) : Gran := tabGet (fun _ => {}) o.grans g

/-- An object with one granule changed. -/
def Obj.setGran (o : Obj) (g : Nat) (x : Gran) : Obj := { o with grans := tabSet (fun _ => {}) o.grans g x }

/-- The granules of `n` bytes from offset `off`. -/
def granRange (off n : Nat) : List Nat :=
  if n = 0 then [] else (List.range ((off + n - 1) / 65536 + 1 - off / 65536)).map (fun i => off / 65536 + i)

/-- Where byte `off` of the object with index `i` is kept in `mem.data` (assumption 6). -/
def cellAddr (i off : Nat) : Nat := i * 2 ^ 40 + off

/-- What memory reads where nothing has been written: an object reads as zero until it is written (R116). -/
def unwritten (_ : Nat) : Byte := 0

/-- What is added to the stored bytes of an object whose contents became undefined (R223): a free value for each byte; a byte written after that
reads as written. -/
def State.openByte (s : State) (i off : Nat) : Byte :=
  match tabGet (fun _ => 0) s.mem.spoiled i with
  | 0 => 0
  | k + 1 => Config.freeByte k off

/-- The contents of the object at an index are undefined from now on (R223). -/
def State.spoil (s : State) (i : Nat) : State :=
  { s with freeCount := s.freeCount + 1, mem := { s.mem with spoiled := tabSet (fun _ => 0) s.mem.spoiled i (s.freeCount + 1) } }

/-- One byte of an object as a reader receives it: what is stored, changed by what a stored error leaves after decoding
(R167, R168). -/
def State.objByte (s : State) (i off : Nat) : Byte :=
  tabGet unwritten s.mem.data (cellAddr i off) ^^^ s.openByte i off ^^^
    (residual (tabGet (fun _ => []) s.mem.errors (cellAddr i off / 32))).getD (off % 32) 0

/-- Bytes of an object. -/
def State.objBytes (s : State) (i off n : Nat) : List Byte := (List.range n).map (fun k => s.objByte i (off + k))

/-- `s` with bytes of an object stored. -/
def State.putBytes (s : State) (i off : Nat) (bs : List Byte) : State :=
  { s with mem := { s.mem with
      data := tabPut unwritten s.mem.data (cellAddr i off) ((bs.zipIdx off).map (fun x => x.1 ^^^ s.openByte i x.2)) } }

/-- The 64-byte lines of granule `g` that `n` bytes from `off` touch (R126). -/
def linesOf (off n g : Nat) : List Nat :=
  (List.range 1024).filter (fun l =>
    decide (off < 65536 * g + 64 * l + 64) && decide (65536 * g + 64 * l < off + n))

/-- A move with the lines a write touches marked in its dirty map, while its copy passes run (R126). -/
def Move.mark (m : Move) (i off n : Nat) : Move :=
  if m.index = i ∧ ¬ m.hold then
    { m with dirty := (List.range 1024).filter (fun l => m.dirty.contains l || (linesOf off n m.gran).contains l) }
  else m

/-- `s` with granules of an object marked written, their traffic counted, their mirrors to be updated, and the dirty maps of their moves updated (R116,
R122, R126, R137). -/
def State.touch (s : State) (i off n : Nat) : State :=
  let s := s.setObj i (fun o => (granRange off n).foldl (fun o g =>
    o.setGran g { o.gran g with
      written := true, traffic := (o.gran g).traffic + min n 65536, shadow := none, behind := (o.gran g).mirrors }) o)
  { s with shm := { s.shm with moves := s.shm.moves.map (fun m => m.mark i off n) } }

/-- A write to mirrored granules is forwarded to each peer that mirrors one of them (R137, R498). -/
def State.forwardWrite (s : State) (i off : Nat) (bs : List Byte) : State :=
  match (s.shelf i).obj with
  | some o =>
    ((granRange off bs.length).flatMap (fun g => (o.gran g).mirrors)).eraseDups.foldl (fun (t : State) p =>
      t.emit (.mirrorWrite p o.desc.handle off bs)) s
  | none => s

/-- Write bytes of an object: whole beats replaced lose their stored errors (R170). -/
def State.writeObj (s : State) (i off : Nat) (bs : List Byte) : State :=
  let s := ((s.putBytes i off bs).touch i off bs.length).forwardWrite i off bs
  { s with mem := { s.mem with
      errors := tabDropRange s.mem.errors (cellAddr i (32 * ceilDiv off 32) / 32) (cellAddr i (off + bs.length) / 32) } }

/-- The fresh handle of an index (Table 4.1). -/
def mkHandle (i gen : Nat) : Nat := i * 2 ^ 20 + gen

/-- The generation after `g` (R111). -/
def nextGen (g : Nat) : Nat := if g = 0xFFFFF then 1 else g + 1

/-! ### The Ledger's records (R476) -/

/-- The calendar in seconds (R480). -/
def State.calendar (s : State) : Nat := (((s.now : Int) + s.ledg.offset) / 10 ^ 9).toNat

/-- The length of a record: header, payload, padding, CRC (Table 17.4). -/
def LedgRec.length (r : LedgRec) : Nat := max 32 (8 * ceilDiv (28 + r.payload.length) 8)

/-- Is the type kept in HISTORY (Table 17.5)? -/
def inHistory (typ : Nat) : Bool := [0x06, 0x07, 0x08, 0x0B].contains typ

/-- Drop the oldest records of LIVE that no longer fit, copying forward one that is still the newest of its kind: its
type and the output, channel or controller its payload begins with (R476). -/
def trimLive : Nat → List LedgRec → Nat → List LedgRec × Nat
  | 0, rs, used => (rs, used)
  | n + 1, rs, used =>
    if used ≤ 0x200000 then (rs, used)
    else match rs with
      | [] => ([], used)
      | r :: rest =>
        if rest.any (fun q => decide (q.typ = r.typ) && decide (q.payload.take 1 = r.payload.take 1 ∨
            ¬ [0x02, 0x03, 0x04, 0x05].contains r.typ)) then trimLive n rest (used - r.length)
        else trimLive n (rest ++ [r]) used

/-- Drop the oldest records of HISTORY that no longer fit (R476). -/
def trimHistory : Nat → List LedgRec → Nat → List LedgRec × Nat
  | 0, rs, used => (rs, used)
  | n + 1, rs, used =>
    if used ≤ 0x600000 then (rs, used)
    else match rs with
      | [] => ([], used)
      | r :: rest => trimHistory n rest (used - r.length)

/-- Write a record: SEQ rises by one across both partitions and LEDG_SEQ shows the next (R476, Table 17.12). -/
def State.ledgAppend (s : State) (typ : Nat) (payload : List Byte) (saved : Bool := false) (valid : Bool := true) : State :=
  let l := s.ledg
  let r : LedgRec := ⟨typ, saved, s.getF LEDG_STATUS LEDG_STATUS_CAL_VALID = 0, l.nextSeq, s.calendar, s.now, payload, valid⟩
  let l := { l with nextSeq := (l.nextSeq + 1) % 2 ^ 32 }
  let l :=
    if inHistory typ then
      let t := trimHistory (l.history.length + 1) (l.history ++ [r]) (l.historyUsed + r.length)
      { l with history := t.1, historyUsed := t.2 }
    else
      let t := trimLive (2 * l.live.length + 2) (l.live ++ [r]) (l.liveUsed + r.length)
      { l with live := t.1, liveUsed := t.2, liveWritten := l.liveWritten + r.length }
  let s := { s with ledg := l }
  (s.setReg LEDG_SEQ l.nextSeq).setReg LEDG_LIVE_PASS (l.liveWritten / 0x200000)

/-- A POWER_EVENT record (Table 17.5); wake failures are counted for the COUNTERS record. -/
def State.powerEvent (s : State) (kind domain step : Nat) : State :=
  let s := if kind = 1 then { s with ledg := { s.ledg with wakeFails := s.ledg.wakeFails + 1 } } else s
  s.ledgAppend 0x08 (leBytes 1 kind ++ leBytes 1 domain ++ leBytes 1 step ++ leBytes 5 0)

/-! ### The error collector (R514 to R519) -/

/-- The 32 bytes of an error record (Table 19.2). -/
def ErrRec.bytes (r : ErrRec) : List Byte :=
  leBytes 2 (r.subsys * 1024 + r.unit) ++ leBytes 1 (b2n r.escalated * 8 + b2n r.acked * 4 + r.tier) ++
    leBytes 1 r.code ++ leBytes 1 r.inst ++ leBytes 1 r.rpt ++ leBytes 2 r.seq ++ leBytes 8 r.time ++
    leBytes 8 r.info0 ++ leBytes 4 r.info1 ++ leBytes 4 (min 0xFFFFFFFF ((r.last - r.time) / 1000))

/-- The smallest element under a key, the first of equals. -/
def minBy {α : Type} (key : α → Nat) : List α → Option α
  | [] => none
  | x :: r =>
    match minBy key r with
    | none => some x
    | some y => if key y < key x then some y else some x

/-- The slot a new record of a tier takes (R516): the lowest empty one, else that of the oldest acknowledged record,
else that of the oldest record of the lowest tier present if that tier is not above the new one's. The flag says
whether an unacknowledged record is evicted. -/
def errSlot (slots : Tab ErrRec) (tier : Nat) : Option (Nat × Bool) :=
  match (List.range 64).find? (fun k => ¬ slots.any (fun p => p.1 = k)) with
  | some k => some (k, false)
  | none =>
    match minBy (fun p : Nat × ErrRec => p.2.time) (slots.filter (fun p => p.2.acked)) with
    | some p => some (p.1, false)
    | none =>
      match minBy (fun p : Nat × ErrRec => p.2.tier * 2 ^ 80 + p.2.time) slots with
      | some p => if p.2.tier ≤ tier then some (p.1, true) else none
      | none => none

/-- The T2 faults a unit may have in a second before it is reset (Table 19.5), by subsystem: clusters, pipes and the C0
path, copy engines, host DMA, the audio engine 4; outputs 8; links 1; the Strongroom 3; the others have no limit. -/
def t2Limit (subsys : Nat) : Option Nat :=
  if [5, 7, 4, 1, 16].contains subsys then some 4
  else if subsys = 8 then some 8
  else if subsys = 12 then some 1
  else if subsys = 13 then some 3
  else none

/-- Does this T2 fault, now, cross the unit's limit (R518)? -/
def State.crossesLimit (s : State) (subsys unit : Nat) : Bool :=
  match t2Limit subsys with
  | none => false
  | some l =>
    decide (l < (s.err.t2Faults.filter (fun p => p.1 = subsys ∧ p.2.1 = unit ∧ s.now < p.2.2 + 10 ^ 9)).length + 1)

/-- Tell the manager of a new record or a raised tier (R519, R532): the vector of HOST_ERR_CTRL while the manager's link
is up, and EV_HOST_ERROR while the Clerk runs; a T3 record stands in the journal once the Clerk is halted (Table 19.6), so it
posts no notice. -/
def State.tellError (s : State) (slot : Nat) (r : ErrRec) : State :=
  let s := if s.linkUp s.mgrFn then s.emit (.msix s.mgrFn (s.getF HOST_ERR_CTRL HOST_ERR_CTRL_VECTOR)) else s
  if s.clerkRuns ∧ s.err.trigger = none then s.postMgr 0x8007 slot (leNat (r.bytes.take 8)) r.info0 else s

/-- The journal's record of a slot. -/
def State.errRec? (s : State) (slot : Nat) : Option ErrRec := (s.err.slots.find? (fun p => p.1 = slot)).map Prod.snd

/-- The default record behind an empty slot; no slot ever holds it. -/
def noErr : ErrRec := ⟨0, 0, 0, 0, 0, 0, 0, 0, 0, 0, 0, false, false⟩

/-- The outcome of recording a fault: the SEQ of its record. -/
structure Recorded where
  state : State
  seq : Nat

/-- A T2 fault counts toward its unit's limit for one second (Table 19.5). -/
def State.noteT2 (s : State) (subsys unit tier : Nat) : State :=
  if tier = 2 then
    { s with err := { s.err with t2Faults := (subsys, unit, s.now) :: s.err.t2Faults.filter (fun p => decide (s.now < p.2.2 + 10 ^ 9)) } }
  else s

/-- A T3 fault asks for the safe state (R524). -/
def State.noteT3 (s : State) (tier code : Nat) : State :=
  if tier = 3 ∧ s.err.trigger = none then { s with err := { s.err with trigger := some code } } else s

/-- A record's place in the journal is filled. -/
def State.setRec (s : State) (slot : Nat) (r : ErrRec) : State :=
  { s with err := { s.err with slots := tabSet (fun _ => noErr) s.err.slots slot r } }

/-- The Ledger takes a T2 or T3 record at once (R513); one of a lower tier is held for the save. -/
def State.ledgRecord (s : State) (r : ErrRec) : State :=
  if 2 ≤ r.tier then s.ledgAppend 0x06 r.bytes
  else { s with ledg := { s.ledg with errHeld := (s.ledg.errHeld ++ [r.bytes]).drop ((s.ledg.errHeld.length + 1) - 64) } }

/-- A repeat is folded into the record it repeats (R517); the manager is told if the tier is raised. -/
def State.foldRecord (s : State) (slot : Nat) (r : ErrRec) (tier : Nat) (esc : Bool) : State :=
  let r' := { r with rpt := satAdd 255 r.rpt 1, last := s.now, tier := max r.tier tier, escalated := r.escalated || esc }
  let t := if 2 ≤ tier then (s.setRec slot r').ledgAppend 0x06 r'.bytes else s.setRec slot r'
  if r.tier < tier then t.tellError slot r' else t

/-- A new record takes a slot (R516), or is lost. -/
def State.newRecord (s : State) (r : ErrRec) : State :=
  match errSlot s.err.slots r.tier with
  | some (k, evicts) =>
    let t := if evicts then (s.setRec k r).count HOST_ERR_LOST_COUNT else s.setRec k r
    if 1 ≤ r.tier then t.tellError k r else t
  | none => s.count HOST_ERR_LOST_COUNT

/-- The next SEQ of the journal goes on by one. -/
def State.nextErrSeq (s : State) : State := { s with err := { s.err with nextSeq := (s.err.nextSeq + 1) % 2 ^ 16 } }

/-- A fault arrives at the collector (R514 to R519): counted by tier; folded into an unacknowledged record of the same
source (R517) or given a slot (R516); a Ledger record at once for T2 and T3 (R513); the manager told of a new record
of T1 or above or a tier raised; a T3 record asks for the safe state (R524). At the Strongroom's limit its fault counts as one at T3 (Table 19.5);
`forced`: the record says ESCALATED in any case (R522). -/
def State.record (s : State) (subsys unit tier code inst info0 info1 : Nat) (forced : Bool := false) : Recorded :=
  let esc := forced || (decide (tier = 2) && s.crossesLimit subsys unit)
  let tier := if subsys = 13 ∧ tier = 2 ∧ esc = true then 3 else tier
  let s := ((s.count (HOST_ERR_T_COUNT tier)).noteT2 subsys unit tier).noteT3 tier code
  match s.err.slots.find? (fun p => p.2.subsys = subsys ∧ p.2.unit = unit ∧ p.2.code = code ∧ p.2.inst = inst ∧ ¬ p.2.acked) with
  | some (k, r) => ⟨s.foldRecord k r tier esc, r.seq⟩
  | none =>
    let r : ErrRec := ⟨subsys, unit, tier, code, inst, 0, s.err.nextSeq, s.now, info0 % 2 ^ 64, info1 % 2 ^ 32, s.now, false, esc⟩
    ⟨(s.nextErrSeq.ledgRecord r).newRecord r, s.err.nextSeq⟩

/-! ### Lending slips that break (R71) -/

/-- A lending slip. -/
def State.slip (s : State) (n : Nat) : Slip := tabGet (fun _ => {}) s.slips n

/-- `s` with a slip changed. -/
def State.setSlip (s : State) (n : Nat) (x : Slip) : State := { s with slips := tabSet (fun _ => {}) s.slips n x }

/-- EV_CLRK_SLIP_BROKEN (Table 2.28). -/
def evSlipBroken : Nat := 0x8004

/-- Take an owner's waiting acquires out of a slip, each completed with one status (R71). -/
def State.endWaiters (s : State) (n : Nat) (p : Pkt → Bool) (st : Status) (detail : Nat) : State :=
  let w := (s.slip n).waiters
  (w.filter p).foldl (fun t pk => t.complete pk st detail)
    (s.setSlip n { s.slip n with waiters := w.filter (fun pk => !p pk) })

/-- Give a free slip to its first waiter, who completes with OK or, if the mark is set, BROKEN_LOCK (R72, R73). -/
def State.handSlip (s : State) (n : Nat) : State :=
  match (s.slip n).owner, (s.slip n).waiters with
  | none, pk :: r =>
    let s := s.setSlip n { s.slip n with owner := some (s.ownerOf pk.fn), last := s.ownerOf pk.fn, waiters := r }
    s.complete pk (if (s.slip n).broken then .brokenLock else .ok)
  | _, _ => s

/-- One slip of a lost owner: released, marked BROKEN, reported, handed on (R71). -/
def State.breakSlip (s : State) (owner n : Nat) : State :=
  if (s.slip n).owner = some owner then
    ((s.setSlip n { s.slip n with owner := none, broken := true }).postMgr evSlipBroken n owner 0).handSlip n
  else s

/-- An owner is lost (R71): its waiting acquires end with the status for the cause, and every slip it holds is released
and marked BROKEN. -/
def State.breakSlips (s : State) (owner : Nat) (st : Status) (detail : Nat := 0) : State :=
  let s := (s.slips.map Prod.fst).foldl
    (fun t n => t.endWaiters n (fun pk => decide (s.ownerOf pk.fn = owner)) st detail) s
  (s.slips.map Prod.fst).foldl (fun t n => t.breakSlip owner n) s

end Sys2Proof.Machine
end

