-- ==== Sys2Proof/Machine/Folio.lean ====
section
/-! DEFINITION. Stored errors, which granules the Folio code protects, and where beats lie (R147 to R150, R168 to R172). -/

namespace Sys2Proof.Machine

/-- The stored error of a beat of an object, over the 35 bytes of its codeword; empty when there is none. The code is
linear, so the error alone decides what a decoder finds. -/
def State.beatError (s : State) (i beat : Nat) : List Byte := tabGet (fun _ => []) s.mem.errors (cellAddr i (32 * beat) / 32)

/-- `s` with a beat's stored error set. -/
def State.setBeatError (s : State) (i beat : Nat) (e : List Byte) : State :=
  { s with mem := { s.mem with errors := tabSet (fun _ => []) s.mem.errors (cellAddr i (32 * beat) / 32) e } }

/-- Where allocation put granule `g` (R122, rule 4). -/
def placeInRuns : List (Place × Nat) → Nat → Place
  | [], _ => .region 0
  | (p, n) :: r, g => if g < n then p else placeInRuns r (g - n)

/-- Where granule `g` of an object lies. -/
def Obj.place (o : Obj) (g : Nat) : Place := ((o.gran g).place).getD (placeInRuns o.runs g)

/-- The number of granules of an object. -/
def Obj.granules (o : Obj) : Nat := ceilDiv o.desc.size 65536

/-- Is a place Folio-protected (Table 4.9)? -/
def State.folioPlace (s : State) : Place → Bool
  | .bank _ => true
  | .region n => s.getF (MEM_REGION_CFG n) MEM_REGION_CFG_FOLIO = 1

/-- Is a beat of an object uncorrectable where it lies (R167, R168)? -/
def State.beatBad (s : State) (i beat : Nat) : Bool :=
  match (s.shelf i).obj with
  | some o => s.folioPlace (o.place (32 * beat / 65536)) && decide (folioDecode (s.beatError i beat) = .uncorrectable)
  | none => false

/-- The first uncorrectable beat among `n` bytes of an object from `off`. -/
def State.badBeat? (s : State) (i off n : Nat) : Option Nat :=
  (tabRange s.mem.errors (cellAddr i off / 32) ((cellAddr i (off + n) + 31) / 32)).findSome? (fun p =>
    if s.beatBad i (p.1 - cellAddr i 0 / 32) then some (p.1 - cellAddr i 0 / 32) else none)

/-- The channel a byte of the region at region offset `o` lies on (Table 5.2). -/
def channelOf (order o : Nat) : Nat :=
  match order with
  | 0 => bits o 14 11
  | 1 => bits o 11 8
  | 2 => bits o 11 8
  | _ => bits o 15 12

/-- The unit that serves byte `off` of an object (R171): the channel 0 to 15 of a DRAM granule, or 16 + b. Region bases
and Folio blocks are whole granules, so the offset within the granule decides the channel (R148, R150). -/
def State.unitOf (s : State) (i off : Nat) : Nat :=
  match (s.shelf i).obj with
  | some o =>
    match o.place (off / 65536) with
    | .bank b => 16 + b
    | .region n => channelOf (s.getF (MEM_REGION_CFG n) MEM_REGION_CFG_ORDER) (off % 65536)
  | none => 0

/-- A beat whose stored error has been taken into account by a read, decode, merge and encode (R170): what the decoder
delivers becomes what is stored. -/
def State.settleBeat (s : State) (i beat : Nat) : State :=
  let e := s.beatError i beat
  if e = [] then s
  else (s.putBytes i (32 * beat) (s.objBytes i (32 * beat) 32)).setBeatError i beat []

/-- The beats that `n` bytes from `off` cover in part. -/
def partBeats (off n : Nat) : List Nat :=
  let first := if off % 32 = 0 ∨ n = 0 then [] else [off / 32]
  let last := if (off + n) % 32 = 0 ∨ n = 0 then [] else [(off + n) / 32]
  if first = last then first else first ++ last

/-- A partly covered beat that is uncorrectable: the partial write to it is not performed (R170). -/
def State.partBad? (s : State) (i off n : Nat) : Option Nat := (partBeats off n).find? (fun b => s.beatBad i b)

/-- The error an injection leaves: the first BYTES bytes changed by XOR after the check bytes are computed (R174). -/
def injected (n x : Nat) : List Byte := (List.range 35).map (fun k => if k < n then BitVec.ofNat 8 x else 0)

/-- Take an armed injection at the first whole beat that `n` bytes from `off` write to the chosen unit (R174): as a
stored error where check bytes are stored, as changed data where they are dropped (R168). -/
def State.takeInjection (s : State) (i off n : Nat) : State :=
  if s.getF MEM_FOLIO_INJECT MEM_FOLIO_INJECT_ARM = 1 then
    let unit := s.getF MEM_FOLIO_INJECT MEM_FOLIO_INJECT_UNIT + 16 * s.getF MEM_FOLIO_INJECT MEM_FOLIO_INJECT_TARGET
    match ((List.range ((off + n) / 32 - ceilDiv off 32)).map (fun k => ceilDiv off 32 + k)).find?
        (fun b => s.unitOf i (32 * b) = unit) with
    | none => s
    | some b =>
      let e := injected (s.getF MEM_FOLIO_INJECT MEM_FOLIO_INJECT_BYTES) (s.getF MEM_FOLIO_INJECT MEM_FOLIO_INJECT_XOR)
      let s := s.setF MEM_FOLIO_INJECT MEM_FOLIO_INJECT_ARM 0
      match (s.shelf i).obj with
      | some o =>
        if s.folioPlace (o.place (32 * b / 65536)) then s.setBeatError i b e
        else s.putBytes i (32 * b) ((s.objBytes i (32 * b) 32).zipWith (fun a c => a ^^^ c) e)
      | none => s
  else s

/-- Count a corrected error at its unit (R172): its counter, a T0 record, and EV_MEM_CE_RATE when a channel reaches
CE_NOTIFY within the current second. -/
def State.countCorrected (s : State) (i off : Nat) : State :=
  let unit := s.unitOf i off
  let h := ((s.shelf i).obj.map (fun o => o.desc.handle)).getD 0
  let inst := ((s.shelf i).obj.map Obj.owner).getD 0
  let s := (s.record 10 unit 0 0x01 inst h off).state
  if 16 ≤ unit then s.countF (MEM_CARREL_CE_COUNT (unit - 16)) MEM_CARREL_CE_COUNT_CE
  else
    let s := s.count (MEM_CH_CE_COUNT unit)
    let sec := s.now / 10 ^ 9
    let n : Nat := match tabGet (fun _ => (0, 0)) s.mem.ceSecond unit with
      | (t, n) => if t = sec then n + 1 else 1
    let s := { s with mem := { s.mem with ceSecond := tabSet (fun _ => (0, 0)) s.mem.ceSecond unit (sec, n) } }
    let lim := s.getF MEM_CTRL MEM_CTRL_CE_NOTIFY
    if lim ≠ 0 ∧ n = lim then s.postMgr 0x8210 unit n 0 else s

/-- A reader receives `n` bytes of an object from `off`: every corrected beat among them is counted (R172). -/
def State.noteRead (s : State) (i off n : Nat) : State :=
  (tabRange s.mem.errors (cellAddr i off / 32) ((cellAddr i (off + n) + 31) / 32)).foldl (fun t p =>
    let b := p.1 - cellAddr i 0 / 32
    match (t.shelf i).obj with
    | some o =>
      match folioDecode p.2 with
      | .single _ _ => if t.folioPlace (o.place (32 * b / 65536)) then t.countCorrected i (32 * b) else t
      | _ => t
    | none => t) s

/-- A requester writes bytes of an object (R168, R170, R174): partly covered beats are read, decoded (a corrected one is counted), merged and
encoded, or left when they are uncorrectable; whole beats are replaced; an armed injection is taken. -/
def State.store (s : State) (i off : Nat) (bs : List Byte) : State :=
  let lo := if off % 32 ≠ 0 ∧ s.beatBad i (off / 32) then min (32 * (off / 32) + 32 - off) bs.length else 0
  let hi := if (off + bs.length) % 32 ≠ 0 ∧ s.beatBad i ((off + bs.length) / 32) then
      max lo (32 * ((off + bs.length) / 32) - off) else bs.length
  let s := (partBeats off bs.length).foldl (fun t b => if t.beatBad i b then t else (t.noteRead i (32 * b) 32).settleBeat i b) s
  (s.writeObj i (off + lo) ((bs.take hi).drop lo)).takeInjection i off bs.length

/-- An uncorrectable beat found at a unit is counted there (Tables 5.22, 5.24). -/
def State.countUncorrectable (s : State) (i off : Nat) : State :=
  let unit := s.unitOf i off
  if 16 ≤ unit then s.countF (MEM_CARREL_CE_COUNT (unit - 16)) MEM_CARREL_CE_COUNT_UE
  else s.count (MEM_CH_UE_COUNT unit)

/-- An uncorrectable beat has been found (R171): counted at its unit, and EV_MEM_UE to the manager and the owning
instance. -/
def State.postUe (s : State) (i off : Nat) : State :=
  match (s.shelf i).obj with
  | some o =>
    let u := s.unitOf i off
    let s := (s.countUncorrectable i off).postMgr 0x8211 u o.desc.handle off
    if isInst o.owner then s.post o.owner 0x8211 u o.desc.handle off else s
  | none => s

/-- The bank {BG, BA} (Table 5.2). -/
def dramBank (order o : Nat) : Nat :=
  match order with
  | 0 => bits o 18 15
  | 1 => bits o 18 15
  | 2 => bits o 18 15 ^^^ bits o 22 19
  | _ => bits o 18 16 * 2 + bits o 11 11

/-- The column byte within the 2 KiB page (Table 5.2). -/
def dramColumn (order o : Nat) : Nat :=
  match order with
  | 0 => bits o 10 0
  | 1 => bits o 14 12 * 256 + bits o 7 0
  | 2 => bits o 14 12 * 256 + bits o 7 0
  | _ => bits o 10 0

/-- The device row: 2 × BASE_MIB plus the region row O[37:19] (R148). -/
def dramRow (baseMib o : Nat) : Nat := 2 * baseMib + bits o 37 19

/-- The region offset of data-area offset `o` (R148, R150). -/
def regionOffset (folio : Bool) (o : Nat) : Nat :=
  if folio then o / 0x2000000 * 0x2300000 + o % 0x2000000 else o

/-- The region offset of check byte `i` (P0 to P2) of the beat numbered `n` on channel `c` of block `k` (R150). -/
def checkOffset (k c n i : Nat) : Nat :=
  let l := 96 * (n / 32) + 3 * (n % 32) + i
  k * 0x2300000 + 0x2000000 + (32768 * (l / 2048) + 2048 * c + l % 2048)

/-- The DQ pin that carries byte `i` of a beat, and the first of its eight transfers (R147). -/
def dqOf (i : Nat) : Nat × Nat := (i % 16, 8 * (i / 16))

end Sys2Proof.Machine
end

