-- ==== Sys2Proof/Machine/Operands.lean ====
section
/-! DEFINITION. The operand forms of a command packet: inline parameters or a parameter block (R52 to R54), their ranges,
and the validation of Table 2.21 that every packet command goes through. -/

namespace Sys2Proof.Machine

/-- The range of a parameter (the Range column of a command's table). A handle is checked for being current (step 7) and,
unless any function may name it, for belonging to the sender (R112, step 9). -/
inductive PKind where
  | any
  | zero
  | rng (lo hi : Nat)
  | mult (m lo hi : Nat)
  | mask (m : Nat)
  | maskNz (m : Nat)
  | oneOf (l : List Nat)
  | srng (w : Nat) (lo hi : Int)
  | read
  | write
  | readOpt
  | writeOpt
  | anyHandle
  deriving DecidableEq, Repr

/-- A row of a parameter table: packet offset, size in bytes, range. Its number is its place in the table (R60). -/
structure Param where
  off : Nat
  size : Nat
  kind : PKind
  deriving DecidableEq, Repr

/-- Who may send an opcode: every function, the manager and instances, the manager only, the standby only. -/
inductive Sender where
  | any | tenants | manager | standby
  deriving DecidableEq, Repr

/-- A command's row: opcode, sender, PLEN, the block lengths if it is sent only with BY_HANDLE (least, greatest),
parameters. -/
structure Cmd where
  op : Nat
  sender : Sender
  plen : Nat
  block : Option (Nat × Nat)
  params : List Param
  deriving DecidableEq, Repr

/-- A check of Table 2.21: what must hold, and the status and DETAIL if it does not. -/
structure Chk where
  ok : Bool
  st : Status
  detail : Nat
  deriving DecidableEq, Repr

/-- The first check that fails decides (R60). -/
def firstFail : List Chk → Option (Status × Nat)
  | [] => none
  | c :: r => if c.ok then firstFail r else some (c.st, c.detail)

/-- Is the opcode offered to this sender (step 1, R40, R97)? -/
def offered (c : Cmd) (s : State) (fn : Nat) : Bool :=
  if fn = fabricFn then decide (c.sender ≠ .standby)
  else match c.sender with
    | .any => true
    | .tenants => decide (fn = s.mgrFn) || isInst fn
    | .manager => decide (fn = s.mgrFn)
    | .standby => decide (fn = s.standbyFn)

/-- The reference to a parameter block (Table 2.17). -/
def blockHandle (pk : Pkt) : Nat := par pk.params 16 4
def blockOffset (pk : Pkt) : Nat := par pk.params 20 4
def blockLength (pk : Pkt) : Nat := par pk.params 24 4

/-- Is every byte zero? -/
def allZero (bs : List Byte) : Bool := bs.all (fun b => decide (b = 0))

/-- PLEN right for the opcode and unused inline bytes zero (step 4, R53). -/
def lengthOk (c : Cmd) (pk : Pkt) : Bool :=
  if usesBlock pk then
    decide (pk.plen = 2) && allZero (slice pk.params 16 32) &&
      match c.block with
      | some (lo, hi) => decide (lo ≤ blockLength pk) && decide (blockLength pk ≤ hi)
      | none => decide (0 < c.plen) && decide (blockLength pk = 8 * c.plen)
  else c.block.isNone && decide (pk.plen = c.plen) && allZero (slice pk.params (8 * pk.plen) (48 - 8 * pk.plen))

/-- The block reference of Table 2.17 (step 6): current, readable by the sender and meant for blocks (R114), in range and
inside the object, free of uncorrectable errors. -/
def blockChecks (pk : Pkt) (s : State) : List Chk :=
  if usesBlock pk then
    let h := blockHandle pk
    let o := s.obj? h
    [⟨o.isSome, .staleGeneration, 0xFF04⟩,
     ⟨(o.map Obj.owner) = some (s.ownerOf pk.fn) ∧ (s.objUsage h).testBit 7, .notPermitted, 0xFF04⟩,
     ⟨blockOffset pk % 8 = 0 ∧ 8 ≤ blockLength pk ∧ blockLength pk ≤ 65536 ∧ blockLength pk % 8 = 0 ∧
        blockOffset pk + blockLength pk ≤ s.objSize h ∧ par pk.params 28 4 = 0, .outOfRange, 0xFF04⟩,
     ⟨(s.badBeat? (handleIndex h) (blockOffset pk) (blockLength pk)).isNone, .integrityFail, 0xFF04⟩]
  else []

/-- A virtual function without an instance may send only SYS_NOP and SYS_GET_CAPS (R40); the fabric manager, unless the worker accepts more, only
classes 0x00, 0x0A, 0x0B and 0x0C (R501). -/
def boundChecks (c : Cmd) (pk : Pkt) (s : State) : List Chk :=
  [⟨pk.fn < 128 ∨ c.op ≤ 1, .notPermitted, 0⟩,
   ⟨pk.fn ≠ fabricFn ∨ s.getF FAB_CTRL FAB_CTRL_ACCEPT = 1 ∨ [0x00, 0x0A, 0x0B, 0x0C].contains (c.op / 256) = true, .notPermitted, 0⟩]

/-- Steps 1 to 6 of Table 2.21; a block that comes over the fabric comes with its packet (R490). -/
def headerChecks (c : Cmd) (pk : Pkt) (s : State) : List Chk :=
  boundChecks c pk s ++
  [⟨offered c s pk.fn, .badOpcode, 0⟩,
   ⟨pk.flags.toNat < 8, .outOfRange, 0xFF01⟩,
   ⟨pk.rsv = 0, .outOfRange, 0xFF02⟩,
   ⟨lengthOk c pk, .badLength, 0⟩,
   ⟨pk.timeout ≤ 60000000, .outOfRange, 0xFF03⟩] ++ if pk.fn = fabricFn then [] else blockChecks pk s

/-- The parameters: the inline bytes, or the block copied by the Clerk (R53, R54). -/
def paramBytes (pk : Pkt) (s : State) : List Byte :=
  if usesBlock pk then s.objBytes (handleIndex (blockHandle pk)) (blockOffset pk) (blockLength pk) else pk.params

/-- Is the value inside the range? Handles are judged elsewhere. -/
def inRange : PKind → Nat → Bool
  | .zero, v => decide (v = 0)
  | .rng lo hi, v => decide (lo ≤ v) && decide (v ≤ hi)
  | .mult m lo hi, v => decide (v % m = 0) && decide (lo ≤ v) && decide (v ≤ hi)
  | .mask m, v => decide (v &&& m = v)
  | .maskNz m, v => decide (v &&& m = v) && decide (v ≠ 0)
  | .oneOf l, v => l.contains v
  | .srng w lo hi, v => decide (lo ≤ signed w v) && decide (signed w v ≤ hi)
  | .any, _ => true
  | .read, _ => true
  | .write, _ => true
  | .readOpt, _ => true
  | .writeOpt, _ => true
  | .anyHandle, _ => true

/-- Does the parameter hold a handle, given its value (0 stands for none where the table allows it)? -/
def namesObject : PKind → Nat → Bool
  | .read, _ => true
  | .write, _ => true
  | .anyHandle, _ => true
  | .readOpt, v => decide (v ≠ 0)
  | .writeOpt, v => decide (v ≠ 0)
  | _, _ => false

/-- A command's parameters with their numbers and values. -/
def numbered (c : Cmd) (p : List Byte) : List (Nat × PKind × Nat) :=
  (List.range c.params.length).zip (c.params.map (fun q => (q.kind, par p q.off q.size))) |>.map
    (fun x => (x.1 + 1, x.2.1, x.2.2))

/-- What a command adds to the shared validation: checks before the parameters'; ranges that depend on other values (by parameter number); handles that
other values call for (parameter number, handle, whether written); further checks of step 8, in the order of the
description; checks of step 9 beside ownership; checks of step 11 and later; objects it reads or writes that no parameter
names; RESULT0 and RESULT1 of a failed check; what validation reads of objects (handle, offset, length), and the DETAILs of the
OUT_OF_RANGE checks that judge it. -/
structure Hooks where
  first : List Byte → List Chk := fun _ => []
  dyn : List Byte → List (Nat × Bool) := fun _ => []
  handles : List Byte → List (Nat × Nat × Bool) := fun _ => []
  more : List Byte → List Chk := fun _ => []
  pre : List Byte → List Chk := fun _ => []
  post : List Byte → List Chk := fun _ => []
  uses : List Byte → List Nat := fun _ => []
  writes : List Byte → List Nat := fun _ => []
  failRes : List Byte → Status → Nat → Nat × Nat := fun _ _ _ => (0, 0)
  reads : List Byte → List (Nat × Nat × Nat) := fun _ => []
  looks : List Byte → List Nat := fun _ => []
  stateCheck : List Byte → Option (List Chk) := fun _ => none

/-- The handle parameters of a packet: number, value, whether only the owner may name the object (R112), whether it is
written. -/
def handlesOf (c : Cmd) (p : List Byte) (h : Hooks) : List (Nat × Nat × Bool × Bool) :=
  ((numbered c p).filter (fun x => namesObject x.2.1 x.2.2)).map (fun x =>
    (x.1, x.2.2, decide (x.2.1 ≠ .anyHandle), decide (x.2.1 = .write) || decide (x.2.1 = .writeOpt))) ++
  (h.handles p).map (fun x => (x.1, x.2.1, true, x.2.2))

/-- Steps 7 and 8: handles current, values in range, in table order, then the further checks of step 8. -/
def tableChecks (c : Cmd) (s : State) (p : List Byte) (h : Hooks) : List Chk :=
  h.first p ++ (handlesOf c p h).map (fun x => ⟨(s.obj? x.2.1).isSome, .staleGeneration, x.1⟩) ++
  (numbered c p).map (fun x =>
    ⟨inRange x.2.1 x.2.2 && (h.dyn p).all (fun d => decide (d.1 ≠ x.1) || d.2), .outOfRange, x.1⟩) ++ h.more p

/-- Step 9 for handles: only the owner may name an object (R112). -/
def ownChecks (c : Cmd) (pk : Pkt) (s : State) (p : List Byte) (h : Hooks) : List Chk :=
  ((handlesOf c p h).filter (fun x => x.2.2.1)).map
    (fun x => ⟨(s.obj? x.2.1).map Obj.owner = some (s.ownerOf pk.fn), .notPermitted, x.1⟩)

/-- A use that the object's USAGE lacks (R114). -/
def usageChk (s : State) (no h bit : Nat) : Chk := ⟨(s.objUsage h).testBit bit, .notPermitted, no⟩

/-- The checks of step 9: those of ownership among the others in parameter order (R60). -/
def mergeOwn : List Chk → List Chk → List Chk
  | own, [] => own
  | own, c :: r => own.filter (fun o => decide (o.detail ≤ c.detail)) ++ c :: mergeOwn (own.filter (fun o => decide (c.detail < o.detail))) r

/-- Step 10: the sender is neither frozen nor contained (Table 19.4). -/
def frozenChecks (pk : Pkt) (s : State) : List Chk :=
  [⟨!(isInst pk.fn && decide ((s.inst pk.fn).state = .contained)), .faulted, 0⟩,
   ⟨!s.isFrozen pk.fn, .frozen, 0⟩]

/-- Steps 7 to 11 of Table 2.21 and what the description adds. For the commands of class 0x01 the instance-state check
takes the place of steps 9 and 10 (R81). -/
def bodyChecks (c : Cmd) (pk : Pkt) (s : State) (p : List Byte) (h : Hooks) : List Chk :=
  tableChecks c s p h ++
  match h.stateCheck p with
  | some l => l ++ h.pre p ++ h.post p
  | none => mergeOwn (ownChecks c pk s p h) (h.pre p) ++ frozenChecks pk s ++ h.post p

/-- The objects a packet names (R64). -/
def objectsNamed (c : Cmd) (p : List Byte) (h : Hooks) : List Nat := (handlesOf c p h).map (fun x => x.2.1) ++ h.uses p ++ h.writes p

/-- The objects a packet writes (R64). -/
def objectsWritten (c : Cmd) (p : List Byte) (h : Hooks) : List Nat :=
  ((handlesOf c p h).filter (fun x => x.2.2.2)).map (fun x => x.2.1) ++ h.writes p

/-- The parameters of a packet: those copied when it was admitted, else the bytes it brings (R54). -/
def State.paramsOf (s : State) (pk : Pkt) : List Byte :=
  match s.flightOf pk with
  | some f => if usesBlock pk then f.block else pk.params
  | none => paramBytes pk s

/-- Does a packet name a host bus address? On a worker with both ports down the fabric manager's then ends (R501). -/
def namesBus (op : Nat) (p : List Byte) : Bool :=
  [0x0104, 0x0105, 0x0204, 0x0205, 0x0B03, 0x0E01].contains op || (decide (op = 0x0702) && bit (par p 18 1) 0) ||
    (decide (op = 0x0902) && decide (par p 18 1 = 4))

/-- What reading a packet's parameter block finds (R171, R172): a beat that is uncorrectable is told, corrected ones are counted. -/
def State.readBlock (s : State) (pk : Pkt) (bad : Option (Status × Nat)) : State :=
  if usesBlock pk ∧ pk.fn ≠ fabricFn then
    let i := handleIndex (blockHandle pk)
    match bad with
    | none => s.noteRead i (blockOffset pk) (blockLength pk)
    | some e =>
      if e = (.integrityFail, 0xFF04) then
        match s.badBeat? i (blockOffset pk) (blockLength pk) with
        | some b => s.postUe i (32 * b)
        | none => s
      else s
  else s

/-- The checks that do not wait for earlier writers: those before the first that judges the contents of an object (R60, R64). -/
def settledChecks (h : Hooks) (p : List Byte) (l : List Chk) : List Chk :=
  if h.reads p = [] then l
  else l.takeWhile (fun c => !(decide (c.st = .integrityFail) || decide (c.st = .outOfRange) && (h.looks p).contains c.detail))

/-- What validation has read of objects: a beat found uncorrectable is told (R171). -/
def State.tellReads (s : State) (l : List (Nat × Nat × Nat)) : State :=
  match l.findSome? (fun r => (s.badBeat? (handleIndex r.1) r.2.1 r.2.2).map (fun b => (handleIndex r.1, b))) with
  | some x => s.postUe x.1 (32 * x.2)
  | none => s

/-- Run a packet command. Steps 1 to 6 when it comes; then, once its fence allows it (R65), steps 7 to 11 and the
description's checks; then, once the earlier writers of its objects have completed (R64), its effect on the state in which
the packet is in flight. A packet that fails a check has no other effect (R60); one that must wait stays in flight, and
its row run again is its next try (assumption 7); one that has committed goes on by itself. While the Clerk does not run, no packet is fetched and
none is carried further (R522, R524). -/
def runPkt (c : Cmd) (pk : Pkt) (s : State) (h : Hooks) (eff : List Byte → State → State) : State :=
  if (s.flightOf pk).any Flight.committed || (decide (pk.ring ≠ windowRing) && !s.clerkRuns) then s
  else
  let first := (s.flightOf pk).isNone
  match if first then firstFail (headerChecks c pk s) else none with
  | some e => ((s.readBlock pk (some e)).letIn c.op pk [] [] []).complete pk e.1 e.2
  | none =>
    let p := s.paramsOf pk
    let names := objectsNamed c p h
    let s' := (if first then s.readBlock pk none else s).letIn c.op pk (if usesBlock pk then p else []) names (objectsWritten c p h)
    if s'.fenceHolds pk then s'
    else
      let waits := s'.hazard pk names
      match firstFail (if waits then settledChecks h p (bodyChecks c pk s p h) else bodyChecks c pk s p h) with
      | some e => (if e.1 = .integrityFail then s'.tellReads (h.reads p) else s').complete pk e.1 e.2 (h.failRes p e.1 e.2).1 (h.failRes p e.1 e.2).2
      | none =>
        if decide (pk.fn = fabricFn) && namesBus c.op p && !s.linkUp fabricFn then s'.complete pk .linkDown 0
        else if waits then s' else eff p s'

end Sys2Proof.Machine
end

