-- ==== Sys2Proof/Machine/Grants.lean ====
section
/-! DEFINITION. What an owner may use of each pool (R82): an instance its grant, the manager what no instance has been
granted. -/

namespace Sys2Proof.Machine

/-- The sum of a grant field over the instances that exist. -/
def State.granted (s : State) (f : Grant → Nat) : Nat :=
  (s.liveInsts.map (fun n => f (s.inst n).grant)).foldl (· + ·) 0

/-- The mask of units of a grant field held by any instance. -/
def State.grantedMask (s : State) (f : Grant → Nat) : Nat :=
  (s.liveInsts.map (fun n => f (s.inst n).grant)).foldl (· ||| ·) 0

/-- How much of a pool of `total` an owner may use. -/
def State.limitOf (s : State) (owner total : Nat) (f : Grant → Nat) : Nat :=
  if owner = 0 then total - s.granted f else f (s.grantOf owner)

/-- The outputs or channels an instance owns: those of its grant, and during the grace period of a resize those of the old one (R92). -/
def State.ownMask (s : State) (n : Nat) (f : Grant → Nat) : Nat :=
  f (s.inst n).grant ||| (if (s.inst n).resize.isSome then f (s.inst n).oldGrant else 0)

/-- The owner of output `k`: the instance that owns it, else the manager (R289). -/
def State.outOwner (s : State) (k : Nat) : Nat :=
  (s.liveInsts.find? (fun n => (s.ownMask n Grant.outOwn).testBit k)).getD 0

/-- May an owner place layers on output `k`? -/
def State.mayLayer (s : State) (owner k : Nat) : Bool :=
  decide (owner = 0) || (s.grantOf owner).outLayer.testBit k

/-- The owner of haptic channel `c`: the instance that owns it, else the manager. -/
def State.hapOwner (s : State) (c : Nat) : Nat :=
  (s.liveInsts.find? (fun n => (s.ownMask n Grant.hap).testBit c)).getD 0

/-- Is a unit closed to the normal world by a hand-over in progress (R351)? Kinds: 0 touch controller, 1 haptic channel, 2 TDM port, 3 check-value
unit. -/
def State.closing (s : State) (kind unit : Nat) : Bool := s.strg.handover.any (fun (h : Handover) => decide (h.kind = kind ∧ h.unit = unit))

/-- Is the device in the safe state? -/
def State.safe (s : State) : Bool := s.err.safe

/-- Is a power domain up (Table 16.9)? -/
def State.domainUp (s : State) (d : Nat) : Bool := (s.getF PCU_DOMAIN_UP PCU_DOMAIN_UP_MASK).testBit d

/-- Fabric time (R505): the timebase and the offset the tree's time flits have set; 0 with no fabric. -/
def State.fabricTime (s : State) : Nat :=
  match s.fab.timeOffset with
  | some d => ((s.now : Int) + d).toNat
  | none => 0

/-- Post an event to an owner's function. -/
def State.postOwner (s : State) (owner code detail d0 d1 : Nat) : State := s.post (s.fnOf owner) code detail d0 d1

/-- The capability view of a function has changed (R79): CAP_LIST_GEN rises once before and once after, and EV_CAP_CHANGED is
posted. -/
def State.capChangedFn (s : State) (f : Nat) : State :=
  (s.setFn f { s.fnState f with capGen := ((s.fnState f).capGen + 2) % 2 ^ 32 }).post f 0x8005 0 0 0

/-- The capability view of an owner has changed. -/
def State.capChanged (s : State) (owner : Nat) : State := s.capChangedFn (s.fnOf owner)

end Sys2Proof.Machine
end

