-- ==== Sys2Proof/Machine/Gate.lean ====
section
/-! DEFINITION. What a register write meets before it reaches its register: the power state (R441), the safe state and a
Clerk that is down (R527), the standby manager's limits (R97), the owner of the unit (R14). -/

namespace Sys2Proof.Machine

/-- The writer of a Crown port write, which acts as the manager (R551). -/
def crownWriter : Nat := 68

/-- Whose rights a writer has. -/
def State.writerOwner (s : State) (w : Nat) : Nat := if w = crownWriter then 0 else s.ownerOf w

/-- Is the address inside a doorbell page? -/
def isDoorbell (a : Nat) : Bool := (decide (0x800000 ≤ a) && decide (a < 0x842000)) || (decide (0x2800000 ≤ a) && decide (a < 0x3000000))

/-- Is the address in the ring register set or the doorbell page of function `f` (R44)? -/
def inOwnRings (f a : Nat) : Bool :=
  (decide (ringSet f ≤ a) && decide (a < ringSet f + 0x100)) || (decide (doorbellPage f ≤ a) && decide (a < doorbellPage f + 0x1000))

/-- Is the device in DORMANT, or waking from it (R441)? -/
def State.dormant (s : State) : Bool := s.getF PCU_STATE PCU_STATE_STATE = 2

/-- A write reaches the device: over the writer's link, or through the Crown port. -/
def State.arrives (s : State) (w : Nat) : Bool := decide (w = crownWriter) || s.linkUp w

/-- What a register write of `w` to `addr` meets, and `f` where it goes on to the register: nothing arrives over a link that is
down, nor before a boot has ended (R564); DORMANT and a wake from it discard and count it (R441); the safe state and CLRK_DOWN discard it but for the error and recovery
registers and the doorbells (R527); the standby manager may write its own rings and HOST_SAFE_CTRL (R97). The Crown port works in every state and reaches its
own block in each (R546, R555). -/
def State.gated (s : State) (w addr : Nat) (f : State → State) : State :=
  if w = crownWriter ∧ 0x440000 ≤ addr ∧ addr < 0x480000 then f s
  else if ¬ s.arrives w ∨ (w ≠ crownWriter ∧ s.getF PCU_STATE PCU_STATE_STATE = 1) then s
  else if s.dormant ∧ addr ≠ PCU_WAKE ∧ w ≠ crownWriter then s.count PCU_DORMANT_DROP_COUNT
  else if s.clerkStopped ∧ ¬ (addr = HOST_ERR_ACK ∨ addr = HOST_ERR_CTRL ∨ addr = HOST_SAFE_CTRL ∨ isDoorbell addr) then
    s.badWrite w addr
  else if w ≠ crownWriter ∧ w = s.standbyFn ∧ ¬ (inOwnRings w addr ∨ addr = HOST_SAFE_CTRL) then s.badWrite w addr
  else f s

/-- Does a write attempt to change the field (R14)? -/
def attempts (old v : Nat) (f : FieldSpec) : Bool :=
  match f.acc with
  | .rw => decide (bits v f.hi f.lo ≠ bits old f.hi f.lo)
  | .rwl => decide (bits v f.hi f.lo ≠ bits old f.hi f.lo)
  | .w1c => decide (bits v f.hi f.lo ≠ 0)
  | .w1s => decide (bits v f.hi f.lo ≠ 0)
  | .wo => decide (bits v f.hi f.lo ≠ 0)
  | .ro => false
  | .rc => false

/-- A write that attempts to change fields of a unit which belongs to `owner` (0: the manager): the owner's goes on to the
register, the manager's on a unit it does not own is discarded, and counted if the value `v` attempts a change (R14); an instance does not see the register of a
unit it does not own, so its write meets an unassigned offset (R17, R45). -/
def State.regWrite (s : State) (w addr owner v : Nat) (f : State → State) : State :=
  s.gated w addr (fun t =>
    if t.writerOwner w = owner then f t
    else if t.writerOwner w = 0 ∧ (fieldsAt addr).any (attempts (t.reg addr) v) = true then t.badWrite w addr
    else t)

end Sys2Proof.Machine
end

