-- ==== Sys2Proof/Machine/Counters.lean ====
section
/-! DEFINITION. The performance monitor (R533 to R545): counters and their holders, the occurrences they count, samples and dumps. The register PMU_CNT_CFG
holds a counter's holder and event, PMU_CNT_LO and PMU_CNT_HI its value. -/

namespace Sys2Proof.Machine

/-! ### Counters -/

/-- The holder of a general counter: an instance, or 0 for the manager (R534). -/
def State.cntHolder (s : State) (c : Nat) : Nat := s.getF (PMU_CNT_CFG c) PMU_CNT_CFG_HOLDER

/-- The settings of a counter beside its CFG register. -/
def State.cnt (s : State) (c : Nat) : PmuCnt := tabGet (fun _ => {}) s.pmu.cnts c
def State.setCnt (s : State) (c : Nat) (x : PmuCnt) : State := { s with pmu := { s.pmu with cnts := tabSet (fun _ => {}) s.pmu.cnts c x } }

/-- The value of a counter. -/
def State.cntValue (s : State) (c : Nat) : Nat := s.reg (PMU_CNT_LO c) + 2 ^ 32 * s.reg (PMU_CNT_HI c)
def State.setCntValue (s : State) (c v : Nat) : State := (s.setReg (PMU_CNT_LO c) v).setReg (PMU_CNT_HI c) (v / 2 ^ 32)

/-- The counters of a holder, ascending; the manager uses physical numbers (R534). -/
def State.countersOf (s : State) (owner : Nat) : List Nat := (List.range 64).filter (fun c => decide (s.cntHolder c = owner))

/-- The physical counter a holder calls `i`. -/
def State.physCounter (s : State) (owner i : Nat) : Option Nat :=
  if owner = 0 then (if i < 64 then some i else none) else (s.countersOf owner)[i]?

/-- What a holder calls a physical counter. -/
def State.ownCounter (s : State) (c : Nat) : Nat :=
  if s.cntHolder c = 0 then c else ((s.countersOf (s.cntHolder c)).findIdx? (fun q => decide (q = c))).getD 0

/-- A counter stops, with its value, settings and SAT cleared; it keeps its holder. -/
def State.resetCounter (s : State) (c : Nat) : State :=
  ((s.setReg (PMU_CNT_CFG c) (s.cntHolder c * 2 ^ 16)).setCntValue c 0).setCnt c {}

/-- Stops and clears what a holder has (R545, Table 3.8): its counters, its dumps and its sample ring. -/
def State.clearCounters (s : State) (owner : Nat) : State :=
  let s := (s.countersOf owner).foldl (fun (t : State) c => t.resetCounter c) s
  { s with pmu := { s.pmu with
      dumps := tabSet (fun _ => none) s.pmu.dumps owner none, rings := tabSet (fun _ => none) s.pmu.rings owner none
      lostDump := s.pmu.lostDump.filter (fun o => decide (o ≠ owner)), lostSample := s.pmu.lostSample.filter (fun o => decide (o ≠ owner)) } }

/-- A counter goes to a holder, cleared. -/
def State.giveCounter (s : State) (owner c : Nat) : State := (s.setF (PMU_CNT_CFG c) PMU_CNT_CFG_HOLDER owner).resetCounter c

/-- An instance's counters are made as many as its grant names (R534): more are the lowest free ones; fewer go from the top, and what a dump says of
those no longer holds. -/
def State.allotCounters (s : State) (owner n : Nat) : State :=
  let own := s.countersOf owner
  if own.length ≤ n then
    ((s.countersOf 0).take (n - own.length)).foldl (fun (t : State) c => t.giveCounter owner c) s
  else (own.drop n).foldl (fun (t : State) c => t.giveCounter 0 c) s

/-- May the counters of a holder count now: the CLRK domain is up, and the holder is not stopped (R545, Tables 3.22, 19.4)? -/
def State.countsNow (s : State) (owner : Nat) : Bool := s.domainUp 2 && !s.isFrozen owner &&
  !(isInst owner && decide ((s.inst owner).state = .contained))

/-! ### Samples (R541, R542) -/

/-- EV_PMU_LOST, once per episode (R542, R544). -/
def State.tellLost (s : State) (owner detail : Nat) : State :=
  if (if detail = 0 then s.pmu.lostDump else s.pmu.lostSample).contains owner then s
  else
    let s := if detail = 0 then { s with pmu := { s.pmu with lostDump := owner :: s.pmu.lostDump } }
      else { s with pmu := { s.pmu with lostSample := owner :: s.pmu.lostSample } }
    s.postOwner owner 0x8D02 detail 0 0

/-- Where a sample was taken (Table 20.5). -/
structure SampleAt where
  kind : Nat
  unit : Nat
  inst : Nat
  skid : Nat
  loc0 : Nat
  loc1 : Nat
  loc2 : Nat

/-- A sample record goes to its holder's ring, or is dropped (R542). -/
def State.putSample (s : State) (c : Nat) (a : SampleAt) : State :=
  let o := s.cntHolder c
  let drop := fun (t : State) => (t.count (PMU_SAMPLE_LOST o)).tellLost o 1
  if s.safe then s
  else match tabGet (fun _ => none) s.pmu.rings o with
  | none => drop s
  | some (h, lg) =>
    let tail := s.reg (PMU_SAMPLE_TAIL o)
    if (s.obj? h).isNone ∨ 2 ^ lg ≤ (tail + 2 ^ 32 - s.reg (PMU_SAMPLE_HEAD o)) % 2 ^ 32 then drop s
    else
      let bs := leBytes 1 a.kind ++ leBytes 1 (s.ownCounter c) ++ leBytes 2 a.unit ++ leBytes 1 a.inst ++ leBytes 1 a.skid ++ leBytes 2 0 ++
        leBytes 8 s.now ++ leBytes 8 a.loc0 ++ leBytes 4 a.loc1 ++ leBytes 4 a.loc2
      let s := (s.store (handleIndex h) (32 * (tail % 2 ^ lg)) bs).setReg (PMU_SAMPLE_TAIL o) (tail + 1)
      { s with pmu := { s.pmu with lostSample := s.pmu.lostSample.filter (fun q => decide (q ≠ o)) } }

/-- A counter advances (R533, R541): it saturates at 2⁴⁸ − 1, which its holder is told of once; one that passes multiples of its period takes one sample. -/
def State.advanceCounter (s : State) (c n : Nat) (a : SampleAt) : State :=
  let was := s.cntValue c
  let v := min (2 ^ 48 - 1) (was + n)
  let s := s.setCntValue c v
  if v = 2 ^ 48 - 1 then
    if s.getF (PMU_CNT_CFG c) PMU_CNT_CFG_SAT = 1 then s
    else (s.setF (PMU_CNT_CFG c) PMU_CNT_CFG_SAT 1).postOwner (s.cntHolder c) 0x8D01 (s.ownCounter c) 0 0
  else if s.getF (PMU_CNT_CFG c) PMU_CNT_CFG_SAMPLE = 1 ∧ 0 < (s.cnt c).period ∧ was / (s.cnt c).period < v / (s.cnt c).period then s.putSample c a
  else s

/-! ### Occurrences (R535, R536) -/

/-- An occurrence of an event: the unit, the instance that bears it (0xFF: none), its world, and for traffic its class tag, the object and the
offset it touches; how many. -/
structure Occ where
  event : Nat
  unit : Nat
  inst : Nat := 0xFF
  secure : Bool := false
  cls : Option Nat := none
  handle : Nat := 0
  off : Nat := 0
  n : Nat := 1

/-- Is the event one whose occurrences the model's commands show? The others happen below its commands (cycles, slots, tests inside the clusters), and
their advance is measured. -/
def shownEvent (e : Nat) : Bool :=
  [0x3003, 0x3004, 0x4001, 0x4002, 0x5001, 0x6001, 0x6002, 0x7001, 0x7002, 0x8001, 0x8002, 0x8003, 0x9003].contains e ||
    (decide (0x5100 ≤ e) && decide (e < 0x5208))

/-- Does a counter count an occurrence: enabled, of its event and units, through every filter (R535, R536)? -/
def State.admits (s : State) (c : Nat) (o : Occ) : Bool :=
  let x := s.cnt c
  decide (s.getF (PMU_CNT_CFG c) PMU_CNT_CFG_ENABLE = 1) && decide (s.getF (PMU_CNT_CFG c) PMU_CNT_CFG_EVENT = o.event) &&
    s.countsNow (s.cntHolder c) && (decide (x.units = 0) || x.units.testBit o.unit) &&
    (decide (x.inst = 0xFF) || decide (x.inst = o.inst)) &&
    (if o.secure then decide (x.world ≠ 0) && decide (s.getF PMU_SECURE PMU_SECURE_OK = 1) else decide (x.world ≠ 1)) &&
    o.cls.all (fun k => x.classes.testBit k) &&
    (decide (x.handle = 0) || (decide (x.handle = o.handle) && decide (x.lo ≤ o.off) && decide (o.off < x.hi)))

/-- Every counter that admits an occurrence counts it. -/
def State.occur (s : State) (o : Occ) : State :=
  ((List.range 64).filter (fun c => s.admits c o)).foldl (fun (t : State) c => t.advanceCounter c o.n ⟨0, o.unit, o.inst, 0xFF, 0, 0, 0⟩) s

/-- A fixed counter advances, while CLRK is up (R534). -/
def State.fixedCount (s : State) (f n : Nat) : State :=
  if s.domainUp 2 ∧ f < 8 then s.setReg64 (PMU_FIX_LO f) (min (2 ^ 48 - 1) (s.reg64 (PMU_FIX_LO f) + n)) else s

/-- The fixed counters whose advance is measured: core cycles, cluster cycles, packets, speculative beats. -/
def State.fixedMeasured (s : State) (l : List (Nat × Nat)) : State :=
  l.foldl (fun (t : State) x => if [0, 1, 6, 7].contains x.1 then t.fixedCount x.1 x.2 else t) s

/-- A counter whose event happens below the model's commands advances as measured, where it may count. -/
def State.measuredCount (s : State) (c n : Nat) (a : SampleAt) : State :=
  if c < 64 ∧ s.getF (PMU_CNT_CFG c) PMU_CNT_CFG_ENABLE = 1 ∧ shownEvent (s.getF (PMU_CNT_CFG c) PMU_CNT_CFG_EVENT) = false ∧
      s.countsNow (s.cntHolder c) = true then s.advanceCounter c n a
  else s

/-- PMU_SAMPLE (R541): a counter advances by `n` in a clock, as measured, at a place that is recorded if it crosses a multiple of its period; the
measured fixed counters advance. -/
def execPmuSample (counter n kind unit inst skid loc0 loc1 loc2 : Nat) (fixed : List (Nat × Nat)) (s : State) : Host.Outcome State Fault Refusal :=
  .next ((s.fixedMeasured fixed).measuredCount counter n ⟨kind, unit, inst, skid, loc0, loc1, loc2⟩)

/-! ### PMU_SET_COUNTER (R535, R538) -/

/-- The events of Table 20.2 and whether an instance may count them. -/
def pmuEvent (e : Nat) : Option Bool :=
  if [0x0001, 0x0002, 0x0003, 0x0004].contains e then some false
  else if [0x1001, 0x1002, 0x1003, 0x1004, 0x1005, 0x1007, 0x1010, 0x1011, 0x2001, 0x2002, 0x2003, 0x2004, 0x3001, 0x3002, 0x3003, 0x3004].contains e then some true
  else if [0x1006, 0x4001, 0x4002].contains e then some false
  else if e = 0x5001 ∨ e = 0x5002 then some true
  else if 0x5100 ≤ e ∧ e ≤ 0x512E then some false
  else if 0x5200 ≤ e ∧ e ≤ 0x5207 then some true
  else if [0x6001, 0x6002, 0x7001, 0x7002, 0xE001, 0xE002].contains e then some true
  else if [0x6003, 0x6004, 0x6005, 0x8001, 0x8002, 0x8003, 0x9001, 0x9002, 0x9003, 0xE003].contains e then some false
  else none

/-- The units of an event's class (Table 20.2): cores, clusters, pipes, outputs, targets, channels, banks, none, links; of class 0xE targets, or for
shadow granules banks. -/
def pmuUnits (e : Nat) : Nat :=
  if e = 0xE003 then 16 else [4, 24, 24, 8, 8, 32, 16, 16, 0, 4, 0, 0, 0, 0, 32, 0].getD (bits e 15 12) 0

/-- Events of memory traffic, which an object filter may narrow (R536). -/
def pmuTraffic (e : Nat) : Bool := [5, 6, 7, 0xE].contains (bits e 15 12)

/-- PMU_SET_COUNTER (0x0D01, Table 20.4). -/
def cmdPmuSetCounter : Cmd := ⟨0x0D01, .tenants, 6, none,
  [⟨16, 1, .any⟩, ⟨17, 1, .mask 7⟩, ⟨18, 2, .any⟩, ⟨20, 4, .any⟩, ⟨24, 1, .rng 1 15⟩, ⟨25, 1, .rng 0 2⟩, ⟨26, 1, .oneOf (255 :: List.range 65)⟩,
   ⟨27, 1, .zero⟩, ⟨28, 4, .any⟩, ⟨32, 8, .any⟩, ⟨40, 8, .any⟩, ⟨48, 4, .any⟩, ⟨52, 12, .zero⟩]⟩

/-- The settings in a packet; for an instance the device forces INSTANCE to the holder. -/
def pmuCntOf (owner : Nat) (p : List Byte) : PmuCnt :=
  ⟨par p 20 4, par p 24 1, par p 25 1, if owner = 0 then par p 26 1 else owner, par p 28 4, par p 32 8, par p 40 8, par p 48 4⟩

/-- Ranges of Table 20.4 that depend on the sender, the event and other fields. -/
def pmuSetDyn (s : State) (owner : Nat) (p : List Byte) : List (Nat × Bool) :=
  let e := par p 18 2
  let x := pmuCntOf owner p
  let size := s.objSize x.handle
  [(1, (s.physCounter owner (par p 16 1)).isSome), (3, (pmuEvent e).isSome), (4, decide (x.units < 2 ^ pmuUnits e)),
   (6, decide (owner = 0) || decide (x.world = 0)), (9, decide (x.handle = 0) || pmuTraffic e),
   (10, if x.handle = 0 then decide (x.lo = 0) else decide (x.lo % 32 = 0) && decide (x.lo < size)),
   (11, if x.handle = 0 then decide (x.hi = 0) else decide (x.hi % 32 = 0) && decide (x.lo < x.hi) && decide (x.hi ≤ 32 * ceilDiv size 32)),
   (12, if bit (par p 17 1) 1 then decide (0 < x.period) else decide (x.period = 0))]

/-- Would the command change the event or a filter of an enabled counter (R538)? -/
def State.cntBusy (s : State) (c : Nat) (x : PmuCnt) (e : Nat) : Bool :=
  decide (s.getF (PMU_CNT_CFG c) PMU_CNT_CFG_ENABLE = 1) &&
    (decide (s.getF (PMU_CNT_CFG c) PMU_CNT_CFG_EVENT ≠ e) || decide ({ s.cnt c with period := x.period } ≠ x))

/-- What PMU_SET_COUNTER adds to the shared validation. -/
def hooksPmuSetCounter (pk : Pkt) (s : State) : Hooks :=
  let owner := s.ownerOf pk.fn
  let phys := fun p => (s.physCounter owner (par p 16 1)).getD 64
  { first := fun p => [⟨par p 28 4 = 0 ∨ (s.obj? (par p 28 4)).isSome = true, .staleGeneration, 9⟩]
    dyn := pmuSetDyn s owner
    pre := fun p =>
      [⟨s.cntHolder (phys p) = owner, .notPermitted, 1⟩, ⟨owner = 0 ∨ pmuEvent (par p 18 2) = some true, .notPermitted, 3⟩,
       ⟨owner = 0 ∨ par p 28 4 = 0 ∨ (s.obj? (par p 28 4)).map Obj.owner = some owner, .notPermitted, 9⟩]
    post := fun p => [⟨s.cntBusy (phys p) (pmuCntOf owner p) (par p 18 2) = false, .busy, 1⟩] }

/-- The effect of PMU_SET_COUNTER once it is admitted. -/
def effPmuSetCounter (pk : Pkt) (p : List Byte) (t : State) : State :=
  let owner := t.ownerOf pk.fn
  let phys := fun p => (t.physCounter owner (par p 16 1)).getD 64
  let c := phys p
  let f := par p 17 1
  let sat := if bit f 2 then 0 else t.getF (PMU_CNT_CFG c) PMU_CNT_CFG_SAT
  let t := t.setReg (PMU_CNT_CFG c) (b2n (bit f 0) * 2 ^ 31 + b2n (bit f 1) * 2 ^ 30 + sat * 2 ^ 29 + owner * 2 ^ 16 + par p 18 2)
  let t := if bit f 2 then t.setCntValue c 0 else t
  (t.setCnt c (pmuCntOf owner p)).complete pk .ok

/-- PMU_SET_COUNTER (R538). -/
def execPmuSetCounter (pk : Pkt) (s : State) : Host.Outcome State Fault Refusal :=
  .next (runPkt cmdPmuSetCounter pk s (hooksPmuSetCounter pk s) (effPmuSetCounter pk))

/-! ### PMU_CONTROL (R539) -/

/-- The physical counters a mask names in a holder's numbering. -/
def State.maskCounters (s : State) (owner mask : Nat) : List Nat := (maskList 64 mask).filterMap (fun i => s.physCounter owner i)

/-- Does the holder hold every counter the mask names? -/
def State.holdsAll (s : State) (owner mask : Nat) : Bool :=
  (maskList 64 mask).all (fun i => (s.physCounter owner i).any (fun c => decide (s.cntHolder c = owner)))

/-- PMU_CONTROL (0x0D02, R539). -/
def cmdPmuControl : Cmd := ⟨0x0D02, .tenants, 2, none, [⟨16, 1, .rng 0 2⟩, ⟨17, 7, .zero⟩, ⟨24, 8, .any⟩]⟩

/-- What PMU_CONTROL adds to the shared validation. -/
def hooksPmuControl (pk : Pkt) (s : State) : Hooks :=
  let owner := s.ownerOf pk.fn
  { pre := fun p => [⟨s.holdsAll owner (par p 24 8), .notPermitted, 3⟩] }

/-- The effect of PMU_CONTROL once it is admitted. -/
def effPmuControl (pk : Pkt) (p : List Byte) (t : State) : State :=
  let owner := t.ownerOf pk.fn
  let op := par p 16 1
  ((t.maskCounters owner (par p 24 8)).foldl (fun (u : State) c =>
    if op = 2 then (u.setCntValue c 0).setF (PMU_CNT_CFG c) PMU_CNT_CFG_SAT 0 else u.setF (PMU_CNT_CFG c) PMU_CNT_CFG_ENABLE op) t).complete pk .ok

/-- PMU_CONTROL: stop, start or clear every counter of the mask together (R539). -/
def execPmuControl (pk : Pkt) (s : State) : Host.Outcome State Fault Refusal :=
  .next (runPkt cmdPmuControl pk s (hooksPmuControl pk s) (effPmuControl pk))

/-! ### Sample ring and dumps (R542 to R544) -/

/-- Has the object the USAGE a ring needs: STORAGE or HOST_XFER? -/
def ringUsage (s : State) (h : Nat) : Bool := (s.objUsage h).testBit 4 || (s.objUsage h).testBit 9

/-- PMU_SET_SAMPLES (0x0D04, R542). -/
def cmdPmuSetSamples : Cmd := ⟨0x0D04, .tenants, 2, none, [⟨16, 4, .writeOpt⟩, ⟨20, 4, .zero⟩, ⟨24, 1, .rng 6 16⟩, ⟨25, 7, .zero⟩]⟩

/-- What PMU_SET_SAMPLES adds to the shared validation. -/
def hooksPmuSetSamples (s : State) : Hooks :=
  { dyn := fun p => [(1, decide (par p 16 4 = 0) || decide (32 * 2 ^ par p 24 1 ≤ s.objSize (par p 16 4)))]
    pre := fun p => [⟨par p 16 4 = 0 ∨ ringUsage s (par p 16 4) = true, .notPermitted, 1⟩] }

/-- The effect of PMU_SET_SAMPLES once it is admitted. -/
def effPmuSetSamples (pk : Pkt) (p : List Byte) (t : State) : State :=
  let owner := t.ownerOf pk.fn
  let h := par p 16 4
  let t := { t with pmu := { t.pmu with
    rings := tabSet (fun _ => none) t.pmu.rings owner (if h = 0 then none else some (h, par p 24 1))
    lostSample := t.pmu.lostSample.filter (fun o => decide (o ≠ owner)) } }
  ((t.setReg (PMU_SAMPLE_HEAD owner) 0).setReg (PMU_SAMPLE_TAIL owner) 0).complete pk .ok

/-- PMU_SET_SAMPLES: names the sample ring, which starts empty, or turns sampling output off (R542). -/
def execPmuSetSamples (pk : Pkt) (s : State) : Host.Outcome State Fault Refusal :=
  .next (runPkt cmdPmuSetSamples pk s (hooksPmuSetSamples s) (effPmuSetSamples pk))

/-- The bytes of an entry of a dump ring with `n` counters (R543). -/
def dumpEntry (n : Nat) : Nat := 32 * ceilDiv (32 + 8 * n) 32

/-- PMU_SET_DUMP (0x0D03, Table 20.6). -/
def cmdPmuSetDump : Cmd := ⟨0x0D03, .tenants, 3, none,
  [⟨16, 4, .rng 0 1000000⟩, ⟨20, 4, .writeOpt⟩, ⟨24, 8, .any⟩, ⟨32, 1, .rng 4 16⟩, ⟨33, 7, .zero⟩]⟩

/-- What PMU_SET_DUMP adds to the shared validation. -/
def hooksPmuSetDump (pk : Pkt) (s : State) : Hooks :=
  let owner := s.ownerOf pk.fn
  { dyn := fun p =>
      let on := decide (par p 16 4 ≠ 0)
      [(1, !on || decide (10 ≤ par p 16 4)), (2, decide (par p 20 4 ≠ 0) == on),
       (3, s.holdsAll owner (par p 24 8) && (!on || decide (par p 24 8 ≠ 0))),
       (4, !on || decide (2 ^ par p 32 1 * dumpEntry (popCount 64 (par p 24 8)) ≤ s.objSize (par p 20 4)))]
    pre := fun p => [⟨par p 20 4 = 0 ∨ ringUsage s (par p 20 4) = true, .notPermitted, 2⟩] }

/-- The effect of PMU_SET_DUMP once it is admitted. -/
def effPmuSetDump (pk : Pkt) (p : List Byte) (t : State) : State :=
  let owner := t.ownerOf pk.fn
  let d := if par p 16 4 = 0 then none else some (PmuDump.mk (par p 16 4) (par p 20 4) (par p 24 8) (par p 32 1) 0 false)
  let t := { t with pmu := { t.pmu with
    dumps := tabSet (fun _ => none) t.pmu.dumps owner d, lostDump := t.pmu.lostDump.filter (fun o => decide (o ≠ owner)) } }
  ((t.setReg (PMU_DUMP_HEAD owner) 0).setReg (PMU_DUMP_TAIL owner) 0).complete pk .ok

/-- PMU_SET_DUMP: sets up periodic dumps, whose ring starts empty, or turns them off (R543). -/
def execPmuSetDump (pk : Pkt) (s : State) : Host.Outcome State Fault Refusal :=
  .next (runPkt cmdPmuSetDump pk s (hooksPmuSetDump pk s) (effPmuSetDump pk))

/-- The word of a counter in a dump (R543). -/
def State.dumpWord (s : State) (owner i : Nat) : Nat :=
  match s.physCounter owner i with
  | some c => s.getF (PMU_CNT_CFG c) PMU_CNT_CFG_SAT * 2 ^ 63 + i * 2 ^ 48 + s.cntValue c
  | none => i * 2 ^ 48

/-- A dump record (R543): header and counter words, padded to the entry. -/
def State.dumpRecord (s : State) (owner : Nat) (d : PmuDump) : List Byte :=
  let cs := maskList 64 d.mask
  let sat := cs.any (fun i => (s.physCounter owner i).any (fun c => decide (s.getF (PMU_CNT_CFG c) PMU_CNT_CFG_SAT = 1)))
  let bs := leBytes 4 d.seq ++ leBytes 2 (b2n sat + 2 * b2n d.lost) ++ leBytes 1 cs.length ++ leBytes 1 0 ++ leBytes 8 s.now ++ leBytes 8 s.fabricTime ++
    leBytes 8 0 ++ cs.flatMap (fun i => leBytes 8 (s.dumpWord owner i))
  bs ++ List.replicate (dumpEntry cs.length - bs.length) 0

/-- PMU_DUMP_PERIOD (R543, R544): a period boundary of a holder's dumps; counters whose events are measured have advanced, and `busy` says that the
previous record is still being written. No dump is written in the safe state or while the holder is frozen (R545). -/
def execPmuDumpPeriod (owner : Nat) (adv fixed : List (Nat × Nat)) (busy : Bool) (s : State) : Host.Outcome State Fault Refusal :=
  let s := adv.foldl (fun (t : State) x => t.measuredCount x.1 x.2 ⟨0, 0, 0xFF, 0xFF, 0, 0, 0⟩) (s.fixedMeasured fixed)
  .next (match tabGet (fun _ => none) s.pmu.dumps owner with
  | none => s
  | some d =>
    if s.safe ∨ s.countsNow owner = false then s
    else
      let d := { d with seq := (d.seq + 1) % 2 ^ 32 }
      let put := fun (t : State) (d : PmuDump) => { t with pmu := { t.pmu with dumps := tabSet (fun _ => none) t.pmu.dumps owner (some d) } }
      let tail := s.reg (PMU_DUMP_TAIL owner)
      if busy = true ∨ (s.obj? d.handle).isNone ∨ 2 ^ d.depth ≤ (tail + 2 ^ 32 - s.reg (PMU_DUMP_HEAD owner)) % 2 ^ 32 then
        ((put s { d with lost := true }).count (PMU_DUMP_LOST owner)).tellLost owner 0
      else
        let bs := s.dumpRecord owner d
        let s := (s.store (handleIndex d.handle) (bs.length * (tail % 2 ^ d.depth)) bs).setReg (PMU_DUMP_TAIL owner) (tail + 1)
        put { s with pmu := { s.pmu with lostDump := s.pmu.lostDump.filter (fun q => decide (q ≠ owner)) } } { d with lost := false })

end Sys2Proof.Machine
end

