-- ==== Sys2Proof/Machine/Pixels.lean ====
section
/-! DEFINITION. Pixel formats, surfaces and their blocks (R207, R228 to R233), channel expansion and transfer functions
(R265, R266, R269), scaler positions and coefficients (R273, R274). -/

namespace Sys2Proof.Machine

/-- A quotient rounded to nearest; the spec gives no rule for the half way case. -/
def roundDiv (a b : Nat) : Nat :=
  if 2 * (a % b) < b then a / b
  else if b < 2 * (a % b) then a / b + 1
  else if Config.tieUp (a / b) then a / b + 1 else a / b

/-- A signed quotient rounded to nearest. -/
def roundDivInt (a : Int) (b : Nat) : Int :=
  if 2 * (a % b) < b then a / b
  else if (b : Int) < 2 * (a % b) then a / b + 1
  else if Config.tieUp (a / b).natAbs then a / b + 1 else a / b

/-! ### Formats -/

/-- Bytes per pixel (Table 7.9), 0 for a code that is no format. -/
def fmtBytes (f : Nat) : Nat :=
  if [0x01, 0x02, 0x03, 0x04, 0x05, 0x08, 0x0A, 0x20, 0x21].contains f then 4
  else if f = 0x06 then 1
  else if f = 0x07 then 2
  else if f = 0x09 ∨ f = 0x22 then 8
  else if f = 0x0B then 16
  else 0

/-- The coding channels' widths in order (Table 8.1). -/
def fmtWidths (f : Nat) : List Nat :=
  if [0x01, 0x02, 0x03, 0x04].contains f then [8, 8, 8, 8]
  else if f = 0x05 then [10, 10, 10, 2]
  else if f = 0x06 then [8]
  else if f = 0x07 then [8, 8]
  else if f = 0x08 then [16, 16]
  else if f = 0x09 then [16, 16, 16, 16]
  else if f = 0x0A ∨ f = 0x20 then [32]
  else if f = 0x0B then [32, 32, 32, 32]
  else if f = 0x21 then [24, 8]
  else if f = 0x22 then [32, 8]
  else []

/-- The class of a format (Table 8.1). -/
def fmtClass (f : Nat) : Nat :=
  if f ≤ 0x04 ∨ f = 0x06 ∨ f = 0x07 then 0 else if f = 0x05 then 1 else if 0x20 ≤ f then 3 else 2

/-- The colour formats of Table 7.9. -/
def isColorFmt (f : Nat) : Bool := decide (1 ≤ f) && decide (f ≤ 0x0B)

/-- The depth formats of Table 7.9. -/
def isDepthFmt (f : Nat) : Bool := decide (0x20 ≤ f) && decide (f ≤ 0x22)

/-- Is a pixel opaque (Table 8.1)? -/
def opaquePixel (f : Nat) (c : List Nat) : Bool :=
  if f ≤ 0x04 then decide (c.getD 3 0 = 0xFF)
  else if f = 0x05 then decide (c.getD 3 0 = 3)
  else if f = 0x09 then decide (c.getD 3 0 = 0x3C00)
  else if f = 0x0B then decide (c.getD 3 0 = 0x3F800000)
  else true

/-- The channel values of a pixel's word, from bit 0 up. -/
def unpack : List Nat → Nat → List Nat
  | [], _ => []
  | w :: r, v => v % 2 ^ w :: unpack r (v / 2 ^ w)

/-- The word of channel values. -/
def pack : List Nat → List Nat → Nat
  | w :: r, c :: t => c % 2 ^ w + 2 ^ w * pack r t
  | _, _ => 0

/-! ### Surfaces -/

/-- Blocks of a surface across and down (R207). -/
def blocksW (w : Nat) : Nat := ceilDiv w 8

/-- Bytes of the data area (R207). -/
def dataArea (w h f samples : Nat) : Nat := blocksW w * blocksW h * 64 * fmtBytes f * samples

/-- Bytes of a surface (R207). -/
def surfaceSize (w h f samples : Nat) : Nat :=
  dataArea w h f samples + 256 * ceilDiv (blocksW w * blocksW h) 256

/-- The rank of block (bx, by) (R228). -/
def blockRank (bw bh bx y : Nat) : Nat :=
  let sr := y / 16
  let sc := bx / 16
  let hr := min 16 (bh - 16 * sr)
  let ws := min 16 (bw - 16 * sc)
  let r := 16 * sr * bw + 16 * sc * hr
  let ly := y - 16 * sr
  let lx := bx - 16 * sc
  let gr := ly / 4
  let gc := lx / 4
  let gh := min 4 (hr - 4 * gr)
  let gw := min 4 (ws - 4 * gc)
  r + 4 * gr * ws + 4 * gc * gh + (ly - 4 * gr) * gw + (lx - 4 * gc)

/-- Reading a compressed stream: the stream, the next bit, whether every W was within its width, decoded planes. -/
structure StreamPos where
  bit : Nat
  ok : Bool
  planes : List (List Nat)

/-- Read one channel's BASE, W and 64 offsets (R231). -/
def readPlane (v : Nat) (p : StreamPos) (width : Nat) : StreamPos :=
  let base := v / 2 ^ p.bit % 2 ^ width
  let w := v / 2 ^ (p.bit + width) % 64
  let at0 := p.bit + width + 6
  ⟨at0 + 64 * w, p.ok && decide (w ≤ width),
   p.planes ++ [(List.range 64).map (fun k => (base + v / 2 ^ (at0 + k * w) % 2 ^ w) % 2 ^ width)]⟩

/-- The channel planes of a compressed slot, sample after sample; none if a W exceeds its width (R231, R233). -/
def readStream (f samples size : Nat) (slot : List Byte) : Option (List (List Nat)) :=
  let v := leNat (slot.take (32 * size)) + 2 ^ (256 * size) * Config.beyondSectors
  let r := ((List.range samples).flatMap (fun _ => fmtWidths f)).foldl (readPlane v) ⟨0, true, []⟩
  if r.ok then some r.planes else none

/-- Is the metadata byte valid for a surface of this format (R233)? -/
def metaValid (f samples m : Nat) : Bool :=
  decide (bits m 7 6 = fmtClass f) &&
  !(m.testBit 5 && decide (bits m 3 0 ≠ 0)) &&
  (decide (bits m 3 0 = 0) || decide (bits m 3 0 = 15) || decide (bits m 3 0 < 2 * fmtBytes f * samples))

/-- Channel `c` of sample `smp` of pixel `k` of a block; none for an invalid block (R231, R233). -/
def blockPixel (f samples m : Nat) (slot : List Byte) (k smp : Nat) : Option (List Nat) :=
  if metaValid f samples m then
    if bits m 3 0 = 0 then some (unpack (fmtWidths f) (leNat (slot.take (fmtBytes f))))
    else if bits m 3 0 = 15 then
      some (unpack (fmtWidths f) (leNat (slice slot ((k * samples + smp) * fmtBytes f) (fmtBytes f))))
    else (readStream f samples (bits m 3 0) slot).map (fun ps =>
      (List.range (fmtWidths f).length).map (fun c => (ps.getD (smp * (fmtWidths f).length + c) []).getD k 0))
  else none

/-- Where the bytes of a block of a surface starting at `base` lie: its slot and its metadata byte (R228). -/
def slotOffset (base w h f samples bx y : Nat) : Nat :=
  base + blockRank (blocksW w) (blocksW h) bx y * 64 * fmtBytes f * samples

/-- The offset of a block's metadata byte. -/
def metaOffset (base w h f samples bx y : Nat) : Nat :=
  base + dataArea w h f samples + blockRank (blocksW w) (blocksW h) bx y

/-- A block of a surface kept in the object with index `i`: its metadata byte and slot. -/
def State.surfBlock (s : State) (i base w h f samples bx y : Nat) : Nat × List Byte :=
  ((s.objByte i (metaOffset base w h f samples bx y)).toNat,
   s.objBytes i (slotOffset base w h f samples bx y) (64 * fmtBytes f * samples))

/-- The bytes of its slot a reader fetches from a block (R233). -/
def fetchedBytes (f samples m : Nat) : Nat :=
  if bits m 3 0 = 0 then fmtBytes f
  else if bits m 3 0 = 15 then 64 * fmtBytes f * samples
  else 32 * bits m 3 0

/-- A pixel of a surface at one sample: its channels, zero in an invalid block (R233). -/
def State.surfPixel (s : State) (i base w h f x y : Nat) : List Nat :=
  let b := s.surfBlock i base w h f 1 (x / 8) (y / 8)
  (blockPixel f 1 b.1 b.2 (y % 8 * 8 + x % 8) 0).getD ((fmtWidths f).map (fun _ => 0))

/-! ### Expansion and transfer functions -/

/-- A half-float clamped to [0, 1] in units of 1/65,535 (R265). -/
def expandHalf (h : Nat) : Nat :=
  let e := bits h 14 10
  let m := bits h 9 0
  if e = 31 ∧ m ≠ 0 then (Config.nanValue h).toNat
  else if h.testBit 15 then 0
  else if 15 ≤ e then 65535
  else if e = 0 then roundDiv (m * 65535) (2 ^ 24)
  else roundDiv ((1024 + m) * 65535) (2 ^ (25 - e))

/-- A channel value expanded to 16 bits (R265). -/
def expand (width v : Nat) : Nat :=
  if width = 8 then v * 257
  else if width = 10 then v * 64 + v / 16
  else if width = 2 then v * 21845
  else expandHalf v

/-- A pixel as expanded R, G, B, A (R265); the formats a layer may have. -/
def expandPixel (f : Nat) (c : List Nat) : List Nat :=
  let e := (fmtWidths f).zipWith expand c
  if f = 0x03 ∨ f = 0x04 then [e.getD 2 0, e.getD 1 0, e.getD 0 0, e.getD 3 0] else e

/-- The greatest `y` below 2ⁿ with `p y`, for a `p` that holds up to some point; 0 if none. -/
def greatest : Nat → (Nat → Bool) → Nat → Nat
  | 0, _, y => y
  | n + 1, p, y => greatest n p (if p (y + 2 ^ n) then y + 2 ^ n else y)

/-- The sRGB transfer function to the nearest 16-bit value (R266): the value `y` is the greatest for which
(2y − 1) / 131,070 is at most the function. -/
def srgbToLinear (x : Nat) : Nat :=
  if x * 100000 ≤ 4045 * 65535 then roundDiv (x * 100) 1292
  else
    let a := x * 1000 + 55 * 65535
    let b := 65535 * 1055
    greatest 16 (fun y => decide ((2 * y - 1) ^ 5 * b ^ 12 ≤ a ^ 12 * 131070 ^ 5)) 0

/-- The inverse sRGB transfer function to the nearest 12-bit code (R269). -/
def linearToSrgb (l : Nat) : Nat :=
  if l * 10000000 ≤ 31308 * 65535 then roundDiv (l * 4095 * 1292) (65535 * 100)
  else
    greatest 12 (fun c =>
      decide (((2 * c - 1) * 1000 + 55 * 8190) ^ 12 * 65535 ^ 5 ≤ l ^ 5 * (8190 * 1055) ^ 12)) 0

/-- Interpolation in a table of 1,024 entries (R266). -/
def tableLookup (t : List Nat) (x : Nat) : Nat :=
  let i := x / 64
  let f := x % 64
  let a : Int := t.getD i 0
  let b : Int := t.getD (min (i + 1) 1023) 0
  (a + ((b - a) * f + 32) / 64).toNat

/-- One of the three 1,024-entry tables of a de-gamma table; the identity until the first load (R266). -/
def lutOf (t : List Nat) (c : Nat) : List Nat :=
  if t = [] then (List.range 1024).map (fun i => if i = 1023 then 65535 else i * 64) else (t.drop (1024 * c)).take 1024

/-! ### Scaling -/

/-- The source position of destination column `j` in 1/65,536 pixel (R273). -/
def scalePos (srcX srcW dstW j : Nat) : Int :=
  srcX * 65536 + ((2 * j + 1) * srcW * 65536 / (2 * dstW) : Nat) - 32768

/-- The integer part and the phase of a position (R273). -/
def posInt (x : Int) : Int := x / 65536
def posPhase (x : Int) : Nat := (x % 65536).toNat / 1024

/-- An index inside [lo, hi], its nearest edge otherwise (R273). -/
def clampIdx (lo hi : Nat) (x : Int) : Nat := min hi (max (lo : Int) x).toNat

/-- π in 1/2⁶⁰. -/
def piFixed : Nat := 3622009729038561421

/-- sin(π·m/d) in 1/2⁶⁰ for 0 ≤ m ≤ d: eleven terms of the series for an argument folded to at most π/2. -/
def sinFixed (m d : Nat) : Int :=
  let m := if d < 2 * m then d - m else m
  let x : Int := (m * piFixed / d : Nat)
  let x2 := x * x / 2 ^ 60
  ((List.range 11).foldl (fun (p : Int × Int) (k : Nat) =>
    (p.1 + p.2, -(p.2 * x2 / 2 ^ 60) / (((2 * k + 2) * (2 * k + 3) : Nat) : Int))) (0, x)).1

/-- The weight of the Lanczos window of half width `a` at the offset m/64, up to a factor common to a phase: with the
phase fixed, sin(πx) changes between taps only in sign, so the weight goes with (−1)ᵏ·sin(πx/a)/x² (R274). -/
def lanczosWeight (a k : Nat) (m : Int) : Int :=
  if 64 * a ≤ m.natAbs ∨ m = 0 then 0
  else
    let w := sinFixed m.natAbs (64 * a) * 2 ^ 20 / (m * m)
    if (decide (k % 2 = 1)) ^^ (decide (m < 0)) then -w else w

/-- The coefficients of one phase of a Lanczos filter with `n` taps (2a) and offset base `c` (R274): each weight rounded
to 1,024 × w / Σw, the residue added to the largest tap. -/
def lanczosTaps (a n c p : Nat) : List Int :=
  if p = 0 then (List.range n).map (fun k => if k = c then 1024 else 0)
  else
    let w := (List.range n).map (fun k => lanczosWeight a k (64 * ((k : Int) - c) - p))
    let sum := w.foldl (· + ·) 0
    let r := w.map (fun x => if 0 ≤ sum then roundDivInt (1024 * x) sum.natAbs else roundDivInt (-(1024 * x)) sum.natAbs)
    let top := r.foldl max (-4096)
    let at_ := (r.findIdx? (fun x => x = top)).getD 0
    (List.range n).map (fun k => r.getD k 0 + if k = at_ then 1024 - r.foldl (· + ·) 0 else 0)

/-- The horizontal taps of a phase (R274). -/
def tapsH (filter : Nat) (coef : List Int) (p : Nat) : List Int :=
  if filter = 0 then lanczosTaps 4 8 3 p
  else if filter = 1 then (List.range 8).map (fun k => if k = 3 then 1024 - 16 * (p : Int) else if k = 4 then 16 * (p : Int) else 0)
  else if filter = 2 then (List.range 8).map (fun k => if k = (if p < 32 then 3 else 4) then 1024 else 0)
  else (coef.drop (8 * p)).take 8

/-- The vertical taps of a phase (R274). -/
def tapsV (filter : Nat) (coef : List Int) (p : Nat) : List Int :=
  if filter = 0 then lanczosTaps 3 6 2 p
  else if filter = 1 then (List.range 6).map (fun k => if k = 2 then 1024 - 16 * (p : Int) else if k = 3 then 16 * (p : Int) else 0)
  else if filter = 2 then (List.range 6).map (fun k => if k = (if p < 32 then 2 else 3) then 1024 else 0)
  else (coef.drop (512 + 6 * p)).take 6

/-- A filter's sum divided by 1,024, rounded and clamped to 16 bits (R273). -/
def filterSum (taps : List Int) (vals : List Nat) : Nat :=
  let s : Int := ((taps.zip vals).map (fun x => x.1 * (x.2 : Int))).foldl (· + ·) 0
  min 65535 (roundDivInt s 1024).toNat

/-- A custom coefficient set (R274): 896 signed 16-bit values, each from −2,048 to 2,047, the taps of each phase adding up
to 1,024. -/
def coefsOf (bs : List Byte) : List Int :=
  (List.range 896).map (fun k => signed 16 (leNat (slice bs (2 * k) 2)))

/-- Is a custom set well formed (R274)? -/
def coefsOk (c : List Int) : Bool :=
  c.all (fun x => decide (-2048 ≤ x) && decide (x ≤ 2047)) &&
  (List.range 64).all (fun p => decide (((c.drop (8 * p)).take 8).foldl (· + ·) 0 = 1024) &&
    decide (((c.drop (512 + 6 * p)).take 6).foldl (· + ·) 0 = 1024))

end Sys2Proof.Machine
end

