-- ==== Sys2Proof/Machine/Bindery.lean ====
section
/-! DEFINITION. The Bindery's layers (R253 to R264, R270, R276 to R285): settings, resources, flips, tables, poses, and
what a latch does to the layers of an output. Composition itself stands in Machine/Compose.lean. -/

namespace Sys2Proof.Machine

/-! ### Layers and outputs -/

/-- The layer with this key (128 × owner + number). -/
def State.layer (s : State) (key : Nat) : Layer := tabGet (fun _ => {}) s.bnd.layers key

/-- `s` with a layer changed. -/
def State.setLayer (s : State) (key : Nat) (x : Layer) : State :=
  { s with bnd := { s.bnd with layers := tabSet (fun _ => {}) s.bnd.layers key x } }

/-- Composition pipe `k`. -/
def State.pipe (s : State) (k : Nat) : Pipe := tabGet (fun _ => {}) s.bnd.pipes k

/-- `s` with a pipe changed. -/
def State.setPipe (s : State) (k : Nat) (x : Pipe) : State :=
  { s with bnd := { s.bnd with pipes := tabSet (fun _ => {}) s.bnd.pipes k x } }

/-- Output `k` beside its registers. -/
def State.outp (s : State) (k : Nat) : OutState := tabGet (fun _ => {}) s.outs.outs k

/-- `s` with an output changed. -/
def State.setOutp (s : State) (k : Nat) (x : OutState) : State :=
  { s with outs := { s.outs with outs := tabSet (fun _ => {}) s.outs.outs k x } }

/-- The key of layer `n` of an owner. -/
def layerKey (owner n : Nat) : Nat := 128 * owner + n

/-- HTOTAL and VTOTAL as the registers give them (R290). -/
def State.htotal (s : State) (k : Nat) : Nat :=
  s.getF (OUT_HACTIVE k) OUT_HACTIVE_ACTIVE + s.getF (OUT_HPORCH k) OUT_HPORCH_FRONT +
    s.getF (OUT_HSYNC k) OUT_HSYNC_WIDTH + s.getF (OUT_HPORCH k) OUT_HPORCH_BACK

/-- VTOTAL (R290). -/
def State.vtotal (s : State) (k : Nat) : Nat :=
  s.getF (OUT_VACTIVE k) OUT_VACTIVE_ACTIVE + s.getF (OUT_VPORCH k) OUT_VPORCH_FRONT +
    s.getF (OUT_VSYNC k) OUT_VSYNC_WIDTH + s.getF (OUT_VPORCH k) OUT_VPORCH_BACK

/-- Is the output half of a locked pair? -/
def State.paired (s : State) (k : Nat) : Bool := s.getF (OUT_STATUS k) OUT_STATUS_PAIRED = 1

/-- The output whose latch governs output `k`: the even half of a locked pair (R305). -/
def State.latchOf (s : State) (k : Nat) : Nat := if s.paired k then k / 2 * 2 else k

/-- The outputs governed by the latch of `k`. -/
def State.halves (s : State) (k : Nat) : List Nat := if s.paired k then [k / 2 * 2, k / 2 * 2 + 1] else [k]

/-- The STATE of an output (Table 10.13). -/
def State.outState (s : State) (k : Nat) : Nat := s.getF (OUT_STATUS k) OUT_STATUS_STATE

/-- The 64-bit frame number (R291). -/
def State.frame (s : State) (k : Nat) : Nat := s.reg64 (OUT_FRAME_LO k)

/-- Is the entry to DORMANT or HAIRSPRING in progress (R456)? -/
def State.entering (s : State) : Bool := s.getF PCU_STATE PCU_STATE_ENTERING = 1

/-! ### Settings -/

/-- The settings of a block (Table 9.2), defaults resolved. -/
def layerSetOf (p : List Byte) (coef : List Int) : LayerSet :=
  let low := if par p 49 1 = 0 then 16 else par p 49 1
  { output := par p 17 1, enable := bit (par p 18 1) 0, warp := bit (par p 18 1) 1, cls := par p 19 1,
    format := par p 20 1, blend := par p 21 1, degamma := par p 22 1, filter := par p 23 1, alpha := par p 24 2,
    z := par p 26 1, late := par p 27 1, surfW := par p 28 2, surfH := par p 30 2, srcX := par p 32 2,
    srcY := par p 34 2, srcW := par p 36 2, srcH := par p 38 2, dstX := signed 16 (par p 40 2),
    dstY := signed 16 (par p 42 2), dstW := par p 44 2, dstH := par p 46 2,
    depth := if par p 48 1 = 0 then 24 else par p 48 1, lowWm := low,
    critWm := if par p 50 1 = 0 then 6 else par p 50 1, expect := par p 51 1, subColor := par p 52 4, coef := coef,
    warpBand := par p 64 2, warpMargin := par p 66 1, fx := par p 68 4, fy := par p 72 4, cx := par p 76 4,
    cy := par p 80 4 }

/-- Is the layer scaled (R259)? A warped layer uses no scaler. -/
def LayerSet.scaled (l : LayerSet) : Bool := !l.warp && (decide (l.dstW ≠ l.srcW) || decide (l.dstH ≠ l.srcH))

/-- The parts of a layer: the pipe and the width of each (R134, R259). -/
def State.partsOf (s : State) (l : LayerSet) : List (Nat × Nat) :=
  if s.paired l.output then
    let b : Int := s.getF (OUT_HACTIVE l.output) OUT_HACTIVE_ACTIVE
    let k := l.output / 2 * 2
    if b ≤ l.dstX then [(k + 1, l.dstW)]
    else if l.dstX + l.dstW ≤ b then [(k, l.dstW)]
    else [(k, (b - l.dstX).toNat), (k + 1, (l.dstX + l.dstW - b).toNat)]
  else [(l.output, l.dstW)]

/-- The scalers a layer needs (R135, R259). -/
def State.scalersNeeded (s : State) (l : LayerSet) : Nat :=
  if l.scaled then ((s.partsOf l).map (fun p => if p.2 ≤ 5120 then 1 else 2)).foldl (· + ·) 0 else 0

/-- The line-buffer charge in bytes, on each pipe the layer touches (R260). -/
def LayerSet.poolCharge (l : LayerSet) : Nat :=
  let lines := ceilDiv (l.depth * l.srcH) l.dstH + 8 +
    (if l.warp then 2 * l.warpMargin else if l.dstH ≠ l.srcH then 6 else 0)
  ceilDiv l.srcW 8 * 8 * fmtBytes l.format * lines

/-- A fetch charge in bytes a second, rounded up, at a pixel clock and totals (R261). -/
def LayerSet.fetchAt (l : LayerSet) (hz total : Nat) : Nat :=
  if total = 0 then 0 else ceilDiv (l.srcW * l.srcH * fmtBytes l.format * hz) total

/-- The fetch charge at the timing of the layer's output; none while it has no timing (R261). -/
def State.fetchCharge (s : State) (l : LayerSet) : Nat :=
  l.fetchAt (s.reg (OUT_PCLK (s.latchOf l.output))) (s.htotal l.output * s.vtotal l.output)

/-! ### Resources (R134, R135, R257, R258) -/

/-- Every layer but one, with its key. -/
def State.otherLayers (s : State) (key : Nat) : List (Nat × Layer) := s.bnd.layers.filter (fun p => decide (p.1 ≠ key))

/-- The slots in use by other layers, held or reserved. -/
def State.slotsTaken (s : State) (key : Nat) : List Nat :=
  (s.otherLayers key).flatMap (fun p => p.2.held.slots ++ p.2.reserved.slots)

/-- The scalers in use by other layers. -/
def State.scalersTaken (s : State) (key : Nat) : List Nat :=
  (s.otherLayers key).flatMap (fun p => p.2.held.scalers ++ p.2.reserved.scalers)

/-- The distinct elements of a list of numbers below 128. -/
def distinct (l : List Nat) : List Nat := (List.range 128).filter (fun k => l.contains k)

/-- Layer units and scalers of an owner's other layers. -/
def State.unitsUsed (s : State) (owner key : Nat) : Nat :=
  (((s.otherLayers key).filter (fun p => decide (p.1 / 128 = owner))).map
    (fun p => (distinct (p.2.held.slots ++ p.2.reserved.slots)).length)).foldl (· + ·) 0

def State.scalersUsed (s : State) (owner key : Nat) : Nat :=
  (((s.otherLayers key).filter (fun p => decide (p.1 / 128 = owner))).map
    (fun p => (distinct (p.2.held.scalers ++ p.2.reserved.scalers)).length)).foldl (· + ·) 0

/-- A charge on a pipe by other layers: what each holds or reserves, whichever is more. -/
def State.chargedBy (s : State) (key : Nat) (k : Nat) (f : LayerRes → Tab Nat) : Nat :=
  ((s.otherLayers key).map (fun p =>
    max (tabGet (fun _ => 0) (f p.2.held) k) (tabGet (fun _ => 0) (f p.2.reserved) k))).foldl (· + ·) 0

/-- The slot a part takes: one the layer holds in that pipe, else the lowest-numbered free one (R134). -/
def State.slotFor (s : State) (key : Nat) (k : Nat) : Option Nat :=
  let x := s.layer key
  match (x.held.slots ++ x.reserved.slots).find? (fun v => v / 16 = k) with
  | some v => some v
  | none => ((List.range 16).map (fun v => 16 * k + v)).find? (fun v => !(s.slotsTaken key).contains v)

/-- The scalers a layer takes: those it holds, the lowest first, then the lowest-numbered free ones (R135). -/
def State.scalersFor (s : State) (key n : Nat) : List Nat :=
  let own := distinct ((s.layer key).held.scalers)
  (own ++ (List.range 16).filter (fun v => !own.contains v && !(s.scalersTaken key).contains v)).take n

/-- What settings need (R257): nothing when they clear ENABLE. -/
def State.resFor (s : State) (key : Nat) (l : LayerSet) : LayerRes :=
  if l.enable then
    let ps := s.partsOf l
    { slots := ps.filterMap (fun p => s.slotFor key p.1), scalers := s.scalersFor key (s.scalersNeeded l),
      pool := ps.map (fun p => (p.1, l.poolCharge)), fetch := ps.map (fun p => (p.1, s.fetchCharge l)) }
  else {}

/-- The resource checks of Table 9.4. -/
def State.resChecks (s : State) (owner key : Nat) (l : LayerSet) : List Chk :=
  if l.enable then
    let ps := s.partsOf l
    let n := s.scalersNeeded l
    [⟨s.unitsUsed owner key + ps.length ≤ s.limitOf owner 128 Grant.layers, .noResource, 1⟩,
     ⟨ps.all (fun p => (s.slotFor key p.1).isSome), .noResource, 2⟩,
     ⟨(s.scalersFor key n).length = n ∧ s.scalersUsed owner key + n ≤ s.limitOf owner 16 Grant.scalers, .noResource, 20⟩,
     ⟨ps.all (fun p => decide (s.chargedBy key p.1 LayerRes.pool + l.poolCharge ≤ 2097152)), .noResource, 22⟩,
     ⟨ps.all (fun p => decide (s.chargedBy key p.1 LayerRes.fetch + s.fetchCharge l ≤ 28800000000)), .noResource, 16⟩]
  else []

/-! ### BND_SET_LAYER -/

/-- FP32 above 0, and FP32 that is finite. -/
def fpPositive (v : Nat) : Bool := decide (0 < v) && decide (v ≤ 0x7F800000)
def fpFinite (v : Nat) : Bool := decide (bits v 30 23 ≠ 255)

/-- BND_SET_LAYER (0x0401, Table 9.2). -/
def cmdBndSetLayer : Cmd := ⟨0x0401, .tenants, 0, some (96, 96),
  [⟨16, 1, .rng 0 127⟩, ⟨17, 1, .rng 0 7⟩, ⟨18, 1, .mask 3⟩, ⟨19, 1, .rng 1 3⟩, ⟨20, 1, .oneOf [1, 2, 3, 4, 5, 9]⟩,
   ⟨21, 1, .rng 0 2⟩, ⟨22, 1, .rng 0 2⟩, ⟨23, 1, .rng 0 3⟩, ⟨24, 2, .any⟩, ⟨26, 1, .any⟩, ⟨27, 1, .rng 0 4⟩,
   ⟨28, 2, .rng 1 16384⟩, ⟨30, 2, .rng 1 16384⟩, ⟨32, 2, .any⟩, ⟨34, 2, .any⟩, ⟨36, 2, .any⟩, ⟨38, 2, .any⟩,
   ⟨40, 2, .srng 16 (-16384) 16383⟩, ⟨42, 2, .srng 16 (-16384) 16383⟩, ⟨44, 2, .rng 1 10240⟩, ⟨46, 2, .rng 1 16384⟩,
   ⟨48, 1, .oneOf (0 :: (List.range 57).map (fun n => n + 8))⟩, ⟨49, 1, .any⟩, ⟨50, 1, .any⟩, ⟨51, 1, .any⟩, ⟨52, 4, .any⟩,
   ⟨56, 4, .any⟩, ⟨60, 4, .any⟩, ⟨64, 2, .any⟩, ⟨66, 1, .rng 0 64⟩, ⟨67, 1, .zero⟩, ⟨68, 4, .any⟩, ⟨72, 4, .any⟩,
   ⟨76, 4, .any⟩, ⟨80, 4, .any⟩, ⟨84, 28, .zero⟩]⟩

/-- Ranges of Table 9.2 that depend on other fields. -/
def setLayerDyn (s : State) (p : List Byte) : List (Nat × Bool) :=
  let l := layerSetOf p []
  let z := fun (n v : Nat) (ok : Bool) => (n, if l.warp then ok else decide (v = 0))
  [(2, !(s.paired l.output && decide (l.output % 2 = 1))),
   (14, decide (l.srcX < l.surfW)), (15, decide (l.srcY < l.surfH)),
   (16, decide (l.srcX + l.srcW ≤ l.surfW)), (17, decide (l.srcY + l.srcH ≤ l.surfH)),
   (23, decide (par p 49 1 = 0) || (decide (2 ≤ par p 49 1) && decide (par p 49 1 < l.depth))),
   (24, decide (par p 50 1 = 0) || decide (par p 50 1 < l.lowWm)),
   (27, decide (l.filter = 3) || decide (par p 56 4 = 0)),
   (28, if l.filter = 3 then decide (par p 60 4 % 16 = 0) && decide (par p 60 4 + 1792 ≤ s.objSize (par p 56 4))
        else decide (par p 60 4 = 0)),
   z 29 l.warpBand (decide (8 ≤ l.warpBand) && decide (l.warpBand ≤ 64) && decide (l.warpBand % 8 = 0)),
   z 30 l.warpMargin true, z 32 l.fx (fpPositive l.fx), z 33 l.fy (fpPositive l.fy), z 34 l.cx (fpFinite l.cx),
   z 35 l.cy (fpFinite l.cy)]

/-- The settings against which a layer's number is judged: those validated, else those in effect. -/
def Layer.settings (x : Layer) : Option LayerSet :=
  match x.pend with
  | some (l, _) => if l.enable then some l else none
  | none => x.cur

/-- The further range checks of Table 9.3, in row order. -/
def setLayerMore (s : State) (owner : Nat) (p : List Byte) : List Chk :=
  let l := layerSetOf p []
  let ratio := fun (lo hi : Nat) (d q : Nat) => decide (lo * q ≤ 4 * d) && decide (d ≤ hi * q) && decide (0 < q)
  [⟨(l.format ≠ 2 ∧ l.format ≠ 4 ∨ l.degamma = 1) ∧ (l.format ≠ 9 ∨ l.degamma = 0), .outOfRange, 7⟩,
   ⟨l.warp || (ratio 1 16 l.dstW l.srcW && ratio 1 16 l.dstH l.srcH), .outOfRange, 20⟩,
   ⟨!l.warp || (decide (l.dstW = l.srcW) && ratio 2 2 l.dstH l.srcH), .outOfRange, 20⟩,
   ⟨l.late ≠ 2 ∨ l.warp = true, .outOfRange, 11⟩,
   ⟨l.filter ≠ 3 ∨ (s.badBeat? (handleIndex (par p 56 4)) (par p 60 4) 1792).isNone = true, .integrityFail, 27⟩,
   ⟨l.filter ≠ 3 ∨ coefsOk (coefsOf (s.objBytes (handleIndex (par p 56 4)) (par p 60 4) 1792)) = true, .outOfRange, 27⟩,
   ⟨!l.enable || ((s.layer (layerKey owner (par p 16 1))).settings.map (fun c => c.output)).all (fun o => decide (o = l.output)),
     .outOfRange, 2⟩]

/-- Is output `k` moving to MODE 0 or changing its pair state (R299)? -/
def State.pairChanging (s : State) (k : Nat) : Bool :=
  s.outs.outs.any (fun p =>
    match p.2.change with
    | some c => (decide (p.1 = k) || decide (p.1 / 2 = k / 2 ∧ (bit c.timing.flags 0 = true ∨ s.paired p.1 = true))) &&
        (decide (c.timing.mode = 0) || decide (bit c.timing.flags 0 ≠ s.paired p.1))
    | none => false)

/-- A command that has waited for a latch ends before it commits (R258, R263). -/
def State.abort (s : State) (pk : Pkt) (detail : Nat) : State := s.complete pk .aborted detail

/-- BND_SET_LAYER is validated (R258): it replaces an earlier one that waits, reserves what it needs and waits for the
latch. -/
def setLayerReady (pk : Pkt) (key : Nat) (l : LayerSet) (s : State) : State :=
  let res := s.resFor key l
  let s := match (s.layer key).pend with
    | some (_, old) => if old = pk then s else s.abort old 1
    | none => s
  s.setLayer key { s.layer key with pend := some (l, pk), reserved := res }

/-- What BND_SET_LAYER adds to the shared validation. -/
def hooksBndSetLayer (pk : Pkt) (s : State) : Hooks :=
  let owner := s.ownerOf pk.fn
  { dyn := setLayerDyn s
    handles := fun p => if par p 23 1 = 3 then [(27, par p 56 4, false)] else []
    more := setLayerMore s owner
    reads := fun p => if par p 23 1 = 3 then [(par p 56 4, par p 60 4, 1792)] else []
    looks := fun _ => [27]
    pre := fun p =>
      let l := layerSetOf p []
      [⟨(s.halves l.output).all (fun k => s.mayLayer owner k), .notPermitted, 2⟩,
       ⟨l.cls ≠ 1 ∨ s.c1Right owner = true, .notPermitted, 4⟩] ++
      (if l.filter = 3 then [usageChk s 27 (par p 56 4) 7] else [])
    post := fun p =>
      let l := layerSetOf p []
      s.resChecks owner (layerKey owner (par p 16 1)) l ++
        [⟨!(l.enable && s.pairChanging l.output), .busy, 3⟩] }

/-- The effect of BND_SET_LAYER once it is admitted. -/
def effBndSetLayer (pk : Pkt) (p : List Byte) (t : State) : State :=
  let owner := t.ownerOf pk.fn
  if (t.layer (layerKey owner (par p 16 1))).pend.map Prod.snd = some pk then t
  else
    let custom := decide (par p 23 1 = 3)
    let coefs := if custom then coefsOf (t.objBytes (handleIndex (par p 56 4)) (par p 60 4) 1792) else []
    setLayerReady pk (layerKey owner (par p 16 1)) (layerSetOf p coefs)
      (if custom then t.noteRead (handleIndex (par p 56 4)) (par p 60 4) 1792 else t)

/-- BND_SET_LAYER (R255 to R258): checks, reservation; it commits at a latch of its output. -/
def execBndSetLayer (pk : Pkt) (s : State) : Host.Outcome State Fault Refusal :=
  .next (runPkt cmdBndSetLayer pk s (hooksBndSetLayer pk s) (effBndSetLayer pk))

/-! ### BND_FLIP -/

/-- A quaternion of four signed 16-bit values with squared norm from 0.98 to 1.02 (Table 9.5). -/
def poseOk (p : Pose) : Bool :=
  let n := p.w * p.w + p.x * p.x + p.y * p.y + p.z * p.z
  decide (98 * 2 ^ 28 ≤ 100 * n) && decide (100 * n ≤ 102 * 2 ^ 28)

/-- The pose at two 8-byte fields. -/
def poseOf (time q : Nat) : Pose := ⟨time, signed 16 q, signed 16 (q / 2 ^ 16), signed 16 (q / 2 ^ 32), signed 16 (q / 2 ^ 48)⟩

/-- BND_FLIP (0x0402, Table 9.5). -/
def cmdBndFlip : Cmd := ⟨0x0402, .tenants, 3, none,
  [⟨16, 1, .rng 0 127⟩, ⟨17, 1, .mask 1⟩, ⟨18, 2, .zero⟩, ⟨20, 4, .read⟩, ⟨24, 8, .any⟩, ⟨32, 8, .any⟩]⟩

/-- What R262 requires of the buffer: USAGE SCANOUT and the class of the layer. -/
def State.bufferOk (s : State) (l : LayerSet) (h : Nat) : Bool :=
  (s.objUsage h).testBit 0 &&
  match s.obj? h with
  | some o => decide ((o.desc.cls = 1) = (l.cls = 1))
  | none => false

/-- A flip takes the place of an earlier one that waits (R263). -/
def flipReady (pk : Pkt) (key handle : Nat) (pose : Option Pose) (s : State) : State :=
  let s := match (s.layer key).flip with
    | some f => if f.pk = pk then s else s.abort f.pk 1
    | none => s
  s.setLayer key { s.layer key with flip := some ⟨pk, handle, pose⟩ }

/-- What BND_FLIP adds to the shared validation. -/
def hooksBndFlip (pk : Pkt) (s : State) : Hooks :=
  let owner := s.ownerOf pk.fn
  let set := fun p => (s.layer (layerKey owner (par p 16 1))).settings
  { dyn := fun p =>
      let pose := bit (par p 17 1) 0
      [(2, !pose || (match set p with | some l => l.warp | none => true)),
       (5, if pose then decide (par p 24 8 ≤ s.now) else decide (par p 24 8 = 0)),
       (6, if pose then poseOk (poseOf 0 (par p 32 8)) else decide (par p 32 8 = 0))]
    more := fun p =>
      match set p with
      | some l => [⟨!(s.bufferOk l (par p 20 4)) || decide (surfaceSize l.surfW l.surfH l.format 1 ≤ s.objSize (par p 20 4)),
          .outOfRange, 4⟩]
      | none => []
    pre := fun p =>
      match set p with
      | some l => [⟨s.bufferOk l (par p 20 4), .notPermitted, 4⟩]
      | none => [⟨false, .notPermitted, 1⟩] }

/-- The effect of BND_FLIP once it is admitted. -/
def effBndFlip (pk : Pkt) (p : List Byte) (t : State) : State :=
  let owner := t.ownerOf pk.fn
  flipReady pk (layerKey owner (par p 16 1)) (par p 20 4)
      (if bit (par p 17 1) 0 then some (poseOf (par p 24 8) (par p 32 8)) else none) t

/-- BND_FLIP (R262, R263): ready once its checks have passed and earlier writers of the buffer have completed; it takes
effect at a latch. -/
def execBndFlip (pk : Pkt) (s : State) : Host.Outcome State Fault Refusal :=
  .next (runPkt cmdBndFlip pk s (hooksBndFlip pk s) (effBndFlip pk))

/-! ### BND_SET_LUT -/

/-- BND_SET_LUT (0x0403, Table 9.7). -/
def cmdBndSetLut : Cmd := ⟨0x0403, .tenants, 2, none,
  [⟨16, 1, .rng 0 1⟩, ⟨17, 1, .any⟩, ⟨18, 1, .any⟩, ⟨19, 1, .zero⟩, ⟨20, 4, .any⟩, ⟨24, 4, .mult 16 0 0xFFFFFFFF⟩, ⟨28, 4, .zero⟩]⟩

/-- The 3,072 entries of a table. -/
def lutBytes (s : State) (p : List Byte) : List Nat :=
  let b := s.objBytes (handleIndex (par p 20 4)) (par p 24 4) 6144
  (List.range 3072).map (fun k => leNat (slice b (2 * k) 2))

/-- The first re-gamma entry above 4,095 (R270). -/
def badEntry (s : State) (p : List Byte) : Option Nat :=
  if par p 16 1 = 1 ∧ par p 18 1 = 2 then (lutBytes s p).findIdx? (fun v => 4095 < v) else none

/-- What BND_SET_LUT adds to the shared validation. -/
def hooksBndSetLut (pk : Pkt) (s : State) : Hooks :=
  let owner := s.ownerOf pk.fn
  { dyn := fun p =>
      let layer := decide (par p 16 1 = 0)
      [(2, if layer then decide (par p 17 1 < 128) && (s.layer (layerKey owner (par p 17 1))).settings.isSome
           else decide (par p 17 1 < 8)),
       (3, decide (par p 18 1 = 2) || (!layer && decide (par p 18 1 = 1))),
       (5, decide (par p 18 1 = 2) || decide (par p 20 4 = 0)),
       (6, decide (par p 18 1 ≠ 2) || decide (par p 24 4 + 6144 ≤ s.objSize (par p 20 4)))]
    handles := fun p => if par p 18 1 = 2 then [(5, par p 20 4, false)] else []
    failRes := fun p st d => if st = .outOfRange ∧ d = 5 then ((badEntry s p).getD 0, 0) else (0, 0)
    pre := fun p =>
      [⟨par p 16 1 = 0 ∨ s.outOwner (par p 17 1) = owner, .notPermitted, 2⟩] ++
      (if par p 18 1 = 2 then [usageChk s 5 (par p 20 4) 7,
        ⟨(s.badBeat? (handleIndex (par p 20 4)) (par p 24 4) 6144).isNone, .integrityFail, 5⟩, ⟨(badEntry s p).isNone, .outOfRange, 5⟩] else [])
    reads := fun p => if par p 18 1 = 2 then [(par p 20 4, par p 24 4, 6144)] else []
    looks := fun _ => [5] }

/-- The effect of BND_SET_LUT once it is admitted. -/
def effBndSetLut (pk : Pkt) (p : List Byte) (t : State) : State :=
  let owner := t.ownerOf pk.fn
  let table := if par p 18 1 = 2 then lutBytes t p else []
  let read := if par p 18 1 = 2 then t.noteRead (handleIndex (par p 20 4)) (par p 24 4) 6144 else t
  if par p 16 1 = 0 then
    let key := layerKey owner (par p 17 1)
    if (t.layer key).lutPend.any (fun x => x.2 = pk) then t
    else read.setLayer key { t.layer key with lutPend := (t.layer key).lutPend ++ [(table, pk)] }
  else
    let k := par p 17 1
    if (t.pipe k).pend.any (fun x => x.2.2 = pk) then t
    else read.setPipe k { t.pipe k with pend := (t.pipe k).pend ++ [(par p 18 1, table, pk)] }

/-- BND_SET_LUT (R270): a table or mode that takes effect at a latch. -/
def execBndSetLut (pk : Pkt) (s : State) : Host.Outcome State Fault Refusal :=
  .next (runPkt cmdBndSetLut pk s (hooksBndSetLut pk s) (effBndSetLut pk))

/-! ### Poses (R283 to R285) -/

/-- A sample becomes the current pose. -/
def State.setPose (s : State) (p : Pose) : State :=
  ({ s with bnd := { s.bnd with pose := some p } }.setReg64 BND_POSE_TIME_LO p.time).setF
    BND_MOTION_STATUS BND_MOTION_STATUS_VALID 1

/-- BND_SET_POSE (0x0404, R284). -/
def cmdBndSetPose : Cmd := ⟨0x0404, .manager, 2, none, [⟨16, 8, .any⟩, ⟨24, 8, .any⟩]⟩

/-- What BND_SET_POSE adds to the shared validation. -/
def hooksBndSetPose (s : State) : Hooks :=
  { dyn := fun p =>
      [(1, decide (par p 16 8 ≤ s.now) && (s.bnd.pose.map Pose.time).all (fun t => decide (t ≤ par p 16 8))),
       (2, poseOk (poseOf 0 (par p 24 8)))]
    pre := fun _ => [⟨s.getF BND_MOTION_CTRL BND_MOTION_CTRL_SRC = 3, .notPermitted, 0⟩] }

/-- The effect of BND_SET_POSE once it is admitted. -/
def effBndSetPose (pk : Pkt) (p : List Byte) (t : State) : State :=
  (t.setPose (poseOf (par p 16 8) (par p 24 8))).complete pk .ok

/-- BND_SET_POSE: accepted only while SRC is 3; a time before the current sample's is out of range (R284). -/
def execBndSetPose (pk : Pkt) (s : State) : Host.Outcome State Fault Refusal :=
  .next (runPkt cmdBndSetPose pk s (hooksBndSetPose s) (effBndSetPose pk))

/-- MOTION_SAMPLE (R285): a rising edge of MOT_DRDY with the 8 bytes read from the sensor. Its time is the edge's, less
LAT in units of 10 µs; a norm out of range is discarded and counted. -/
def execMotionSample (q : Nat) (s : State) : Host.Outcome State Fault Refusal :=
  let src := s.getF BND_MOTION_CTRL BND_MOTION_CTRL_SRC
  let p := poseOf (s.now - 10000 * s.getF BND_MOTION_CTRL BND_MOTION_CTRL_LAT) (q % 2 ^ 64)
  .next (if src = 1 ∨ src = 2 then
    if poseOk p then s.setPose p else s.countF BND_MOTION_STATUS BND_MOTION_STATUS_BAD
  else s)

/-- The owners of warped layers. -/
def State.warpOwners (s : State) : List Nat :=
  (List.range 65).filter (fun o =>
    s.bnd.layers.any (fun p => decide (p.1 / 128 = o) && (p.2.cur.map LayerSet.warp).getD false))

/-- POSE_STALE (R283): at a band start the current pose is older than 2 ms: once per stale episode the flag is set and the
manager and the owners of warped layers are told the age. -/
def execPoseStale (s : State) : Host.Outcome State Fault Refusal :=
  .next (match s.bnd.pose with
    | some p =>
      if 2000000 < s.now - p.time ∧ s.getF BND_MOTION_STATUS BND_MOTION_STATUS_POSE_STALE = 0 then
        let s := s.setF BND_MOTION_STATUS BND_MOTION_STATUS_POSE_STALE 1
        let s' := s.postMgr 0x8404 0 (s.now - p.time) 0
        (s.warpOwners.filter (fun o => decide (o ≠ 0))).foldl (fun t o => t.postOwner o 0x8404 0 (s.now - p.time) 0) s'
      else s
    | none => s)

/-! ### The latch (R27, R258, R263, R268, R270, R278 to R280) -/

/-- Is every layer of the owner shown under its late policy, whatever its EXPECT: its instance is contained (Table 19.4). Of a frozen one R278 decides
each frame, and no flip takes effect (Table 3.22; DEDUCED, assumption 10). -/
def State.forcedLate (s : State) (owner : Nat) : Bool := isInst owner && decide ((s.inst owner).state = .contained)

/-- Is an owner's use held as Table 3.22 says: its instance is frozen, or contained (Table 19.4)? -/
def State.heldStill (s : State) (owner : Nat) : Bool :=
  isInst owner && (decide ((s.inst owner).state = .contained) || s.isFrozen owner)

/-- The layer loses its buffer and its waiting flip (R258, R263). -/
def State.dropBuffer (s : State) (key : Nat) : State :=
  let s := match (s.layer key).flip with
    | some f => s.abort f.pk 0
    | none => s
  s.setLayer key { s.layer key with flip := none, buf := none }

/-- The validated settings take effect (R258): reply with the frame and the time of the latch; clearing ENABLE removes the
layer. -/
def State.applySet (s : State) (key frame : Nat) : State :=
  match (s.layer key).pend with
  | none => s
  | some (l, pk) =>
    if l.enable then
      (s.setLayer key { s.layer key with cur := some l, pend := none, held := (s.layer key).reserved, reserved := {} }).complete
        pk .ok 0 frame s.now
    else
      let t := s.dropBuffer key
      (t.setLayer key { releasing := (t.layer key).releasing }).complete pk .ok 0 frame s.now

/-- Waiting de-gamma tables take effect, oldest first (R270). -/
def State.applyLut (s : State) (key frame : Nat) : State :=
  (s.layer key).lutPend.foldl (fun t x =>
    (t.setLayer key { t.layer key with lut := x.1 }).complete x.2 .ok 0 frame 0)
    (s.setLayer key { s.layer key with lutPend := [] })

/-- A ready flip takes effect (R263): it commits, and its reply is written when the previous buffer is no longer read: at
once with the default latch line, else at the start of the front porch. -/
def State.applyFlip (s : State) (key frame advance : Nat) : State :=
  match (s.layer key).flip with
  | none => s
  | some f =>
    let x := s.layer key
    let s := s.setLayer key { x with flip := none, buf := some (f.handle, f.pose), lastFlip := frame, poison := false, metaPosted := false }
    let s := { s with coll := { s.coll with hiddenKeys := s.coll.hiddenKeys.filter (fun q => decide (q ≠ key)) } }
    if advance = 0 then s.complete f.pk .ok 0 frame s.now
    else (s.commit f.pk).setLayer key { s.layer key with releasing := x.releasing ++ [(f.pk, frame, s.now)] }

/-- The policy a late layer is shown under (R278): the default resolves by the pose stamp. -/
def latePolicy (l : LayerSet) (pose : Option Pose) : Nat := if l.late = 0 then (if pose.isSome then 2 else 1) else l.late

/-- Count a frame of a layer shown late and, for a C1 layer, tell the owner (R280). -/
def State.countLate (s : State) (key frame policy : Nat) (l : LayerSet) (counted : Bool) : State :=
  let s := if counted then s.count BND_LATE_COUNT else s
  if l.cls = 1 then s.postOwner (key / 128) 0x8402 (key % 128) frame policy else s

/-- Decide what the next frame shows of a layer (R278 to R280), after flips have been applied. -/
def State.applyLate (s : State) (key frame : Nat) (flipped : Bool) : State :=
  let x := s.layer key
  match x.cur, x.buf with
  | some l, some (_, pose) =>
    let late := !flipped && ((decide (l.expect ≠ 0) && decide (x.lastFlip + l.expect ≤ frame)) || s.forcedLate (key / 128))
    let pol := latePolicy l pose
    let s := s.setLayer key { x with late := late, policy := pol, clamped := false,
                                     critPosted := false, clampPosted := false }
    if s.coll.hiddenKeys.contains key && !flipped then s
    else if x.poison && !flipped then s.countLate key frame 6 l late
    else if late then s.countLate key frame pol l true
    else s
  | _, _ => s.setLayer key { x with late := false, policy := 0, clamped := false,
                                    critPosted := false, clampPosted := false }

/-- The keys of the layers on an output (in effect or validated). -/
def State.layersOn (s : State) (k : Nat) : List Nat :=
  (s.bnd.layers.filter (fun p =>
    ((p.2.cur.map LayerSet.output) == some k) || ((p.2.pend.map (fun x => x.1.output)) == some k))).map Prod.fst

/-- Everything a latch does to one layer. -/
def State.latchLayer (s : State) (frame advance key : Nat) : State :=
  let s := (s.applySet key frame).applyLut key frame
  let flipped := (s.layer key).flip.isSome && (s.layer key).cur.isSome
  let s := if flipped then s.applyFlip key frame advance else s
  if (s.layer key).cur.isSome then s.applyLate key frame flipped else s

/-- The band and place of a layer in the stack (R268): C2 and C3 below C1, then Z, then owner, then number. -/
def stackKey (key : Nat) (l : LayerSet) : Nat := (if l.cls = 1 then 256 else 0) * 2 ^ 16 + l.z * 2 ^ 16 + key

/-- A list sorted by a key, ascending, equals in order. -/
def sortBy {α : Type} (f : α → Nat) : List α → List α
  | [] => []
  | x :: r => ins x (sortBy f r)
where
  /-- Insert before the first element with a greater or equal key. -/
  ins (x : α) : List α → List α
    | [] => [x]
    | y :: r => if f x ≤ f y then x :: y :: r else y :: ins x r

/-- What the next frame shows of a layer. -/
def Layer.shownAs (x : Layer) (l : LayerSet) : Nat :=
  if x.poison then (if l.late = 4 then 4 else 3)
  else if x.late then x.policy else 0

/-- The layers of output `k` from the bottom up, as the next frame shows them. -/
def State.sceneLayers (s : State) (k : Nat) : List SceneLayer :=
  sortBy (fun x => stackKey x.key x.set)
    (s.bnd.layers.filterMap (fun p =>
      match p.2.cur, p.2.buf with
      | some l, some (h, pose) => if l.output = k ∧ ¬ s.coll.hiddenKeys.contains p.1 then some ⟨p.1, l, h, pose, p.2.lut, p.2.shownAs l⟩ else none
      | _, _ => none))

/-- Waiting re-gamma changes of a pipe take effect (R270). -/
def State.applyRegamma (s : State) (frame k : Nat) : State :=
  (s.pipe k).pend.foldl (fun t x =>
    ((t.setPipe k { t.pipe k with mode := x.1, table := if x.1 = 2 then x.2.1 else (t.pipe k).table }).setF
      (BND_STATUS k) BND_STATUS_REGAMMA x.1).complete x.2.2 .ok 0 frame 0)
    (s.setPipe k { s.pipe k with pend := [] })

/-- The scene a pipe takes from a latch: background, re-gamma and layers (R292). -/
def State.latchPipe (s : State) (frame out k : Nat) : State :=
  let s := s.applyRegamma frame k
  let p := s.pipe k
  s.setPipe k { p with
    resetFrame := false
    next := some { frame := frame, bg := s.reg (BND_BG k), mode := p.mode, table := p.table
                   layers := if p.resetFrame then [] else s.sceneLayers out } }

/-- The scene of a frame in the safe state (R525): the layers of the one before, as they are; no setting takes effect. -/
def State.latchSafe (s : State) (frame k : Nat) : State :=
  let p := s.pipe k
  s.setPipe k { p with next := some { p.next.getD p.scene with frame := frame } }

/-- What the latch of output `k` does in the Bindery. -/
def State.latchBindery (s : State) (k frame : Nat) : State :=
  if s.safe then (s.halves k).foldl (fun t j => t.latchSafe frame j) s
  else
  let s := (s.layersOn k).foldl (fun t key => t.latchLayer frame (s.outp k).advance key) s
  (s.halves k).foldl (fun t j => t.latchPipe frame k j) s

/-- FLIP_PREVIOUS_RELEASED (R263): the front porch of output `k` begins, and the flips that took effect at its latch write
their replies. -/
def execFlipPreviousReleased (k : Nat) (s : State) : Host.Outcome State Fault Refusal :=
  .next ((s.bnd.layers.filter (fun p => ((p.2.cur.map LayerSet.output).getD k) == k)).foldl (fun t p =>
    p.2.releasing.foldl (fun t x => t.complete x.1 .ok 0 x.2.1 x.2.2)
      (t.setLayer p.1 { t.layer p.1 with releasing := [] })) s)

/-! ### What other subsystems do to layers -/

/-- Does a layer of this owner have the object latched, in a flip that waits, or still being shown (R117)? -/
def State.layerUses (s : State) (owner h : Nat) : Bool :=
  s.bnd.layers.any (fun p => decide (p.1 / 128 = owner) &&
    (decide (p.2.buf.map Prod.fst = some h) || decide (p.2.flip.map Flip.handle = some h))) ||
  s.bnd.pipes.any (fun p => p.2.scene.layers.any (fun l => decide (l.key / 128 = owner ∧ l.handle = h)) ||
    (p.2.next.map (fun n => n.layers.any (fun l => decide (l.key / 128 = owner ∧ l.handle = h)))).getD false)

/-- Is the object named by a C1 layer of the owner (R118)? -/
def State.c1LayerNames (s : State) (owner h : Nat) : Bool :=
  s.bnd.layers.any (fun p => decide (p.1 / 128 = owner) && ((p.2.cur.map LayerSet.cls) == some 1) &&
    (decide (p.2.buf.map Prod.fst = some h) || decide (p.2.flip.map Flip.handle = some h)))

/-- Layers are removed: hidden from the next latch; a frame already latched is composed as it was (R27, Tables 3.8, 3.10). -/
def State.dropLayersIf (s : State) (p : Nat × Layer → Bool) : State :=
  { s with bnd := { s.bnd with layers := s.bnd.layers.filter (fun q => !p q) } }

/-- Every layer of an owner is removed (Table 3.8). -/
def State.dropLayers (s : State) (owner : Nat) : State := s.dropLayersIf (fun q => decide (q.1 / 128 = owner))

/-- A packet that waits for a latch is forgotten, its reservation released: it has timed out, or a freeze withdraws it. -/
def State.forgetBindery (s : State) (pk : Pkt) : State :=
  { s with bnd := { s.bnd with
      layers := tabMap (fun _ => {}) s.bnd.layers (fun _ x =>
        let x := if x.pend.map Prod.snd = some pk then { x with pend := none, reserved := {} } else x
        let x := if x.flip.map Flip.pk = some pk then { x with flip := none } else x
        { x with lutPend := x.lutPend.filter (fun y => decide (y.2 ≠ pk)) })
      pipes := tabMap (fun _ => {}) s.bnd.pipes (fun _ p => { p with pend := p.pend.filter (fun y => decide (y.2.2 ≠ pk)) }) } }

end Sys2Proof.Machine
end

