-- ==== Sys2Proof/Machine/Crc.lean ====
section
/-! DEFINITION. The check-value algorithms of Table 11.2. -/

namespace Sys2Proof.Machine

/-- A row of Table 11.2: width, polynomial (in reflected form for a reflected algorithm), initial value, whether reflected,
XOROUT. -/
structure CrcAlg where
  width : Nat
  poly : Nat
  init : Nat
  reflected : Bool
  xorOut : Nat

/-- Table 11.2: CRC-32C, CRC-32, CRC-16-CCITT, CRC-8. -/
def crcAlg : Nat → CrcAlg
  | 0 => ⟨32, 0x82F63B78, 0xFFFFFFFF, true, 0xFFFFFFFF⟩
  | 1 => ⟨32, 0xEDB88320, 0xFFFFFFFF, true, 0xFFFFFFFF⟩
  | 2 => ⟨16, 0x1021, 0xFFFF, false, 0⟩
  | _ => ⟨8, 0x1D, 0xFF, false, 0xFF⟩

/-- One bit step of the register. -/
def CrcAlg.shift (a : CrcAlg) (v : Nat) : Nat :=
  if a.reflected then (if v % 2 = 1 then v / 2 ^^^ a.poly else v / 2)
  else if v.testBit (a.width - 1) then (2 * v) % 2 ^ a.width ^^^ a.poly else (2 * v) % 2 ^ a.width

/-- `n` bit steps. -/
def CrcAlg.shifts (a : CrcAlg) : Nat → Nat → Nat
  | 0, v => v
  | n + 1, v => CrcAlg.shifts a n (a.shift v)

/-- One byte is fed (R323). -/
def CrcAlg.feed (a : CrcAlg) (v b : Nat) : Nat :=
  a.shifts 8 (if a.reflected then v ^^^ b else v ^^^ b * 2 ^ (a.width - 8))

/-- Bytes are fed, in order. -/
def crcFeed (alg v : Nat) (bs : List Nat) : Nat := bs.foldl (crcAlg alg).feed v

/-- RESULT from VALUE (R323). -/
def crcResult (alg v : Nat) : Nat := v ^^^ (crcAlg alg).xorOut

/-- The bytes of a number, least significant first. -/
def natBytes : Nat → Nat → List Nat
  | 0, _ => []
  | n + 1, v => v % 256 :: natBytes n (v / 256)

/-- CRC-32C of bytes. -/
def crc32c (bs : List Nat) : Nat := crcResult 0 (crcFeed 0 0xFFFFFFFF bs)

end Sys2Proof.Machine
end

