-- ==== Sys2Proof/Machine/C0.lean ====
section
/-! DEFINITION. The C0 plane: assets, sprites, what a line shows of them, and the values a checker expects (R271, R356 to
R361). -/

namespace Sys2Proof.Machine

/-- Width and height of an asset (Table 12.7). -/
def assetW (a : List Byte) : Nat := leNat (slice a 0 2)
def assetH (a : List Byte) : Nat := leNat (slice a 2 2)

/-- A palette entry: R, G, B codes and ALPHA (Table 12.7). -/
def assetColor (a : List Byte) (i : Nat) : List Nat × Nat :=
  ([leNat (slice a (8 + 8 * i) 2) % 4096, leNat (slice a (10 + 8 * i) 2) % 4096, leNat (slice a (12 + 8 * i) 2) % 4096],
   leNat (slice a (14 + 8 * i) 1))

/-- The index of a pixel: two to a byte, the left one low, rows padded to bytes (Table 12.7). -/
def assetIndex (a : List Byte) (x y : Nat) : Nat :=
  let b := leNat (slice a (136 + y * ceilDiv (assetW a) 2 + x / 2) 1)
  if x % 2 = 0 then b % 16 else b / 16

/-- A pixel of an asset: none where it is transparent (R356). -/
def assetPixel (a : List Byte) (x y : Nat) : Option (List Nat × Nat) :=
  if assetIndex a x y = 0 then none else some (assetColor a (assetIndex a x y))

/-- The binding table in force. -/
def State.binding (s : State) : Binding := s.strg.bind.getD {}

/-- The bytes of an asset. -/
def State.asset (s : State) (n : Nat) : List Byte := ((s.binding.assets.find? (fun p => p.1 = n)).map Prod.snd).getD []

/-- The sprite record of a telltale, if the binding table defines it. -/
def State.sprite? (s : State) (t : Nat) : Option Sprite := (s.binding.sprites.find? (fun p => p.1 = t)).map Prod.snd

/-- The telltales of a pipe (R357). -/
def telltalesOf (k : Nat) : List Nat := (List.range 32).map (fun i => 32 * k + i)

/-- The asset a state byte shows on a frame, if any (Table 12.9); a steady state ignores BLINK. -/
def spriteShown (q : Sprite) (st frame : Nat) (steady : Bool) : Option Nat :=
  let show_ := bits st 2 0
  if show_ = 0 ∨ 4 < show_ then none
  else if bit st 3 ∧ ¬ steady ∧ ¬ (2 * (frame % q.blink) < q.blink) then none
  else match q.variants[show_ - 1]? with
    | some 0xFF => none
    | some v => some v
    | none => none

/-- The state byte a telltale has on a coming frame: FAIL_STATE in the safe state or when it is due, else what a waiting command
or the state in effect gives (R359, R360, Table 19.6). -/
def State.comingState (s : State) (t : Nat) : Nat :=
  match s.sprite? t with
  | none => 0
  | some q =>
    if s.safe then q.failState
    else
      match (s.strg.ttPend.flatMap (fun x => x.2.1)).reverse.find? (fun e => e.1 = t) with
      | some e => e.2
      | none =>
        if (tabGet (fun _ => {}) s.strg.tts t).failDue then q.failState else s.getF (STRG_TT_STATE t) STRG_TT_STATE_STATE

/-- The sprites a pipe shows on a frame, given each telltale's state byte: left, top, asset. -/
def State.spritesOn (s : State) (k frame : Nat) (st : Nat → Nat) (steady : Bool) : List (Nat × Nat × Nat) :=
  (telltalesOf k).filterMap (fun t =>
    match s.sprite? t with
    | some q => (spriteShown q (st t) frame steady).map (fun v => (q.x, q.y, v))
    | none => none)

/-- The sprites of the states in effect. -/
def State.spritesNow (s : State) (k frame : Nat) : List (Nat × Nat × Nat) :=
  s.spritesOn k frame (fun t => s.getF (STRG_TT_STATE t) STRG_TT_STATE_STATE) s.safe

/-- The pixels of sprites on line `y`, by column: column, codes, alpha (R358). -/
def State.c0Line (s : State) (sprites : List (Nat × Nat × Nat)) (y : Nat) : List (Nat × List Nat × Nat) :=
  (sortBy (fun q => q.1) (sprites.filter (fun q => decide (q.2.1 ≤ y) && decide (y < q.2.1 + assetH (s.asset q.2.2))))).flatMap
    (fun q =>
      let a := s.asset q.2.2
      (List.range (assetW a)).filterMap (fun x => (assetPixel a x (y - q.2.1)).map (fun c => (q.1 + x, c.1, c.2))))

/-- The codes of the pixels of a line that the plane covers fully, in scan order (R358). -/
def covered (l : List (Nat × List Nat × Nat)) : List (Nat × List Nat) :=
  (l.filter (fun p => decide (p.2.2 = 255))).map (fun p => (p.1, p.2.1))

/-- What a checker is fed for pixels: R, G, B as 16-bit little-endian values (R338). -/
def checkerBytes (codes : List (List Nat)) : List Nat := codes.flatMap (fun c => c.flatMap (natBytes 2))

/-- The CRC-32C and the count of the covered pixels that sprites produce (R361). -/
def State.c0Expected (s : State) (sprites : List (Nat × Nat × Nat)) : Nat × Nat :=
  let bottom := (sprites.map (fun q => q.2.1 + assetH (s.asset q.2.2))).foldl max 0
  let px := (List.range bottom).flatMap (fun y => covered (s.c0Line sprites y))
  (crc32c (checkerBytes (px.map Prod.snd)), px.length)

/-- One code with the plane over it (R358): computed exactly and rounded once. -/
def c0Over (c code alpha : Nat) : Nat := (2 * (c * alpha + code * (255 - alpha)) + 255) / 510

/-- A line of codes with the plane blended over it. -/
def c0Blend (l : List (Nat × List Nat × Nat)) (codes : List (List Nat)) : List (List Nat) :=
  codes.zipIdx.map (fun x =>
    match l.find? (fun p => p.1 = x.2) with
    | some p => (p.2.1.zip x.1).map (fun v => c0Over v.1 v.2 p.2.2)
    | none => x.1)

/-- The Strongroom writes the expected values of the frame the next latch of the output gives, for a pipe with C0 (R361). -/
def State.writeExpected (s : State) (k : Nat) : State :=
  if s.getF (BND_C0 k) BND_C0_C0_EN = 1 then
    let e := if s.safe then tabGet (fun _ => (0, 0)) s.strg.safeExp k
      else s.c0Expected (s.spritesOn k (s.frame k + 1) s.comingState false)
    (s.setReg (GPC_EXPECT k) e.1).setReg (GPC_COUNT_EXP k) e.2
  else s

end Sys2Proof.Machine
end

