-- ==== Sys2Proof/Machine/Collation.lean ====
section
/-! DEFINITION. Collation: check-value units and alive counters (R323 to R330), the settings and expectations of
verification windows (R331 to R333, R337). Outcomes and policies stand with the Strongroom's responses
(Machine/Outcomes.lean). -/

namespace Sys2Proof.Machine

/-! ### Check-value units -/

/-- The function a unit is assigned to (R324). -/
def State.cvuHolder (s : State) (n : Nat) : Nat := tabGet (fun _ => 0) s.coll.holders n

/-- `s` with a unit assigned. -/
def State.setCvuHolder (s : State) (n f : Nat) : State :=
  { s with coll := { s.coll with holders := tabSet (fun _ => 0) s.coll.holders n f } }

/-- Is the unit in the secure world (Table 12.14)? -/
def State.cvuSecure (s : State) (n : Nat) : Bool := (s.reg STRG_BOUND_CVU).testBit n

/-- The algorithm of a unit. -/
def State.cvuAlg (s : State) (n : Nat) : Nat := s.getF (CVU_CFG n) CVU_CFG_ALG

/-- The running value, with RESULT following it (R323). -/
def State.setCvuValue (s : State) (n v : Nat) : State :=
  (s.setReg (CVU_VALUE n) v).setReg (CVU_RESULT n) (crcResult (s.cvuAlg n) v)

/-- Bytes are fed to a unit (R325). -/
def State.cvuFeed (s : State) (n : Nat) (bs : List Nat) : State := s.setCvuValue n (crcFeed (s.cvuAlg n) (s.reg (CVU_VALUE n)) bs)

/-- START, or a change of ALG: the initial value, MATCH and MISMATCH clear (R326). -/
def State.cvuStart (s : State) (n : Nat) : State :=
  ((s.setCvuValue n (crcAlg (s.cvuAlg n)).init).setF (CVU_STATUS n) CVU_STATUS_MATCH 0).setF (CVU_STATUS n) CVU_STATUS_MISMATCH 0

/-- The unit at its reset values (R324). -/
def State.cvuReset (s : State) (n : Nat) : State :=
  [CVU_CFG n, CVU_VALUE n, CVU_RESULT n, CVU_EXPECT n, CVU_STATUS n, CVU_ALIVE_STATE n].foldl
    (fun t a => t.setReg a (resetValue a).toNat) s

/-- A register write to unit `n`: by its holder, while the unit is in the normal world, its holder is not frozen and no
COLL_COMPUTE feeds it (R329, R330, R346); else discarded and counted. -/
def State.cvuWrite (s : State) (w n addr v : Nat) (f : State → State) : State :=
  s.regWrite w addr (s.cvuHolder n) v (fun t =>
    if t.cvuSecure n ∨ t.closing 3 n ∨ t.isFrozen w ∨ t.getF (CVU_STATUS n) CVU_STATUS_BUSY = 1 then t.badWrite w addr else f t)

/-- A write of CVUn_CFG (R326, R328, R340). -/
def State.writeCvuCfg (s : State) (w n v : Nat) : State :=
  s.cvuWrite w n (CVU_CFG n) v (fun t =>
    if bits v 23 16 = 0 ∨ bits v 15 8 = 1 then t.badWrite w (CVU_CFG n)
    else
      let old := t.cvuAlg n
      let t := t.setReg (CVU_CFG n) (bits v 24 24 * 2 ^ 24 + bits v 23 16 * 2 ^ 16 + bits v 15 8 * 2 ^ 8 + bits v 1 0)
      let t := if bit v 31 ∨ bits v 1 0 ≠ old then t.cvuStart n else t
      if bit v 30 then
        ((t.setF (CVU_ALIVE_STATE n) CVU_ALIVE_STATE_VALID 0).setF (CVU_ALIVE_STATE n) CVU_ALIVE_STATE_LOST 0).setF
          (CVU_ALIVE_STATE n) CVU_ALIVE_STATE_LAST 0
      else t)

/-- A write to DATA8, DATA16 or DATA32 (`size` bytes): least significant byte first, or most significant first while BE is
set (R325). -/
def State.writeCvuData (s : State) (w n addr size v : Nat) : State :=
  s.cvuWrite w n addr v (fun t =>
    t.cvuFeed n (if t.getF (CVU_CFG n) CVU_CFG_BE = 1 then (natBytes size v).reverse else natBytes size v))

/-- A write of CVUn_VALUE (R326): bits above the width discard it. -/
def State.writeCvuValue (s : State) (w n v : Nat) : State :=
  s.cvuWrite w n (CVU_VALUE n) v (fun t =>
    if v < 2 ^ (crcAlg (t.cvuAlg n)).width then t.setCvuValue n v else t.badWrite w (CVU_VALUE n))

/-- A write of CVUn_EXPECT: one comparison with RESULT (R327). -/
def State.writeCvuExpect (s : State) (w n v : Nat) : State :=
  s.cvuWrite w n (CVU_EXPECT n) v (fun t =>
    let ok := v = t.reg (CVU_RESULT n)
    ((t.setReg (CVU_EXPECT n) v).setF (CVU_STATUS n) CVU_STATUS_MATCH (b2n ok)).setF (CVU_STATUS n) CVU_STATUS_MISMATCH (b2n (!ok)))

/-- WRAP: CFG.ALIVE_WRAP, 0 for 256 (R328). -/
def State.cvuWrap (s : State) (n : Nat) : Nat :=
  if s.getF (CVU_CFG n) CVU_CFG_ALIVE_WRAP = 0 then 256 else s.getF (CVU_CFG n) CVU_CFG_ALIVE_WRAP

/-- The counter value `a` is accepted (R328). -/
def State.aliveAccept (s : State) (n a : Nat) : State :=
  (s.setF (CVU_ALIVE_STATE n) CVU_ALIVE_STATE_VALID 1).setF (CVU_ALIVE_STATE n) CVU_ALIVE_STATE_LAST a

/-- A received counter is judged against the last accepted value (R328). -/
def State.aliveJudge (s : State) (n a : Nat) : State :=
  let p := s.getF (CVU_ALIVE_STATE n) CVU_ALIVE_STATE_LAST
  let wrap := s.cvuWrap n
  if s.getF (CVU_ALIVE_STATE n) CVU_ALIVE_STATE_VALID = 0 then s.aliveAccept n a
  else if wrap ≤ a then s.setF (CVU_ALIVE_STATE n) CVU_ALIVE_STATE_RANGE 1
  else
    let d := unsigned 64 (((a : Int) - p) % wrap)
    if d = 0 then s.setF (CVU_ALIVE_STATE n) CVU_ALIVE_STATE_REPEAT 1
    else if d ≤ s.getF (CVU_CFG n) CVU_CFG_ALIVE_MAXD then
      (s.aliveAccept n a).countF (CVU_ALIVE_STATE n) CVU_ALIVE_STATE_LOST (d - 1)
    else (s.aliveAccept n a).setF (CVU_ALIVE_STATE n) CVU_ALIVE_STATE_JUMP 1

/-- NEXT: the unit's own counter advances (R328). -/
def State.aliveNext (s : State) (n : Nat) : State :=
  s.aliveAccept n (if s.getF (CVU_ALIVE_STATE n) CVU_ALIVE_STATE_VALID = 0 then 0
    else (s.getF (CVU_ALIVE_STATE n) CVU_ALIVE_STATE_LAST + 1) % s.cvuWrap n)

/-- A write of CVUn_ALIVE (R328). -/
def State.writeCvuAlive (s : State) (w n v : Nat) : State :=
  s.cvuWrite w n (CVU_ALIVE n) v (fun t => if bit v 8 then t.aliveNext n else t.aliveJudge n (v % 256))

/-- CVU_START (R326): CFG written with START set and the other fields as they are. -/
def execCvuStart (writer unit : Nat) (s : State) : Host.Outcome State Fault Refusal :=
  .next (s.writeCvuCfg writer unit (s.reg (CVU_CFG unit) + 2 ^ 31))

/-- CVU_ALG_CHANGE (R326): CFG written with another ALG. -/
def execCvuAlgChange (writer unit value : Nat) (s : State) : Host.Outcome State Fault Refusal :=
  .next (s.writeCvuCfg writer unit (setBits (s.reg (CVU_CFG unit)) 1 0 value))

/-- CVU_DATA8 (R325): the low 8 bits are fed. -/
def execCvuData8 (writer unit value : Nat) (s : State) : Host.Outcome State Fault Refusal :=
  .next (s.writeCvuData writer unit (CVU_DATA8 unit) 1 value)

/-- CVU_DATA16 (R325): the low 16 bits are fed. -/
def execCvuData16 (writer unit value : Nat) (s : State) : Host.Outcome State Fault Refusal :=
  .next (s.writeCvuData writer unit (CVU_DATA16 unit) 2 value)

/-- CVU_DATA32 (R325): the whole word is fed. -/
def execCvuData32 (writer unit value : Nat) (s : State) : Host.Outcome State Fault Refusal :=
  .next (s.writeCvuData writer unit (CVU_DATA32 unit) 4 value)

/-- CVU_VALUE_WRITE (R326). -/
def execCvuValueWrite (writer unit value : Nat) (s : State) : Host.Outcome State Fault Refusal :=
  .next (s.writeCvuValue writer unit value)

/-- CVU_EXPECT_WRITE (R327). -/
def execCvuExpectWrite (writer unit value : Nat) (s : State) : Host.Outcome State Fault Refusal :=
  .next (s.writeCvuExpect writer unit value)

/-- CVU_ALIVE_VALUE (R328). -/
def execCvuAliveValue (writer unit value : Nat) (s : State) : Host.Outcome State Fault Refusal :=
  .next (s.writeCvuAlive writer unit (value % 256))

/-- CVU_ALIVE_NEXT (R328). -/
def execCvuAliveNext (writer unit : Nat) (s : State) : Host.Outcome State Fault Refusal :=
  .next (s.writeCvuAlive writer unit 256)

/-- CVU_ALIVE_RESET (R328): CFG written with ALIVE_RESET set and the other fields as they are. -/
def execCvuAliveReset (writer unit : Nat) (s : State) : Host.Outcome State Fault Refusal :=
  .next (s.writeCvuCfg writer unit (s.reg (CVU_CFG unit) + 2 ^ 30))

/-- COLL_ASSIGN_UNIT (0x0603, R324). -/
def cmdCollAssignUnit : Cmd := ⟨0x0603, .manager, 1, none, [⟨16, 1, .rng 0 31⟩, ⟨17, 1, .rng 0 64⟩, ⟨18, 6, .zero⟩]⟩

/-- What COLL_ASSIGN_UNIT adds to the shared validation. -/
def hooksCollAssignUnit (s : State) : Hooks :=
  { dyn := fun p => [(2, decide (par p 17 1 = 0) || decide ((s.inst (par p 17 1)).state ≠ .absent))]
    pre := fun p => [⟨!s.cvuSecure (par p 16 1) && !s.closing 3 (par p 16 1), .notPermitted, 1⟩]
    post := fun p => [⟨s.getF (CVU_STATUS (par p 16 1)) CVU_STATUS_BUSY = 0, .busy, 1⟩] }

/-- The effect of COLL_ASSIGN_UNIT once it is admitted. -/
def effCollAssignUnit (pk : Pkt) (p : List Byte) (t : State) : State :=
  let n := par p 16 1
  let old := t.cvuHolder n
  let t := ((t.cvuReset n).setCvuHolder n (par p 17 1)).capChanged old
  (if old = par p 17 1 then t else t.capChanged (par p 17 1)).complete pk .ok

/-- COLL_ASSIGN_UNIT (R324): the unit returns to its reset values and belongs to FUNCTION; the views of both holders
change. -/
def execCollAssignUnit (pk : Pkt) (s : State) : Host.Outcome State Fault Refusal :=
  .next (runPkt cmdCollAssignUnit pk s (hooksCollAssignUnit s) (effCollAssignUnit pk))

/-- COLL_COMPUTE (0x0604, Table 11.3). -/
def cmdCollCompute : Cmd :=
  ⟨0x0604, .tenants, 3, none,
    [⟨16, 1, .rng 0 31⟩, ⟨17, 1, .mask 1⟩, ⟨18, 2, .zero⟩, ⟨20, 4, .read⟩, ⟨24, 8, .any⟩, ⟨32, 8, .rng 1 16777216⟩]⟩

/-- What COLL_COMPUTE adds to the shared validation. -/
def hooksCollCompute (pk : Pkt) (s : State) : Hooks :=
  { dyn := fun p => [(5, decide (par p 24 8 < s.objSize (par p 20 4))), (6, decide (par p 24 8 + par p 32 8 ≤ s.objSize (par p 20 4)))]
    pre := fun p => [⟨s.cvuHolder (par p 16 1) = s.ownerOf pk.fn ∧ ¬ s.cvuSecure (par p 16 1) ∧ ¬ s.closing 3 (par p 16 1), .notPermitted, 1⟩]
    post := fun p => [⟨s.getF (CVU_STATUS (par p 16 1)) CVU_STATUS_BUSY = 0, .busy, 1⟩] }

/-- The effect of COLL_COMPUTE once it is admitted. -/
def effCollCompute (pk : Pkt) (p : List Byte) (t : State) : State :=
  let n := par p 16 1
  let i := handleIndex (par p 20 4)
  let off := par p 24 8
  let len := par p 32 8
  match t.badBeat? i off len with
  | some b => (t.postUe i (32 * b)).complete pk .integrityFail 4
  | none =>
    let t := t.noteRead i off len
    let t := if par p 17 1 = 1 then t.cvuStart n else t
    let t := t.cvuFeed n ((t.objBytes i off len).map BitVec.toNat)
    t.complete pk .ok 0 (t.reg (CVU_RESULT n)) (t.reg (CVU_VALUE n))

/-- COLL_COMPUTE (R329): feeds LENGTH bytes of the object in ascending order, after START if FLAGS asks. A poisoned beat
returns INTEGRITY_FAIL with DETAIL 4 and leaves VALUE as it was. -/
def execCollCompute (pk : Pkt) (s : State) : Host.Outcome State Fault Refusal :=
  .next (runPkt cmdCollCompute pk s (hooksCollCompute pk s) (effCollCompute pk))

/-- The units a function holds, in ascending order. -/
def State.unitsOf (s : State) (owner : Nat) : List Nat := (List.range 32).filter (fun n => s.cvuHolder n = owner)

/-- Units of a holder that is reset stay assigned at reset values; those of one destroyed return to the manager (Table
11.4). -/
def State.loseUnits (s : State) (owner : Nat) (destroyed : Bool) : State :=
  (s.unitsOf owner).foldl (fun t n => let t := t.cvuReset n; if destroyed then t.setCvuHolder n 0 else t) s

/-! ### Verification windows -/

/-- A window, by 16 × output + window. -/
def State.win (s : State) (j : Nat) : Win := tabGet (fun _ => {}) s.coll.wins j

/-- `s` with a window changed. -/
def State.setWin (s : State) (j : Nat) (x : Win) : State :=
  { s with coll := { s.coll with wins := tabSet (fun _ => {}) s.coll.wins j x } }

/-- The windows of an output. -/
def State.winsOf (s : State) (k : Nat) : List Nat := (List.range 16).map (fun w => 16 * k + w)

/-- COLL_SET_WINDOW (0x0601, Table 11.5). -/
def cmdCollSetWindow : Cmd :=
  ⟨0x0601, .tenants, 3, none,
    [⟨16, 1, .rng 0 7⟩, ⟨17, 1, .rng 0 15⟩, ⟨18, 1, .rng 0 3⟩, ⟨19, 1, .rng 0 1⟩, ⟨20, 1, .rng 0 2⟩, ⟨21, 1, .rng 0 15⟩,
     ⟨22, 1, .rng 0 15⟩, ⟨23, 1, .any⟩, ⟨24, 1, .any⟩, ⟨25, 1, .zero⟩, ⟨26, 2, .any⟩, ⟨28, 2, .any⟩, ⟨30, 2, .any⟩, ⟨32, 2, .any⟩,
     ⟨34, 6, .zero⟩]⟩

/-- The settings in a packet. -/
def winCfgOf (p : List Byte) : WinCfg :=
  ⟨par p 18 1, par p 19 1, par p 20 1, par p 21 1, par p 22 1, par p 23 1, par p 24 1, par p 26 2, par p 28 2, par p 30 2, par p 32 2⟩

/-- The layer a window is bound to, if any. -/
def WinCfg.key (c : WinCfg) : Option Nat := if c.layer = 0xFF then none else some (layerKey c.supplier c.layer)

/-- The settings of the layer a window names, if it is enabled on the output. -/
def State.boundLayer (s : State) (k : Nat) (c : WinCfg) : Option LayerSet :=
  (c.key.bind (fun q => (s.layer q).cur)).bind (fun l => if l.enable ∧ l.output = k ∧ c.layer < 128 then some l else none)

/-- The ranges of Table 11.5 that depend on MODE, the bound layer and the output's timing. -/
def winDyn (s : State) (p : List Byte) : List (Nat × Bool) :=
  let c := winCfgOf p
  let k := par p 16 1
  if c.mode = 0 then
    [(4, decide (c.alg = 0)), (5, decide (c.policy = 0)), (6, decide (c.thresh = 0)), (7, decide (c.lateLimit = 0)),
     (8, decide (c.supplier = 0)), (9, decide (c.layer = 0)), (11, decide (c.x = 0)), (12, decide (c.y = 0)), (13, decide (c.w = 0)),
     (14, decide (c.h = 0))]
  else
    let on := s.outState k = 1
    let hA := s.getF (OUT_HACTIVE k) OUT_HACTIVE_ACTIVE
    let vA := s.getF (OUT_VACTIVE k) OUT_VACTIVE_ACTIVE
    let l := s.boundLayer k c
    [(5, decide ((c.mode = 3 → c.policy = 0) ∧ (c.policy = 1 → c.layer ≠ 0xFF) ∧ (c.policy = 2 → l.map LayerSet.cls = some 1))),
     (6, decide (1 ≤ c.thresh)), (9, decide (c.layer = 0xFF) || l.isSome),
     (11, decide (on → c.x < hA)), (12, decide (on → c.y < vA)), (13, decide (on → c.x + c.w ≤ hA)), (14, decide (on → c.y + c.h ≤ vA))]

/-- Is the supplier 0, or an instance that may place layers on the output? -/
def State.supplierOk (s : State) (k f : Nat) : Bool :=
  decide (f = 0) || (isInst f && decide ((s.inst f).state ≠ .absent) && (s.grantOf f).outLayer.testBit k)

/-- Queue a window's command for the latch. -/
def State.queueWin (s : State) (j : Nat) (x : WinPend) : State := s.setWin j { s.win j with pend := (s.win j).pend ++ [x] }

/-- The packet of a waiting command. -/
def WinPend.packet : WinPend → Pkt
  | .set _ pk => pk
  | .expect _ _ _ pk => pk

/-- Does the packet wait in the window already? -/
def State.winWaits (s : State) (j : Nat) (pk : Pkt) : Bool := (s.win j).pend.any (fun x => decide (x.packet = pk))

/-- What COLL_SET_WINDOW adds to the shared validation. -/
def hooksCollSetWindow (pk : Pkt) (s : State) : Hooks :=
  { dyn := winDyn s
    pre := fun p =>
      let k := par p 16 1
      [⟨s.outOwner k = s.ownerOf pk.fn, .notPermitted, 1⟩, ⟨s.outState k = 1, .notPermitted, 0⟩,
       ⟨par p 18 1 = 0 ∨ s.supplierOk k (par p 23 1), .notPermitted, 8⟩] }

/-- The effect of COLL_SET_WINDOW once it is admitted. -/
def effCollSetWindow (pk : Pkt) (p : List Byte) (t : State) : State :=
  let j := 16 * par p 16 1 + par p 17 1
  if t.winWaits j pk then t else t.queueWin j (.set (winCfgOf p) pk)

/-- COLL_SET_WINDOW (R331): validated settings wait for a latch. -/
def execCollSetWindow (pk : Pkt) (s : State) : Host.Outcome State Fault Refusal :=
  .next (runPkt cmdCollSetWindow pk s (hooksCollSetWindow pk s) (effCollSetWindow pk))

/-- COLL_EXPECT (0x0602, Table 11.6). -/
def cmdCollExpect : Cmd :=
  ⟨0x0602, .tenants, 2, none,
    [⟨16, 1, .rng 0 7⟩, ⟨17, 1, .rng 0 15⟩, ⟨18, 1, .oneOf [0, 1, 2, 3, 255]⟩, ⟨19, 1, .zero⟩, ⟨20, 4, .readOpt⟩, ⟨24, 4, .any⟩,
     ⟨28, 4, .zero⟩]⟩

/-- The settings a window will have once what waits has taken effect. -/
def Win.coming (x : Win) : Option WinCfg :=
  x.pend.foldl (fun c q => match q with
    | .set d _ => some d
    | .expect .. => c) x.cfg

/-- What COLL_EXPECT adds to the shared validation. -/
def hooksCollExpect (pk : Pkt) (s : State) : Hooks :=
  let cfg := fun (p : List Byte) => (s.win (16 * par p 16 1 + par p 17 1)).coming
  { dyn := fun p => [(2, (cfg p).map WinCfg.mode == some 1),
      (5, match cfg p with
        | some c => decide ((c.layer = 0xFF) ↔ par p 20 4 = 0)
        | none => true)]
    pre := fun p => [⟨(cfg p).map WinCfg.supplier = some (s.ownerOf pk.fn), .notPermitted, 2⟩,
      ⟨par p 20 4 = 0 ∨ (s.objUsage (par p 20 4)).testBit 0, .notPermitted, 5⟩] }

/-- The effect of COLL_EXPECT once it is admitted. -/
def effCollExpect (pk : Pkt) (p : List Byte) (t : State) : State :=
  let j := 16 * par p 16 1 + par p 17 1
  if t.winWaits j pk then t else t.queueWin j (.expect (par p 20 4) (par p 18 1) (par p 24 4) pk)

/-- COLL_EXPECT (R333): a validated value waits for a latch. -/
def execCollExpect (pk : Pkt) (s : State) : Host.Outcome State Fault Refusal :=
  .next (runPkt cmdCollExpect pk s (hooksCollExpect pk s) (effCollExpect pk))

/-- An expectation table with a value written: the key moves to the end, and a new key replaces the one written least recently
when four stand (R333). -/
def writeExpect (table : List Expect) (key phase value : Nat) : List Expect :=
  let old := ((table.find? (fun e => e.key = key)).map Expect.vals).getD [none, none, none, none]
  let rest := table.filter (fun e => decide (e.key ≠ key))
  let vals := old.zipIdx.map (fun x => if phase = 255 ∨ x.2 = phase then some value else x.1)
  (if 4 ≤ rest.length then rest.drop 1 else rest) ++ [⟨key, vals⟩]

/-- The registers of a window show its settings (Tables 11.15, 11.16). -/
def State.showWin (s : State) (k w : Nat) : State :=
  match (s.win (16 * k + w)).cfg with
  | none => ((s.setReg (COLL_WIN_CFG k w) 0).setReg (COLL_WIN_XY k w) 0).setReg (COLL_WIN_WH k w) 0
  | some c =>
    let bound := c.layer ≠ 0xFF
    ((s.setReg (COLL_WIN_CFG k w) (c.mode * 2 ^ 30 + c.alg * 2 ^ 29 + c.policy * 2 ^ 27 + b2n bound * 2 ^ 26 +
        (if bound then c.layer else 0) * 2 ^ 19 + c.supplier * 2 ^ 12 + c.thresh * 2 ^ 8 + c.lateLimit * 2 ^ 4)).setReg
      (COLL_WIN_XY k w) (c.y * 65536 + c.x)).setReg (COLL_WIN_WH k w) (c.h * 65536 + c.w)

/-- Consecutive failures and late frames restart (R331, R335). -/
def State.clearFails (s : State) (k w : Nat) : State :=
  ((s.setF (COLL_WIN_STATUS k w) COLL_WIN_STATUS_FAILS 0).setF (COLL_WIN_STATUS k w) COLL_WIN_STATUS_LATES 0).setF
    (COLL_WIN_STATUS k w) COLL_WIN_STATUS_ACTED 0

/-- A window goes to MODE 0 under R337: EV_COLL_WINDOW_OFF to the output's owner. -/
def State.turnWinOff (s : State) (k w : Nat) : State :=
  let j := 16 * k + w
  let s := (s.setWin j { pend := (s.win j).pend }).showWin k w
  s.postOwner (s.outOwner k) 0x8603 (k * 256 + w * 16 + s.getF (COLL_WIN_STATUS k w) COLL_WIN_STATUS_OUTCOME) 0 0

/-- One waiting command of a window takes effect at a latch (R331, R333). -/
def State.applyWinPend (s : State) (frame k w : Nat) (q : WinPend) : State :=
  let j := 16 * k + w
  match q with
  | .set c pk =>
    let keep := (s.win j).cfg.any (fun d => d.supplier = c.supplier ∧ d.layer = c.layer)
    let s := s.setWin j { s.win j with
      cfg := if c.mode = 0 then none else some c
      table := if keep then (s.win j).table else []
      run := none, next := none, hideDue := false, offDue := false
      escalated := if c.mode = 0 then none else (s.win j).escalated }
    ((s.showWin k w).clearFails k w).complete pk .ok 0 frame 0
  | .expect key phase value pk =>
    (s.setWin j { s.win j with table := writeExpect (s.win j).table key phase value }).complete pk .ok 0 0 0

/-- How the bound layer is shown in the frame the latch gives (Table 11.7, steps 1 and 2), with the buffer shown. -/
def State.boundShown (s : State) (c : WinCfg) : Nat × Nat :=
  match c.key with
  | none => (0, 0)
  | some q =>
    let x := s.layer q
    match x.cur, x.buf with
    | some l, some (h, _) =>
      if l.enable ∧ ¬ s.coll.hiddenKeys.contains q then ((if x.late ∨ x.poison then 1 else 0), h) else (2, 0)
    | _, _ => (2, 0)

/-- What a latch does before the Bindery's part: windows of a destroyed supplier go off, waiting commands take effect, and
layers to be hidden are (R331, R333, R336, R337). -/
def State.latchWindows (s : State) (frame k : Nat) : State :=
  (List.range 16).foldl (fun t w =>
    let j := 16 * k + w
    let t := if (t.win j).offDue ∧ (t.win j).cfg.isSome then t.turnWinOff k w else t
    let hide := if (t.win j).hideDue then ((t.win j).cfg.bind WinCfg.key).toList else []
    let q := (t.win j).pend
    let t := t.setWin j { t.win j with pend := [], hideDue := false }
    let t := { t with coll := { t.coll with hiddenKeys := t.coll.hiddenKeys.filter (fun x => !hide.contains x) ++ hide } }
    q.foldl (fun u x => u.applyWinPend frame k w x) t) s

/-- What a latch does after the Bindery's part: every window takes the frame that follows (R334). -/
def State.latchRuns (s : State) (frame k : Nat) : State :=
  (List.range 16).foldl (fun t w =>
    let j := 16 * k + w
    match (t.win j).cfg with
    | none => t
    | some c =>
      let b := t.boundShown c
      t.setWin j { t.win j with next := some ⟨frame, c, (t.win j).table, b.2, b.1, (crcAlg c.alg).init, 0, false⟩ }) s

/-- A bound layer has underrun or met poison in this frame (R277, R279): its windows take LATE. -/
def State.markLate (s : State) (k key : Nat) : State :=
  (s.winsOf k).foldl (fun t j =>
    match (t.win j).run with
    | some r => if r.cfg.key = some key then t.setWin j { t.win j with run := some { r with kind := 1 } } else t
    | none => t) s

/-- A composed line passes the windows of its output (R332). -/
def State.feedWindows (s : State) (k frame line : Nat) (words : List Nat) : State :=
  (s.winsOf k).foldl (fun t j =>
    let r := match (t.win j).next with
      | some n => if n.frame = frame then some n else (t.win j).run
      | none => (t.win j).run
    match r with
    | some r =>
      if r.frame = frame then
        let c := r.cfg
        let inside := c.y ≤ line ∧ line < c.y + c.h
        let crc := if inside then crcFeed c.alg r.crc (((words.drop c.x).take c.w).flatMap (natBytes 4)) else r.crc
        let nx := match (t.win j).next with
          | some n => if n.frame = frame then none else some n
          | none => none
        t.setWin j { t.win j with run := some { r with crc := crc, line := line + 1 }, next := nx }
      else t
    | none => t) s

/-- Windows outside a new active area go to MODE 0 (Table 11.8). -/
def State.fitWindows (s : State) (k : Nat) : State :=
  (List.range 16).foldl (fun t w =>
    match (t.win (16 * k + w)).cfg with
    | some c =>
      if t.getF (OUT_HACTIVE k) OUT_HACTIVE_ACTIVE < c.x + c.w ∨ t.getF (OUT_VACTIVE k) OUT_VACTIVE_ACTIVE < c.y + c.h then
        t.turnWinOff k w
      else t
    | none => t) s

/-- The supplier of windows is reset (its tables are cleared) or destroyed (its windows go off at the next latch) (Table
11.8). -/
def State.loseSupplier (s : State) (owner : Nat) (destroyed : Bool) : State :=
  { s with coll := { s.coll with wins := tabMap (fun _ => {}) s.coll.wins (fun _ x =>
      if x.cfg.any (fun c => c.supplier = owner) then
        (if destroyed then { x with offDue := true } else { x with table := [] })
      else x) } }

/-- A packet that waits for a latch in a window is forgotten. -/
def State.forgetWindows (s : State) (pk : Pkt) : State :=
  { s with coll := { s.coll with wins := tabMap (fun _ => {}) s.coll.wins (fun _ x =>
      { x with pend := x.pend.filter (fun y => decide (y.packet ≠ pk)) }) } }

end Sys2Proof.Machine
end

