-- ==== Sys2Proof/Machine/Outputs.lean ====
section
/-! DEFINITION. The output controllers (R289 to R321): timing changes, tolerance, the pixel FIFO as lines leave it, TE,
hot-plug and AUX. The latch itself stands in Machine/Latch.lean. -/

namespace Sys2Proof.Machine

/-- The domain of output `k`: OUTA (16) or OUTB (17). -/
def outDomain (k : Nat) : Nat := if k < 4 then 16 else 17

/-- Post an output's event to its owner: the output number in DETAIL bits [15:8] (R321). -/
def State.postOut (s : State) (k code d data0 data1 : Nat) : State :=
  s.postOwner (s.outOwner k) code (256 * k + d) data0 data1

/-- MODE in effect. -/
def State.outMode (s : State) (k : Nat) : Nat := s.getF (OUT_STATUS k) OUT_STATUS_MODE

/-- The filtered HPD level. -/
def State.hpdHigh (s : State) (k : Nat) : Bool := s.getF (OUT_STATUS k) OUT_STATUS_HPD = 1

/-- The frame time in ns (R290). -/
def State.frameTime (s : State) (k : Nat) : Nat := s.htotal k * s.vtotal k * 10 ^ 9 / s.reg (OUT_PCLK (s.latchOf k))

/-! ### OUT_SET_TIMING: parameters and checks (R294 to R296) -/

/-- The timing of a packet (Table 10.2). -/
def timingOf (p : List Byte) : Timing :=
  { mode := par p 17 1, flags := par p 18 1, bpc := par p 19 1, hactive := par p 20 2, hfp := par p 22 2,
    hsync := par p 24 2, hbp := par p 26 2, vactive := par p 28 2, vfp := par p 30 2, vsync := par p 32 2,
    vbp := par p 34 2, pclk := par p 36 4, rate := par p 40 1, lanes := par p 41 1, slices := par p 42 1,
    bpp16 := par p 44 2, sliceH := par p 46 2 }

/-- The flags of Table 10.3. -/
def Timing.pair (t : Timing) : Bool := bit t.flags 0
def Timing.dsc (t : Timing) : Bool := bit t.flags 3
def Timing.cphy (t : Timing) : Bool := bit t.flags 4
def Timing.burst (t : Timing) : Bool := bit t.flags 5
def Timing.retrain (t : Timing) : Bool := bit t.flags 6

/-- HTOTAL and VTOTAL (R290). -/
def Timing.htotal (t : Timing) : Nat := t.hactive + t.hfp + t.hsync + t.hbp
def Timing.vtotal (t : Timing) : Nat := t.vactive + t.vfp + t.vsync + t.vbp

/-- The lane rate in Mb/s (or Msym/s) of a LINK_RATE code in a mode, none if the code is not valid (Table 10.4). -/
def Timing.laneRate (t : Timing) : Option Nat :=
  if t.mode = 1 ∨ t.mode = 2 then
    if t.rate = 1 then some 1620 else if t.rate = 2 then some 2700 else if t.rate = 3 then some 5400
    else if t.rate = 4 then some 8100
    else if t.mode = 1 ∧ t.rate = 5 then some 10000 else if t.mode = 1 ∧ t.rate = 6 then some 13500
    else if t.mode = 2 ∧ t.rate = 8 then some 2160 else if t.mode = 2 ∧ t.rate = 9 then some 2430
    else if t.mode = 2 ∧ t.rate = 10 then some 3240 else if t.mode = 2 ∧ t.rate = 11 then some 4320
    else none
  else if 2 ≤ t.rate ∧ t.rate ≤ (if t.cphy then 120 else 90) then some (50 * t.rate)
  else none

/-- Are LANES valid for the mode (Table 10.2)? -/
def Timing.lanesOk (t : Timing) : Bool :=
  if t.mode = 1 ∨ t.mode = 2 then [1, 2, 4].contains t.lanes
  else decide (1 ≤ t.lanes) && decide (t.lanes ≤ (if t.cphy then 3 else 4))

/-- Coding efficiency as a fraction (R295). -/
def Timing.coding (t : Timing) : Nat × Nat :=
  if t.mode = 1 ∨ t.mode = 2 then (if t.rate = 5 ∨ t.rate = 6 then (128, 132) else (8, 10))
  else if t.cphy then (16 * 9, 7 * 10) else (9, 10)

/-- 1.05 × S ≤ C (R295). -/
def Timing.fits (t : Timing) : Bool :=
  let p16 := if t.dsc then t.bpp16 else 48 * t.bpc
  decide (105 * t.pclk * t.hactive * p16 * t.coding.2 ≤
    1600 * 1000 * t.htotal * t.lanes * (t.laneRate.getD 0) * t.coding.1)

/-- Frame rate from 24 to 240 Hz. -/
def Timing.rateOk (t : Timing) : Bool :=
  decide (24 * (t.htotal * t.vtotal) ≤ 1000 * t.pclk) && decide (1000 * t.pclk ≤ 240 * (t.htotal * t.vtotal))

/-- The DSC limits of Table 10.5. -/
def Timing.dscOk (t : Timing) : Bool :=
  !t.dsc || (decide (t.hactive % t.slices = 0) && decide (64 ≤ t.hactive / t.slices) &&
    decide (t.hactive / t.slices ≤ 2560) && decide (t.pclk ≤ 300000 * min t.slices 4))

/-- OUT_SET_TIMING (0x0501, Table 10.2). -/
def cmdOutSetTiming : Cmd := ⟨0x0501, .tenants, 4, none,
  [⟨16, 1, .rng 0 7⟩, ⟨17, 1, .rng 0 4⟩, ⟨18, 1, .mask 0x7F⟩, ⟨19, 1, .any⟩, ⟨20, 2, .any⟩, ⟨22, 2, .any⟩, ⟨24, 2, .any⟩,
   ⟨26, 2, .any⟩, ⟨28, 2, .any⟩, ⟨30, 2, .any⟩, ⟨32, 2, .any⟩, ⟨34, 2, .any⟩, ⟨36, 4, .any⟩, ⟨40, 1, .any⟩, ⟨41, 1, .any⟩,
   ⟨42, 1, .any⟩, ⟨43, 1, .zero⟩, ⟨44, 2, .any⟩, ⟨46, 2, .any⟩]⟩

/-- The ranges of Table 10.2; with MODE 0 every field but OUTPUT and MODE is zero (R294). -/
def timingDyn (p : List Byte) : List (Nat × Bool) :=
  let t := timingOf p
  let k := par p 16 1
  let r := fun (n v lo hi : Nat) (ok : Bool) =>
    (n, if t.mode = 0 then decide (v = 0) else decide (lo ≤ v) && decide (v ≤ hi) && ok)
  let d := fun (n v : Nat) (ok : Bool) => (n, if t.dsc then ok else decide (v = 0))
  [(1, !t.pair || decide (k % 2 = 0)), (2, decide (t.mode < 3) || decide (4 ≤ k)),
   (3, if t.mode = 0 then decide (t.flags = 0)
       else (!t.burst || decide (t.mode = 3)) && (!t.cphy || decide (3 ≤ t.mode))),
   r 4 t.bpc 6 10 (decide (t.bpc = 8) || decide (t.bpc = 10) || (decide (t.bpc = 6) && decide (2 ≤ t.mode) && !t.dsc)),
   r 5 t.hactive 64 (if t.pair then 3840 else 5120) (decide (t.hactive % 2 = 0)),
   r 6 t.hfp 8 4095 true, r 7 t.hsync 1 1023 true, r 8 t.hbp 1 4095 (decide (t.htotal ≤ 8192)),
   r 9 t.vactive 64 5120 (decide (t.hactive * t.vactive ≤ 14745600)),
   r 10 t.vfp 1 1023 true, r 11 t.vsync 1 255 true, r 12 t.vbp 1 1023 (decide (t.vtotal ≤ 8192)),
   r 13 t.pclk 25000 1100000 t.rateOk, r 14 t.rate 0 255 t.laneRate.isSome, r 15 t.lanes 0 255 t.lanesOk,
   d 16 t.slices ([1, 2, 4, 8].contains t.slices),
   d 18 t.bpp16 (decide (16 * t.bpc ≤ t.bpp16) && decide (t.bpp16 < 48 * t.bpc)),
   d 19 t.sliceH (decide (8 ≤ t.sliceH) && decide (t.sliceH ≤ t.vactive) && decide (t.vactive % t.sliceH = 0))]

/-- The outputs a command affects: OUTPUT, the other half with PAIR, the half it unlocks (Table 10.5). -/
def State.affected (s : State) (k : Nat) (t : Timing) : List Nat :=
  if t.pair || s.paired k then [k / 2 * 2, k / 2 * 2 + 1] else [k]

/-- The fetch charge of a pipe's layers at a new timing (R261). -/
def State.fetchAtTiming (s : State) (k : Nat) (t : Timing) : Nat :=
  (s.bnd.layers.map (fun p =>
    if (tabGet (fun _ => 0) p.2.held.fetch k) = 0 ∧ ¬ p.2.held.slots.any (fun v => v / 16 = k) then 0
    else (p.2.cur.map (fun l => l.fetchAt (1000 * t.pclk) (t.htotal * t.vtotal))).getD 0)).foldl (· + ·) 0

/-- The checks of Table 10.5 beyond the ranges, by step (R296). -/
def timingMore (s : State) (p : List Byte) : List Chk :=
  let t := timingOf p
  let k := par p 16 1
  [⟨t.mode = 0 ∨ s.getF (OUT_LATCH k) OUT_LATCH_ADVANCE < t.vactive, .outOfRange, 9⟩,
   ⟨t.mode = 0 ∨ t.fits = true, .outOfRange, 14⟩, ⟨t.dscOk, .outOfRange, 16⟩,
   ⟨!(s.paired k && decide (k % 2 = 1)), .outOfRange, 1⟩]

/-- Does the output's permit hold for this timing (R301, R363)? -/
def State.permitted (s : State) (k : Nat) (t : Timing) : Bool :=
  s.getF (OUT_CTRL k) OUT_CTRL_MODE_CHG_OK = 1 &&
    decide (tabGet (fun _ => (0, 0)) s.strg.permits k = if t.mode = 0 then (0, 0) else (t.hactive, t.vactive))

/-- `s` without the permit of an output. -/
def State.dropPermit (s : State) (k : Nat) : State :=
  let s := s.setF (OUT_CTRL k) OUT_CTRL_MODE_CHG_OK 0
  { s with strg := { s.strg with permits := tabErase s.strg.permits k } }

/-- The ownership and state checks of Table 10.5. -/
def timingPre (s : State) (owner : Nat) (p : List Byte) : List Chk :=
  let t := timingOf p
  let k := par p 16 1
  let a := s.affected k t
  [⟨(if t.pair then a else [k]).all (fun j => decide (s.outOwner j = owner)), .notPermitted, 1⟩,
   ⟨a.all (fun j => decide (s.getF (BND_C0 j) BND_C0_C0_EN = 0) || s.permitted j t), .notPermitted, 2⟩,
   ⟨a.all (fun j => s.domainUp (outDomain j)), .notPermitted, 3⟩]

/-- The resource, BUSY and LINK_DOWN checks of Table 10.5. -/
def timingPost (s : State) (p : List Byte) : List Chk :=
  let t := timingOf p
  let k := par p 16 1
  let a := s.affected k t
  let pairs := decide (t.pair ≠ s.paired k) || decide (t.mode = 0)
  [⟨t.mode = 0 ∨ a.all (fun j => decide (s.fetchAtTiming j t ≤ 28800000000)) = true, .noResource, 13⟩,
   ⟨!(pairs && s.bnd.layers.any (fun x => (x.2.settings.map (fun l => a.contains l.output)).getD false)), .busy, 1⟩,
   ⟨a.all (fun j => (s.outp j).change.isNone), .busy, 2⟩,
   ⟨!((decide (t.mode = 1) || decide (t.mode = 2)) && (if t.pair then a else [k]).any (fun j => !s.hpdHigh j)), .linkDown, 0⟩]

/-! ### Steps of Table 10.6 -/

/-- The bit of the pixel PLL of output `k` in PCU_CLK_STATUS (Table 16.7). -/
def State.setPixPll (s : State) (k : Nat) (b : Bool) : State := s.setBit PCU_CLK_STATUS (6 + k) b

/-- The wear map (R478): a frame has been sent with the link up, and each zone's mean of codes, weighted by the frame time in units of
62.5 µs, is added to its accumulator. -/
def State.settleWear (s : State) (k : Nat) : State :=
  let o := s.outp k
  let f := s.frame k
  let h := s.getF (OUT_HACTIVE k) OUT_HACTIVE_ACTIVE
  let v := s.getF (OUT_VACTIVE k) OUT_VACTIVE_ACTIVE
  let px := fun (z : Nat) => ((List.range h).filter (fun x => decide (64 * x / h = z % 64))).length *
    ((List.range v).filter (fun y => decide (36 * y / v = z / 64))).length
  let units := s.htotal k * s.vtotal k * 16000
  let add := fun (m : Tab Nat) (p : Nat × Nat) =>
    let z := p.1 - 2304 * f
    tabSet (fun _ => 0) m (2304 * k + z)
      (satAdd 0xFFFFFFFF (tabGet (fun _ => 0) m (2304 * k + z)) (roundDiv (roundDiv p.2 (px z) * units) (s.reg (OUT_PCLK (s.latchOf k)))))
  let s := if o.unlit then s
    else { s with ledg := { s.ledg with wearOut := (tabRange o.zones (2304 * f) (2304 * (f + 1))).foldl add s.ledg.wearOut } }
  s.setOutp k { o with zones := tabDropRange o.zones 0 (2304 * (f + 1)), unlit := false }

/-- An output stops (R302, R603): OFF, no pair, no link, no pixel clock, no constraint; its FIFO is empty. -/
def State.stopOne (s : State) (k : Nat) : State :=
  let s := if s.outState k = 1 then s.settleWear k else s
  let s := ((s.setF (OUT_STATUS k) OUT_STATUS_STATE 0).setF (OUT_STATUS k) OUT_STATUS_LINK_UP 0).setF
    (OUT_STATUS k) OUT_STATUS_PAIRED 0
  let s := ((s.setF (OUT_STATUS k) OUT_STATUS_MODE 0).setF (OUT_STATUS k) OUT_STATUS_TE_FALLBACK 0).setReg (OUT_PCLK k) 0
  let s := (s.setReg (OUT_TOL k) 0xFFFF).setPixPll k false
  s.setOutp k { s.outp k with fifo := [], sending := false, late := [], teMissed := 0, teGood := 0, teEdge := false }

/-- The change of output `k` ends: its reply is written, and the permit of R301 is used up at the reply. -/
def State.endChange (s : State) (k detail r0 r1 : Nat) : State :=
  match (s.outp k).change with
  | none => s
  | some c =>
    let hs := if c.timing.pair then [k, k + 1] else [k]
    let s := s.setOutp k { s.outp k with change := none }
    let s := hs.foldl (fun t j => t.dropPermit j) s
    match c.pk with
    | some pk => s.complete pk .ok detail r0 r1
    | none => s

/-- Step 2 (R298, R302, R306): the link stops and STATE becomes CHANGING; MODE 0 stops the output, and its reply is
written; a pair that is unlocked loses its odd half. -/
def State.linkStopped (s : State) (k : Nat) (c : Change) : State :=
  if c.timing.mode = 0 then ((s.halves k).foldl (fun t j => t.stopOne j) s).endChange k 0 0 0
  else
    let s := if s.paired k && !c.timing.pair then (s.stopOne (k / 2 * 2 + 1)).setF (OUT_STATUS k) OUT_STATUS_PAIRED 0 else s
    let hs := if c.timing.pair then [k, k + 1] else [k]
    let s := hs.foldl (fun t j => if t.outState j = 1 then t.settleWear j else t) s
    let up := hs.all (fun j => s.getF (OUT_STATUS j) OUT_STATUS_LINK_UP = 1)
    let s := hs.foldl (fun t j =>
      let t := ((t.setF (OUT_STATUS j) OUT_STATUS_STATE 2).setF (OUT_STATUS j) OUT_STATUS_LINK_UP 0).setReg (OUT_TOL j) 0xFFFF
      t.setOutp j { t.outp j with fifo := [], sending := false, late := [] }) s
    s.setOutp k { s.outp k with change := some { c with step := 2, linkHeld := up } }

/-- OUT_SET_TIMING commits (R298): from a running output it waits for the next latch line; otherwise steps 1 and 2 are
skipped, and MODE 0 has nothing more to do. -/
def beginChange (pk : Pkt) (k : Nat) (t : Timing) (s : State) : State :=
  if (s.outp k).change.map Change.pk = some (some pk) then s
  else
    let s := s.commit pk
    if s.outState k = 1 then s.setOutp k { s.outp k with change := some ⟨some pk, t, 0, false, 0, false⟩ }
    else
      let s := s.setOutp k { s.outp k with change := some ⟨some pk, t, 2, false, 0, false⟩ }
      if t.mode = 0 then s.endChange k 0 0 0 else s

/-- What OUT_SET_TIMING adds to the shared validation. -/
def hooksOutSetTiming (pk : Pkt) (s : State) : Hooks :=
  { dyn := timingDyn, more := timingMore s, pre := timingPre s (s.ownerOf pk.fn)
    post := fun p => if (s.outp (par p 16 1)).change.map Change.pk = some (some pk) then [] else timingPost s p }

/-- The effect of OUT_SET_TIMING once it is admitted. -/
def effOutSetTiming (pk : Pkt) (p : List Byte) (t : State) : State :=
  beginChange pk (par p 16 1) (timingOf p) t

/-- OUT_SET_TIMING (R294 to R302). -/
def execOutSetTiming (pk : Pkt) (s : State) : Host.Outcome State Fault Refusal :=
  .next (runPkt cmdOutSetTiming pk s (hooksOutSetTiming pk s) (effOutSetTiming pk))

/-- OUT_LINK_STOPPED (R298 step 2): the old frame has ended with its back porch after a latch line at which no latch took
place. -/
def execOutLinkStopped (k : Nat) (s : State) : Host.Outcome State Fault Refusal :=
  .next (match (s.outp k).change with
    | some c => if c.step = 1 then s.linkStopped k c else s
    | none => s)

/-- OUT_PLL_LOCKED (R297): step 3, with the achieved pixel clock in Hz. The PLL of the even half serves a pair. -/
def execOutPllLocked (k hz : Nat) (s : State) : Host.Outcome State Fault Refusal :=
  .next (match (s.outp k).change with
    | some c =>
      if c.step = 2 then
        (s.setOutp k { s.outp k with change := some { c with step := 3, hz := hz % 2 ^ 32 } }).setPixPll k true
      else s
    | none => s)

/-- Must the link be trained in step 4 (R298)? -/
def State.needsTraining (s : State) (k : Nat) (c : Change) : Bool :=
  let o := (s.outp k).timing
  decide (o.mode ≠ c.timing.mode) || decide (o.rate ≠ c.timing.rate) || decide (o.lanes ≠ c.timing.lanes) ||
    decide (o.dsc ≠ c.timing.dsc) || c.timing.retrain || !c.linkHeld

/-- One half's link comes up, or fails with a reason of R300. -/
def State.linkResult (s : State) (k reason : Nat) : State :=
  if reason = 0 then s.setF (OUT_STATUS k) OUT_STATUS_LINK_UP 1
  else ((s.setF (OUT_STATUS k) OUT_STATUS_LINK_UP 0).count (OUT_LINK_LOSS_COUNT k)).postOut k 0x8503 reason 0 0

/-- What step 4 finds for one half: DP and eDP train when they must, not while HPD is low (reason 4), and fail with 1 or 2;
a DSI PHY that does not start is reason 3 (R300). -/
def State.trainReason (s : State) (k : Nat) (c : Change) (j outcome : Nat) : Nat :=
  if c.timing.mode = 1 ∨ c.timing.mode = 2 then
    if s.needsTraining k c then (if s.hpdHigh j then (if outcome = 1 ∨ outcome = 2 then outcome else 0) else 4) else 0
  else if outcome = 0 then 0 else 3

/-- OUT_LINK_TRAINED (R298 step 4, R300): the outcome for the output and, of a pair, for its odd half. -/
def execOutLinkTrained (k outcome outcomeOdd : Nat) (s : State) : Host.Outcome State Fault Refusal :=
  .next (match (s.outp k).change with
    | some c =>
      if c.step = 3 then
        let r := s.trainReason k c k outcome
        let r' := if c.timing.pair then s.trainReason k c (k + 1) outcomeOdd else 0
        let s := s.linkResult k r
        let s := if c.timing.pair then s.linkResult (k + 1) r' else s
        s.setOutp k { s.outp k with change := some { c with step := 4, failed := decide (r ≠ 0) || decide (r' ≠ 0) } }
      else s
    | none => s)

/-- The timing registers take a timing (R298 step 5). -/
def State.putTiming (s : State) (k : Nat) (t : Timing) (hz : Nat) : State :=
  let s := (((s.setReg (OUT_HACTIVE k) t.hactive).setReg (OUT_VACTIVE k) t.vactive).setReg (OUT_HPORCH k)
    (t.hbp * 65536 + t.hfp)).setReg (OUT_VPORCH k) (t.vbp * 65536 + t.vfp)
  let s := (s.setReg (OUT_HSYNC k) (b2n (bit t.flags 1) * 2 ^ 31 + t.hsync)).setReg (OUT_VSYNC k)
    (b2n (bit t.flags 2) * 2 ^ 31 + t.vsync)
  let s := (s.setReg (OUT_PCLK k) hz).setReg (OUT_LINK k)
    (t.rate * 2 ^ 24 + t.lanes * 2 ^ 20 + t.bpc * 2 ^ 16 + b2n t.dsc * 2 ^ 15 + b2n t.cphy * 2 ^ 14 + b2n t.burst * 2 ^ 13)
  let s := (s.setReg (OUT_DSC k) (t.sliceH * 65536 + t.slices * 4096 + t.bpp16)).setF (OUT_STATUS k) OUT_STATUS_MODE t.mode
  let s := ((s.setF (OUT_STATUS k) OUT_STATUS_PAIRED (b2n t.pair)).setF (OUT_STATUS k) OUT_STATUS_STATE 1).setF
    (OUT_LATCH k) OUT_LATCH_LINE (t.vactive - s.getF (OUT_LATCH k) OUT_LATCH_ADVANCE)
  s.setOutp k { s.outp k with
    timing := t, advance := s.getF (OUT_LATCH k) OUT_LATCH_ADVANCE, fifo := [], sending := false,
    late := [], teMissed := 0, teGood := 0, teFirst := true, teEdge := false, zones := [], unlit := false }

/-- Step 5 apart from the latch it takes (R298, R305): the timing generators start; an odd half takes the even half's
clock, frame number and latch settings. -/
def State.startTiming (s : State) (k : Nat) (c : Change) : State :=
  let s := s.putTiming k c.timing c.hz
  let s := if c.timing.pair then
      (((s.setReg (OUT_LATCH (k + 1)) (s.reg (OUT_LATCH k))).putTiming (k + 1) c.timing c.hz).setReg64 (OUT_FRAME_LO (k + 1))
        (s.frame k)).setPixPll (k + 1) false
    else s
  s.setOutp k { s.outp k with change := some { c with step := 5 } }

/-- A unit reset of an output (Table 19.5): it restarts through steps 1 to 6 with its current timing and RETRAIN. -/
def State.restartOutput (s : State) (k : Nat) : State :=
  let e := if s.paired k then k / 2 * 2 else k
  if (s.outp e).change.isSome ∨ s.outState e ≠ 1 then s
  else
    let o := (s.outp e).timing
    let t := { o with flags := setBits o.flags 6 6 1, hactive := s.getF (OUT_HACTIVE e) OUT_HACTIVE_ACTIVE,
                      vactive := s.getF (OUT_VACTIVE e) OUT_VACTIVE_ACTIVE,
                      hfp := s.getF (OUT_HPORCH e) OUT_HPORCH_FRONT, hbp := s.getF (OUT_HPORCH e) OUT_HPORCH_BACK,
                      vfp := s.getF (OUT_VPORCH e) OUT_VPORCH_FRONT, vbp := s.getF (OUT_VPORCH e) OUT_VPORCH_BACK,
                      hsync := s.getF (OUT_HSYNC e) OUT_HSYNC_WIDTH, vsync := s.getF (OUT_VSYNC e) OUT_VSYNC_WIDTH }
    s.setOutp e { s.outp e with change := some ⟨none, t, 0, false, 0, false⟩ }

/-- An output whose domain drops is stopped (R603): a committed OUT_SET_TIMING that has not reached step 6 replies with
DETAIL 2. -/
def State.stopForDrop (s : State) (k : Nat) : State :=
  let s := s.stopOne k
  if (s.outp k).change.isSome then s.endChange k 2 0 0 else s

/-! ### Tolerance and lines (R29, R30, R308 to R310) -/

/-- The lines the FIFO can hold (R308). -/
def State.fifoCapacity (s : State) (k : Nat) : Nat := 393216 / (4 * s.getF (OUT_HACTIVE k) OUT_HACTIVE_ACTIVE)

/-- The tolerance in 64 ns units: the complete lines held, less one, times the line time, below the value that means no
constraint (R29, R30, R310). -/
def State.toleranceOf (s : State) (k : Nat) : Nat :=
  min 0xFFFE (((s.outp k).fifo.length - 1) * s.htotal k * 10 ^ 9 / s.reg (OUT_PCLK (s.latchOf k)) / 64)

/-- The output states its tolerance (R30). -/
def State.stateTolerance (s : State) (k : Nat) : State :=
  if s.outState k = 1 then s.setReg (OUT_TOL k) ((s.outp k).fifo.length * 65536 + s.toleranceOf k)
  else s.setReg (OUT_TOL k) 0xFFFF

/-- OUTk_FILL is sent for a whole line (R308): counted, and told to the owner once a frame. -/
def State.underrun (s : State) (k line : Nat) : State :=
  let s := (s.count (OUT_UNDERRUN_COUNT k)).occur { event := 0x4002, unit := k }
  let s := if (s.outp k).underrunPosted then s
    else (s.postOut k 0x8505 0 (s.frame k) line).setOutp k { s.outp k with underrunPosted := true }
  s.setOutp k { s.outp k with late := (s.outp k).late ++ [(s.frame k, line)], underrunPosted := true }

/-- One beat of a line is replaced by fill (R309): counted, told to the owner once a frame, a T2 record against the output,
whose limit restarts it (Table 19.5). -/
def State.poisonBeat (s : State) (k line beat : Nat) : State :=
  let s := s.count (OUT_POISON_COUNT k)
  let s := if (s.outp k).poisonPosted then s else s.postOut k 0x8506 0 (s.frame k) 0
  let s := s.setOutp k { s.outp k with poisonPosted := true, replaced := (s.outp k).replaced ++ [(s.frame k, line, beat)] }
  let crossed := s.crossesLimit 8 k
  let s := (s.record 8 k 2 0x08 (s.outOwner k) (s.frame k) line).state
  if crossed then s.restartOutput k else s

/-- OUT_LINE_START (R29): a line starts. An active line is taken from the FIFO, with fill for the beats found
uncorrectable or poisoned, or sent as fill if it is not complete there; the line before it leaves the FIFO; the tolerance is refreshed. -/
def execOutLineStart (k line : Nat) (bad : List Nat) (s : State) : Host.Outcome State Fault Refusal :=
  .next (if s.outState k = 1 then
    let o := s.outp k
    let s := s.setOutp k { o with
      fifo := if o.sending then o.fifo.drop 1 else o.fifo, sending := false
      unlit := o.unlit || decide (s.getF (OUT_STATUS k) OUT_STATUS_LINK_UP = 0) }
    let s := s.setReg (OUT_POS k) (line % 8192)
    let s := if line < s.getF (OUT_VACTIVE k) OUT_VACTIVE_ACTIVE then
        let w := s.getF (OUT_HACTIVE k) OUT_HACTIVE_ACTIVE
        let s := (s.fixedCount 4 w).occur { event := 0x4001, unit := k, n := w }
        match (s.outp k).fifo with
        | l :: _ =>
          if l.line = line ∧ l.frame = s.frame k then
            let s := s.setOutp k { s.outp k with sending := true }
            bad.foldl (fun t b => t.poisonBeat k line b) s
          else s.underrun k line
        | [] => s.underrun k line
      else s
    s.stateTolerance k
  else s)

/-! ### Tearing effect (R311, R312) -/

/-- TE_EDGE (R311): an edge after the filter. Accepted from 0.9 F to 1.1 F after line 0 of the previous frame, or before the
first frame; otherwise counted. Two accepted edges in a row end the fallback (R312). -/
def execTeEdge (k : Nat) (s : State) : Host.Outcome State Fault Refusal :=
  .next (if s.outMode k = 4 ∧ s.outState k = 1 then
    let o := s.outp k
    let f := s.frameTime k
    let t := s.now - o.line0
    if o.teFirst ∨ 9 * f ≤ 10 * t ∧ 10 * t ≤ 11 * f then
      let s := s.setOutp k { o with teEdge := true, teMissed := 0, teGood := o.teGood + 1 }
      if 2 ≤ o.teGood + 1 then s.setF (OUT_STATUS k) OUT_STATUS_TE_FALLBACK 0 else s
    else s.count (OUT_TE_REJECT_COUNT k)
  else s)

/-- TE_PERIOD_MISSED (R311, R312): no accepted edge by 1.1 F; the third in a row makes the output fall back to internal
timing, and the owner is told. -/
def execTePeriodMissed (k : Nat) (s : State) : Host.Outcome State Fault Refusal :=
  .next (if s.outMode k = 4 ∧ s.outState k = 1 ∧ ¬ (s.outp k).teEdge then
    let o := s.outp k
    let s := s.setOutp k { o with teMissed := o.teMissed + 1, teGood := 0 }
    if o.teMissed + 1 = 3 ∧ s.getF (OUT_STATUS k) OUT_STATUS_TE_FALLBACK = 0 then
      (s.setF (OUT_STATUS k) OUT_STATUS_TE_FALLBACK 1).postOut k 0x8504 0 0 0
    else s
  else s)

/-! ### Hot-plug (R317, R318) -/

/-- HPD_PLUG: a rising edge of HPD that has stayed high for 2 ms. -/
def execHpdPlug (k : Nat) (s : State) : Host.Outcome State Fault Refusal :=
  .next (if s.hpdHigh k then s else (s.setF (OUT_STATUS k) OUT_STATUS_HPD 1).postOut k 0x8502 1 0 0)

/-- HPD_UNPLUG: a low level longer than 2 ms. In MODE 1 or 2 a running output stops driving its lanes; a change in progress
finds its link down. -/
def execHpdUnplug (k : Nat) (s : State) : Host.Outcome State Fault Refusal :=
  .next (if s.hpdHigh k then
    let e := s.latchOf k
    let s := s.setF (OUT_STATUS k) OUT_STATUS_HPD 0
    let s := if s.outState k = 1 ∧ (s.outMode k = 1 ∨ s.outMode k = 2) then
        (s.setF (OUT_STATUS k) OUT_STATUS_LINK_UP 0).count (OUT_LINK_LOSS_COUNT k)
      else s
    let s := match (s.outp e).change with
      | some c => s.setOutp e { s.outp e with change := some { c with linkHeld := false } }
      | none => s
    s.postOut k 0x8502 0 0 0
  else s)

/-- HPD_IRQ: a low pulse of 250 µs to 2 ms. -/
def execHpdIrq (k : Nat) (s : State) : Host.Outcome State Fault Refusal :=
  .next (if s.hpdHigh k then s.postOut k 0x8502 2 0 0 else s)

/-! ### OUT_AUX (R316) -/

/-- OUT_AUX (0x0502, Table 10.11). -/
def cmdOutAux : Cmd := ⟨0x0502, .tenants, 4, none,
  [⟨16, 1, .rng 0 7⟩, ⟨17, 1, .rng 0 8⟩, ⟨18, 1, .rng 1 24⟩, ⟨19, 1, .mask 3⟩, ⟨20, 4, .any⟩, ⟨24, 24, .any⟩]⟩

/-- The ranges of Table 10.11 that depend on OP and MODE. -/
def auxDyn (s : State) (p : List Byte) : List (Nat × Bool) :=
  let op := par p 17 1
  let len := par p 18 1
  let mode := s.outMode (par p 16 1)
  let write := op = 1 ∨ op = 3 ∨ op = 4 ∨ op = 5 ∨ op = 7
  [(2, decide (mode = 0) || (if mode ≤ 2 then decide (op ≤ 3) else decide (4 ≤ op))),
   (3, if op = 4 then decide (len ≤ 2) else if op = 5 ∨ op = 7 then decide (len ≤ 24) else decide (len ≤ 16)),
   (4, if op ≤ 1 then decide (par p 19 1 = 0) else if op ≤ 3 then decide (par p 19 1 ≤ 1) else decide (par p 19 1 % 2 = 0)),
   (5, if op ≤ 1 then decide (par p 20 4 ≤ 0xFFFFF) else if op ≤ 3 then decide (par p 20 4 ≤ 127) else decide (par p 20 4 ≤ 3)),
   (6, if write then allZero (slice p (8 + len) (24 - len))
       else if op = 6 ∨ op = 8 then true else allZero (slice p 8 24))]

/-- May the transaction be carried now: after earlier ones of the output; a DSI one outside the active lines, in MODE 3 at
most four a frame (R316)? -/
def State.auxTurn (s : State) (k : Nat) (pk : Pkt) : Bool :=
  ((s.outp k).aux.takeWhile (fun q => decide (q ≠ pk))).isEmpty &&
  (decide (s.outMode k ≤ 2) ||
    (decide (s.getF (OUT_VACTIVE k) OUT_VACTIVE_ACTIVE ≤ s.getF (OUT_POS k) OUT_POS_LINE) &&
      (decide (s.outMode k = 4) || decide ((s.outp k).dsiSent < 4))))

/-- The bytes of a read that a result word carries: bytes 8i to 8i + 7 of LENGTH. -/
def auxWord (len i data : Nat) : Nat := data % 256 ^ min 8 (len - 8 * i)

/-- The sink's answer ends the transaction (R316): 0 acknowledged, 1 NACK, 2 retries exhausted, 3 a DSI error report, 4 a
read response of the wrong length. -/
def auxAnswer (pk : Pkt) (k op len outcome r0 r1 : Nat) (s : State) : State :=
  let o := s.outp k
  let s := s.setOutp k { o with aux := o.aux.filter (fun q => decide (q ≠ pk)), dsiSent := if 4 ≤ op then o.dsiSent + 1 else o.dsiSent }
  if outcome = 0 then
    if op = 0 ∨ op = 2 ∨ op = 6 ∨ op = 8 then s.complete pk .ok 0 (auxWord len 0 r0) (auxWord len 1 r1) else s.complete pk .ok
  else s.complete pk .dependencyFailed outcome r0 (if outcome = 3 then r1 % 65536 else r1)

/-- What OUT_AUX adds to the shared validation. -/
def hooksOutAux (pk : Pkt) (s : State) : Hooks :=
  { dyn := auxDyn s
    pre := fun p => [⟨s.outOwner (par p 16 1) = s.ownerOf pk.fn, .notPermitted, 1⟩]
    post := fun p =>
      let k := par p 16 1
      [⟨s.outState k ≠ 2, .busy, 2⟩,
       ⟨s.outMode k ≠ 0 ∧ ((s.outMode k = 1 ∨ s.outMode k = 2) → s.hpdHigh k = true), .linkDown, 0⟩] }

/-- The effect of OUT_AUX once it is admitted. -/
def effOutAux (pk : Pkt) (outcome r0 r1 : Nat) (p : List Byte) (t : State) : State :=
  let k := par p 16 1
  let t := if (t.outp k).aux.contains pk then t else t.setOutp k { t.outp k with aux := (t.outp k).aux ++ [pk] }
  if t.auxTurn k pk then auxAnswer pk k (par p 17 1) (par p 18 1) (outcome % 5) r0 r1 t else t

/-- OUT_AUX (R316): one sideband transaction, with what the sink answered; it waits its turn. -/
def execOutAux (pk : Pkt) (outcome r0 r1 : Nat) (s : State) : Host.Outcome State Fault Refusal :=
  .next (runPkt cmdOutAux pk s (hooksOutAux pk s) (effOutAux pk outcome r0 r1))

/-- A packet waiting for its AUX turn is forgotten. -/
def State.forgetAux (s : State) (pk : Pkt) : State :=
  { s with outs := { s.outs with
      outs := tabMap (fun _ => {}) s.outs.outs (fun _ o => { o with aux := o.aux.filter (fun q => decide (q ≠ pk)) }) } }

/-! ### Direct writes (R292, R303) -/

/-- A write of ADVANCE to output `k` (R292, R305): in effect from line 0 of the next frame; a write to the odd half of a
pair is discarded, and both halves read the same. The flag says whether it is refused as out of range. -/
def State.writeAdvance (s : State) (k v : Nat) : State × Bool :=
  if s.paired k ∧ k % 2 = 1 then (s, true)
  else if v ≤ 64 ∧ (s.outState k = 0 ∨ v < s.getF (OUT_VACTIVE k) OUT_VACTIVE_ACTIVE) then
    ((s.halves k).foldl (fun t j => t.setF (OUT_LATCH j) OUT_LATCH_ADVANCE v) s, true)
  else (s, false)

/-- Are the fields of a timing register inside the ranges of Table 10.2 (R303)? -/
def timingRegOk (s : State) (k addr v : Nat) : Bool :=
  let inR := fun (x lo hi : Nat) => decide (lo ≤ x) && decide (x ≤ hi)
  let hi := bits v 31 16
  let lo := bits v 15 0
  if addr = OUT_HACTIVE k then
    decide (hi = 0) && inR lo 64 (if s.paired k then 3840 else 5120) && decide (lo % 2 = 0)
  else if addr = OUT_HPORCH k then inR lo 8 4095 && inR hi 1 4095
  else if addr = OUT_HSYNC k then inR lo 1 1023
  else if addr = OUT_VACTIVE k then decide (hi = 0) && inR lo 64 5120 && decide (s.getF (OUT_LATCH k) OUT_LATCH_ADVANCE < lo)
  else if addr = OUT_VPORCH k then inR lo 1 1023 && inR hi 1 1023
  else inR lo 1 255

/-- Do the new totals stay inside Table 10.2? -/
def timingTotalsOk (s : State) (k : Nat) : Bool :=
  decide (s.htotal k ≤ 8192) && decide (s.vtotal k ≤ 8192) &&
    decide (s.getF (OUT_HACTIVE k) OUT_HACTIVE_ACTIVE * s.getF (OUT_VACTIVE k) OUT_VACTIVE_ACTIVE ≤ 14745600)

/-- A direct write of a timing register (R303): none if it is discarded and counted; a pair takes it in both halves. -/
def State.writeTimingReg (s : State) (k addr v : Nat) : Option State :=
  if s.outState k = 1 ∧ ¬ (s.paired k ∧ k % 2 = 1) ∧ s.getF (BND_C0 k) BND_C0_C0_EN = 0 ∧ timingRegOk s k addr v = true then
    let s' := (s.halves k).foldl (fun t j =>
      let t := t.setReg (addr - OUT_HACTIVE k + OUT_HACTIVE j) v
      t.setF (OUT_LATCH j) OUT_LATCH_LINE (t.getF (OUT_VACTIVE j) OUT_VACTIVE_ACTIVE - (t.outp (t.latchOf j)).advance)) s
    if timingTotalsOk s' k then some s' else none
  else none

end Sys2Proof.Machine
end

