-- ==== Sys2Proof/Machine/Strongroom.lean ====
section
/-! DEFINITION. The Strongroom: its requests but for the hand-over (R353 to R366), telltales and their supervision (R359,
R360), chimes (R364, R365), the responses to checker failures and escalations (R362, R526), and the outcomes of checkers and
windows (R334 to R339). -/

namespace Sys2Proof.Machine

/-! ### STRG_ALERT_N and chimes -/

/-- A cause holds STRG_ALERT_N low, or no longer does; STRG_STATUS.ALERT shows the pin (R362). -/
def State.setAlert (s : State) (cause : Nat) (on : Bool) : State :=
  let l := s.strg.alerts.filter (fun c => decide (c ≠ cause)) ++ (if on then [cause] else [])
  ({ s with strg := { s.strg with alerts := l } }).setF STRG_STATUS STRG_STATUS_ALERT (b2n (decide (l ≠ [])))

/-- The priority of a pattern (R364). -/
def State.chimePriority (s : State) (n : Nat) : Nat :=
  ((s.binding.chimes.find? (fun p => p.1 = n)).map (fun p => p.2.priority)).getD 0

/-- STRG_CHIME_STATUS shows what sounds and what waits (Table 12.22). -/
def State.showChimes (s : State) : State :=
  s.setReg STRG_CHIME_STATUS
    ((s.strg.waiting.map (fun v => 2 ^ (v.pattern + 16))).foldl (· ||| ·) 0 ||| (s.strg.voices.map (fun v => 2 ^ v.pattern)).foldl (· ||| ·) 0)

/-- `s` with voices and waiting patterns. -/
def State.setVoices (s : State) (voices waiting : List Voice) : State :=
  ({ s with strg := { s.strg with voices := voices, waiting := waiting } }).showChimes

/-- A pattern is asked for (R364): it takes a free voice, or that of the lowest-priority pattern sounding, the earliest of
equals, if its own priority is higher; else it waits. A request for a pattern that sounds or waits replaces that request
(assumption 8). -/
def State.chimeStart (s : State) (v : Voice) : State :=
  let voices := s.strg.voices.filter (fun x => decide (x.pattern ≠ v.pattern))
  let waiting := s.strg.waiting.filter (fun x => decide (x.pattern ≠ v.pattern))
  if voices.length < 4 then s.setVoices (voices ++ [v]) waiting
  else match minBy (fun x : Voice => s.chimePriority x.pattern) voices.reverse with
    | some low =>
      if s.chimePriority low.pattern < s.chimePriority v.pattern then
        s.setVoices (voices.filter (fun x => decide (x ≠ low)) ++ [v]) waiting
      else s.setVoices voices (waiting ++ [v])
    | none => s.setVoices (voices ++ [v]) waiting

/-- Waiting patterns take free voices, in the order they came (assumption 8). -/
def State.chimeFill (s : State) : State :=
  s.setVoices (s.strg.voices ++ s.strg.waiting.take (4 - s.strg.voices.length)) (s.strg.waiting.drop (4 - s.strg.voices.length))

/-- Patterns that satisfy `p` stop, and waiting ones take their voices. -/
def State.chimeStop (s : State) (p : Voice → Bool) : State :=
  (s.setVoices (s.strg.voices.filter (fun v => !p v)) (s.strg.waiting.filter (fun v => !p v))).chimeFill

/-- CHIME_VOICE_FREE (R364): a pattern has ended. -/
def execChimeVoiceFree (pattern : Nat) (s : State) : Host.Outcome State Fault Refusal :=
  .next (if s.strg.voices.any (fun v => v.pattern = pattern) then
      (s.setVoices (s.strg.voices.filter (fun v => decide (v.pattern ≠ pattern))) s.strg.waiting).chimeFill
    else s)

/-! ### Responses (R362, R526) -/

/-- The instances that control a telltale of an output. -/
def State.controllersOf (s : State) (k : Nat) : List Nat :=
  (List.range 65).filter (fun n => decide (n ≠ 0) &&
    s.binding.sprites.any (fun p => decide (p.1 / 32 = k) && decide (p.2.controller = n)))

/-- A C0_RESPONSE or ESC_RESPONSE acts: bit 0 starts the chime, bit 1 asserts STRG_ALERT_N, bit 2 tells the controllers (R362). -/
def State.respond (s : State) (k resp cause chime alert frame : Nat) : State :=
  let s := if bit resp 0 then s.chimeStart ⟨chime, true, cause⟩ else s
  let s := if bit resp 1 then s.setAlert alert true else s
  if bit resp 2 then (s.controllersOf k).foldl (fun t n => t.post n 0x8F03 (256 * k) frame 0) s else s

/-- A response ends: its chime stops unless another output still has the condition, STRG_ALERT_N loses the cause (R362). -/
def State.endResponse (s : State) (cause alert mask : Nat) : State :=
  (if mask = 0 then s.chimeStop (fun v => decide (v.cause = cause)) else s).setAlert alert false

/-- The response of an output to checker failures, from the binding table. -/
def State.c0ResponseOf (s : State) (k : Nat) : Nat := s.binding.c0Response.getD k 0

/-- The Strongroom takes a checker outcome other than NONE (R362); in the safe state the safe-state machine takes it (R526). -/
def State.takeOutcome (s : State) (k frame code : Nat) : State :=
  let bad := tabGet (fun _ => 0) s.strg.c0Bad k
  let good := tabGet (fun _ => 0) s.strg.c0Good k
  let set := fun (t : State) (b g : Nat) => { t with strg := { t.strg with
    c0Bad := tabSet (fun _ => 0) t.strg.c0Bad k b, c0Good := tabSet (fun _ => 0) t.strg.c0Good k g } }
  let fault := (s.getF STRG_STATUS STRG_STATUS_C0_FAULT).testBit k
  if code = 0 then
    let s := set s 0 (min 8 (good + 1))
    if ¬ s.safe ∧ fault ∧ 8 ≤ good + 1 then
      let s := s.setBit STRG_STATUS k false
      let s := s.endResponse 1 k (s.getF STRG_STATUS STRG_STATUS_C0_FAULT)
      let s := if bit (s.c0ResponseOf k) 2 then (s.controllersOf k).foldl (fun t n => t.post n 0x8F03 (256 * k + 1) frame 0) s else s
      s.postMgr 0x8F03 (256 * k + 1) frame 0
    else s
  else
    let s := set s (bad + 1) 0
    let s := if bad = 0 ∧ ¬ s.safe then s.writeExpected k else s
    if bad + 1 = s.binding.c0Thresh then
      if s.safe then ((s.setBit STRG_STATUS k true).record 7 k 2 0x0D 0xFF frame code).state
      else
        let s := (s.respond k (s.c0ResponseOf k) 1 s.binding.c0Chime k frame).setBit STRG_STATUS k true
        (s.record 7 k 2 0x0D 0xFF frame code).state.postMgr 0x8F03 (256 * k) frame 0
    else s

/-- A window escalates (R336, R362): ESC_RESPONSE acts, ESC_ACTIVE is set, no journal record. -/
def State.escalate (s : State) (k w frame : Nat) : State :=
  let s := s.setWin (16 * k + w) { s.win (16 * k + w) with escalated := some 0 }
  let s := (s.respond k (s.binding.escResponse.getD k 0) 2 s.binding.escChime (8 + k) frame).setBit STRG_STATUS (8 + k) true
  s.postMgr 0x8F04 (256 * k + 16 * w) frame 0

/-- ESC_ACTIVE clears once no window of the output still holds its escalation (R362); `w` is the window that let go last. -/
def State.settleEscalation (s : State) (k w : Nat) : State :=
  if (s.getF STRG_STATUS STRG_STATUS_ESC_ACTIVE).testBit k ∧ ¬ (s.winsOf k).any (fun j => (s.win j).escalated.isSome) then
    let s := s.setBit STRG_STATUS (8 + k) false
    (s.endResponse 2 (8 + k) (s.getF STRG_STATUS STRG_STATUS_ESC_ACTIVE)).postMgr 0x8F04 (256 * k + 16 * w + 1) 0 0
  else s

/-! ### Outcomes of checkers and windows -/

/-- Is the output computing: RUNNING and not between steps 1 and 6 of a change (R299, R334, R338)? -/
def State.computing (s : State) (k : Nat) : Bool :=
  s.outState k = 1 && ((s.outp (s.latchOf k)).change.all (fun c => decide (c.step = 0)))

/-- Was any of these columns of a line sent as fill, the line being sent as fill or a beat of it replaced (R308, R309)? -/
def State.filledAt (s : State) (k frame line lo n : Nat) : Bool :=
  decide (0 < n) && (((s.outp k).late.contains (frame, line)) ||
    (s.outp k).replaced.any (fun r => decide (r.1 = frame) && decide (r.2.1 = line) && decide (8 * r.2.2 < lo + n) && decide (lo < 8 * r.2.2 + 8)))

/-- Did a covered pixel of these sprites lie in fill (R339)? -/
def State.coveredFilled (s : State) (k frame : Nat) (sprites : List (Nat × Nat × Nat)) : Bool :=
  ((s.outp k).late.any (fun x => decide (x.1 = frame) && !(covered (s.c0Line sprites x.2)).isEmpty)) ||
    (s.outp k).replaced.any (fun r => decide (r.1 = frame) &&
      (covered (s.c0Line sprites r.2.1)).any (fun p => decide (p.1 / 8 = r.2.2)))

/-- The checker of an output. -/
def State.gpc (s : State) (k : Nat) : Gpc := tabGet (fun _ => {}) s.coll.gpcs k

/-- `s` with a checker changed. -/
def State.setGpc (s : State) (k : Nat) (g : Gpc) : State :=
  { s with coll := { s.coll with gpcs := tabSet (fun _ => {}) s.coll.gpcs k g } }

/-- The checker's outcome (R339). -/
def gpcOutcome (filled : Bool) (r : GpcRun) (value count : Nat) : Nat :=
  if filled then 3 else if count ≠ r.countExp then 2 else if value ≠ r.expect then 1 else 0

/-- GPC_OUTCOME (R338, R339): the checker of output `k` reaches the outcome of its frame and delivers it to the Strongroom.
`fault` gives value and count where a fault of the C0 path has made them other than what the composed pixels give; a frame that
is not checked has outcome NONE. -/
def execGpcOutcome (k : Nat) (fault : Option (Nat × Nat)) (s : State) : Host.Outcome State Fault Refusal :=
  .next (
    let g := s.gpc k
    match g.run with
    | none => s.setF (GPC_STATUS k) GPC_STATUS_OUTCOME 7
    | some r =>
      if r.done ∨ ¬ s.computing k then s.setF (GPC_STATUS k) GPC_STATUS_OUTCOME 7
      else
        let v := (fault.map Prod.fst).getD (crcResult 0 r.crc)
        let n := (fault.map Prod.snd).getD r.count
        let code := gpcOutcome (s.coveredFilled k r.frame r.sprites) r v n
        let s := s.setGpc k { g with run := some { r with done := true }, failed := decide (code ≠ 0) }
        let s := ((s.setReg (GPC_VALUE k) v).setF (GPC_STATUS k) GPC_STATUS_OUTCOME code).setF (GPC_STATUS k) GPC_STATUS_COUNT n
        let s := if code = 0 then s else s.count (GPC_FAIL_COUNT k)
        let s := if code ≠ 0 ∧ ¬ g.failed then s.postMgr 0x8605 (256 * k + code) 0 0 else s
        s.takeOutcome k r.frame code)

/-- The outcome of a window for its frame (Table 11.7), with the expected value. -/
def State.winOutcome (s : State) (k : Nat) (x : Win) (r : WinRun) (result : Nat) : Nat × Nat :=
  let c := r.cfg
  let filled := (List.range c.h).any (fun i => s.filledAt k r.frame (c.y + i) c.x c.w)
  let exp := ((r.table.find? (fun e => e.key = r.shown)).bind (fun e => (e.vals[r.frame % 4]?).join))
  let back := if s.getF (OUT_CTRL k) OUT_CTRL_DITHER = 2 then 4 else 1
  let ref := (x.results.find? (fun p => p.1 + back = r.frame)).map Prod.snd
  if c.layer ≠ 0xFF ∧ r.kind = 1 then (5, 0)
  else if c.layer ≠ 0xFF ∧ r.kind = 2 then (6, 0)
  else if filled then (3, 0)
  else if c.mode = 1 then
    match exp with
    | none => (2, 0)
    | some e => (if result = e then 0 else 1, e)
  else if c.mode = 2 ∧ ref = some result then (4, 0)
  else (0, 0)

/-- Tell the window's supplier and the output's owner, once if they are the same function (R335, R336). -/
def State.postBoth (s : State) (k supplier code detail d0 d1 : Nat) : State :=
  let s := s.postOwner supplier code detail d0 d1
  if s.outOwner k = supplier then s else s.postOwner (s.outOwner k) code detail d0 d1

/-- The policy of a window acts (R336). -/
def State.winAct (s : State) (k w code : Nat) (c : WinCfg) (frame : Nat) : State :=
  let j := 16 * k + w
  let s := s.setF (COLL_WIN_STATUS k w) COLL_WIN_STATUS_ACTED 1
  let s := if c.policy = 1 then s.setWin j { s.win j with hideDue := true }
    else if c.policy = 2 then s.escalate k w frame else s
  s.postBoth k c.supplier 0x8602 (256 * k + 16 * w + code) (if c.policy = 1 then s.frame k + 1 else frame) 0

/-- WINDOW_OUTCOME (R332, R334 to R336): the window takes the outcome of its frame once its last line has been composed. -/
def execWindowOutcome (k w : Nat) (s : State) : Host.Outcome State Fault Refusal :=
  .next (
    let j := 16 * k + w
    let x := s.win j
    match x.run with
    | none => s
    | some r =>
      if r.done ∨ ¬ s.computing k ∨ r.line < r.cfg.y + r.cfg.h then s
      else
        let v := crcResult r.cfg.alg r.crc
        let o := s.winOutcome k x r v
        let esc := if o.1 = 0 then x.escalated.map (fun n => n + 1) else x.escalated.map (fun _ => 0)
        let s := s.setWin j { x with
          run := some { r with done := true }, results := ((r.frame, v) :: x.results).take 4
          escalated := esc.bind (fun n => if 8 ≤ n then none else some n) }
        let s := if x.escalated.isSome then s.settleEscalation k w else s
        let s := ((s.setF (COLL_WIN_STATUS k w) COLL_WIN_STATUS_OUTCOME o.1).setReg (COLL_WIN_FRAME k w) r.frame).setReg
          (COLL_WIN_VALUE k w) v
        if o.1 = 0 ∨ o.1 = 6 then s.clearFails k w
        else
          let fld := if o.1 = 5 then COLL_WIN_STATUS_LATES else COLL_WIN_STATUS_FAILS
          let n := s.getF (COLL_WIN_STATUS k w) fld
          let lim := if o.1 = 5 then r.cfg.lateLimit else r.cfg.thresh
          let s := (s.countF (COLL_WIN_STATUS k w) fld).count (if o.1 = 5 then COLL_WIN_LATE_COUNT k w else COLL_WIN_FAIL_COUNT k w)
          let s := if n = 0 then s.postBoth k r.cfg.supplier 0x8601 (256 * k + 16 * w + o.1) r.frame (o.2 * 2 ^ 32 + v) else s
          if lim ≠ 0 ∧ n + 1 = lim ∧ s.getF (COLL_WIN_STATUS k w) COLL_WIN_STATUS_ACTED = 0 then s.winAct k w o.1 r.cfg r.frame
          else s)

/-! ### Requests (R353 to R366) -/

/-- Run a request (R353): one that reaches the Strongroom while it restarts waits for it (R571). -/
def strgPkt (c : Cmd) (pk : Pkt) (s : State) (h : Hooks) (eff : List Byte → State → State) : State :=
  if s.getF STRG_STATUS STRG_STATUS_RUN = 2 then
    let first := (s.flightOf pk).isNone
    match if first then firstFail (headerChecks c pk s) else none with
    | some e => ((s.readBlock pk (some e)).letIn c.op pk [] [] []).complete pk e.1 e.2
    | none =>
      let p := s.paramsOf pk
      (if first then s.readBlock pk none else s).letIn c.op pk (if usesBlock pk then p else []) (objectsNamed c p h) (objectsWritten c p h)
  else runPkt c pk s h eff

/-- STRG_GET_INFO (0x0F01, R355). -/
def cmdStrgGetInfo : Cmd := ⟨0x0F01, .any, 0, none, []⟩

/-- The effect of STRG_GET_INFO once it is admitted. -/
def effStrgGetInfo (pk : Pkt) (_p : List Byte) (t : State) : State :=
t.complete pk .ok 0 (t.reg STRG_VERSION + 2 ^ 32 * t.reg STRG_STATUS) (t.reg STRG_BOUND + 2 ^ 32 * t.reg STRG_BOUND_CVU)

/-- STRG_GET_INFO (R355): version and rollback counter, STRG_STATUS, STRG_BOUND and STRG_BOUND_CVU. -/
def execStrgGetInfo (pk : Pkt) (s : State) : Host.Outcome State Fault Refusal :=
  .next (strgPkt cmdStrgGetInfo pk s {} (effStrgGetInfo pk))

/-- STRG_SET_TELLTALE (0x0F02, R359). -/
def cmdStrgSetTelltale : Cmd :=
  ⟨0x0F02, .tenants, 3, none,
    [⟨16, 1, .rng 1 8⟩, ⟨17, 7, .zero⟩] ++ (List.range 8).flatMap (fun i => [⟨24 + 2 * i, 1, .any⟩, ⟨25 + 2 * i, 1, .any⟩])⟩

/-- The entries of the packet: number, telltale, state. -/
def ttEntries (p : List Byte) : List (Nat × Nat × Nat) :=
  (List.range (min 8 (par p 16 1))).map (fun i => (i, par p (24 + 2 * i) 1, par p (25 + 2 * i) 1))

/-- The ranges of the entries: those beyond COUNT are zero, a state has no reserved bit and no invalid SHOW (Table 12.9). -/
def ttDyn (p : List Byte) : List (Nat × Bool) :=
  (List.range 8).flatMap (fun i =>
    let t := par p (24 + 2 * i) 1
    let st := par p (25 + 2 * i) 1
    if i < par p 16 1 then [(4 + 2 * i, decide (st < 16) && decide (st % 8 ≤ 4))]
    else [(3 + 2 * i, decide (t = 0)), (4 + 2 * i, decide (st = 0))])

/-- The further range checks of R359: telltales defined, all on one output or locked pair, variants with an asset. -/
def ttMore (s : State) (p : List Byte) : List Chk :=
  let es := ttEntries p
  let first := s.latchOf (par p 24 1 / 32)
  es.map (fun (e : Nat × Nat × Nat) => ⟨(s.sprite? e.2.1).isSome, .outOfRange, 3 + 2 * e.1⟩) ++
  es.map (fun (e : Nat × Nat × Nat) => ⟨s.latchOf (e.2.1 / 32) = first, .outOfRange, 3 + 2 * e.1⟩) ++
  es.map (fun (e : Nat × Nat × Nat) => ⟨e.2.2 % 8 = 0 ∨ ((s.sprite? e.2.1).map (fun q => q.variants.getD (e.2.2 % 8 - 1) 0xFF)).getD 0xFF ≠ 0xFF,
    .outOfRange, 4 + 2 * e.1⟩)

/-- What STRG_SET_TELLTALE adds to the shared validation. -/
def hooksStrgSetTelltale (pk : Pkt) (s : State) : Hooks :=
  { dyn := ttDyn, more := ttMore s
    pre := fun p => (ttEntries p).map (fun e =>
      ⟨(s.sprite? e.2.1).map Sprite.controller = some (s.ownerOf pk.fn), .notPermitted, 3 + 2 * e.1⟩) }

/-- The effect of STRG_SET_TELLTALE once it is admitted. -/
def effStrgSetTelltale (pk : Pkt) (p : List Byte) (t : State) : State :=
  if t.strg.ttPend.any (fun x => decide (x.2.2 = pk)) then t
  else
    let k := t.latchOf (par p 24 1 / 32)
    let es : List (Nat × Nat × Nat) := ttEntries p
    let t := { t with strg := { t.strg with
      ttPend := t.strg.ttPend ++ [(k, es.map Prod.snd, pk)]
      tts := es.foldl (fun (m : Tab Telltale) (e : Nat × Nat × Nat) => tabSet (fun _ => {}) m e.2.1 ⟨true, t.now, false⟩) t.strg.tts } }
    (t.halves k).foldl (fun u j => u.writeExpected j) t

/-- STRG_SET_TELLTALE (R359 to R361): once validated, with the expected values written, it waits for the latch; the supervision
of every telltale it names restarts. -/
def execStrgSetTelltale (pk : Pkt) (s : State) : Host.Outcome State Fault Refusal :=
  .next (strgPkt cmdStrgSetTelltale pk s (hooksStrgSetTelltale pk s) (effStrgSetTelltale pk))

/-- A packet that waits for a latch in the Strongroom is forgotten. -/
def State.forgetTelltales (s : State) (pk : Pkt) : State :=
  { s with strg := { s.strg with ttPend := s.strg.ttPend.filter (fun x => decide (x.2.2 ≠ pk)) } }

/-- A telltale takes its FAIL_STATE at the next latch (R360), if a command has ever been accepted for it and it is not in that
state already; the expected values follow. -/
def State.failTelltale (s : State) (t : Nat) : State :=
  let x := tabGet (fun _ => {}) s.strg.tts t
  if x.spoken ∧ (s.sprite? t).isSome ∧ s.getF (STRG_TT_STATE t) STRG_TT_STATE_FAILED = 0 then
    ({ s with strg := { s.strg with tts := tabSet (fun _ => {}) s.strg.tts t { x with failDue := true } } }).writeExpected (t / 32)
  else s

/-- The controller of telltales is reset, destroyed or contained (R360). -/
def State.loseController (s : State) (owner : Nat) : State :=
  (s.binding.sprites.filter (fun p => p.2.controller = owner)).foldl (fun t p => t.failTelltale p.1) s

/-- TELLTALE_REFRESH_EXPIRY (R360): REFRESH_MS has passed since the last accepted command that named the telltale;
supervision pauses while the core is halted or switches its firmware (R554, R571). -/
def execTelltaleRefreshExpiry (tt : Nat) (s : State) : Host.Outcome State Fault Refusal :=
  .next (if ((s.sprite? tt).map Sprite.refreshMs).getD 0 ≠ 0 ∧ ¬ s.dbg.strgHalted ∧ s.getF STRG_STATUS STRG_STATUS_RUN ≠ 2 then s.failTelltale tt else s)

/-- BLINK_PHASE_UPDATE (R361): the expected values of the coming frame are written. -/
def execBlinkPhaseUpdate (out : Nat) (s : State) : Host.Outcome State Fault Refusal := .next (s.writeExpected out)

/-- A telltale's registers take a state (Table 12.21). -/
def State.putTelltale (s : State) (t st : Nat) (failed : Bool) : State :=
  (s.setF (STRG_TT_STATE t) STRG_TT_STATE_STATE st).setF (STRG_TT_STATE t) STRG_TT_STATE_FAILED (b2n failed)

/-- What a latch does to the telltales of output `k` (R359, R360, Table 19.6 step 6): waiting commands take effect and reply, due
FAIL_STATEs are taken and reported; in the safe state every telltale is in FAIL_STATE. -/
def State.latchTelltales (s : State) (frame k : Nat) : State :=
  if s.safe then
    (s.binding.sprites.filter (fun p => s.latchOf (p.1 / 32) = k)).foldl (fun t p => t.putTelltale p.1 p.2.failState true) s
  else
    let due := s.binding.sprites.filter (fun p => decide (s.latchOf (p.1 / 32) = k) && (tabGet (fun _ => {}) s.strg.tts p.1).failDue)
    let s := due.foldl (fun t p =>
      let t := (t.putTelltale p.1 p.2.failState true).postMgr 0x8F02 p.1 0 0
      let t := if p.2.controller = 0 then t else t.post p.2.controller 0x8F02 p.1 0 0
      { t with strg := { t.strg with tts := tabSet (fun _ => {}) t.strg.tts p.1 { tabGet (fun _ => {}) t.strg.tts p.1 with failDue := false } } }) s
    let mine := s.strg.ttPend.filter (fun x => decide (x.1 = k))
    let s := { s with strg := { s.strg with ttPend := s.strg.ttPend.filter (fun x => decide (x.1 ≠ k)) } }
    mine.foldl (fun t x => (x.2.1.foldl (fun u e => u.putTelltale e.1 e.2 false) t).complete x.2.2 .ok 0 frame 0) s

/-- What a latch does for the checkers (R339, R361): the expected values and the sprites of the frame take effect. -/
def State.latchCheckers (s : State) (frame k : Nat) : State :=
  if s.getF (BND_C0 k) BND_C0_C0_EN = 1 then
    let s := if s.safe then s.writeExpected k else s
    let r : GpcRun := { frame := frame, sprites := s.spritesNow k frame, expect := s.reg (GPC_EXPECT k), countExp := s.reg (GPC_COUNT_EXP k) }
    let g := s.gpc k
    s.setGpc k { g with next := some r }
  else s

/-- A composed line passes the checker of its pipe (R338). -/
def State.feedChecker (s : State) (k frame line : Nat) (pixels : List (List Nat)) : State :=
  let g := s.gpc k
  let nx := g.next.filter (fun n => decide (n.frame = frame))
  match nx.orElse (fun _ => g.run) with
  | some r =>
    if r.frame = frame then
      let r := { r with crc := crcFeed 0 r.crc (checkerBytes pixels), count := r.count + pixels.length, line := line + 1 }
      s.setGpc k { g with run := some r, next := if nx.isSome then none else g.next }
    else s
  | none => s

/-- Checking starts anew (R339): the start counts as a MATCH. -/
def State.startChecking (s : State) (k : Nat) : State :=
  let g := s.gpc k
  s.setGpc k { g with run := none, next := none, failed := false }

/-- STRG_CHIME (0x0F03, R365). -/
def cmdStrgChime : Cmd := ⟨0x0F03, .tenants, 1, none, [⟨16, 1, .rng 0 15⟩, ⟨17, 1, .rng 0 2⟩, ⟨18, 6, .zero⟩]⟩

/-- What STRG_CHIME adds to the shared validation. -/
def hooksStrgChime (pk : Pkt) (s : State) : Hooks :=
  { pre := fun p => [⟨(s.binding.chimes.find? (fun c => c.1 = par p 16 1)).any (fun c => c.2.controllers.contains (s.ownerOf pk.fn)),
      .notPermitted, 1⟩] }

/-- The effect of STRG_CHIME once it is admitted. -/
def effStrgChime (pk : Pkt) (p : List Byte) (t : State) : State :=
  let n := par p 16 1
  let held := (t.strg.voices ++ t.strg.waiting).any (fun v => decide (v.pattern = n) && decide (v.cause ≠ 0))
  (if held then t
   else if par p 17 1 = 0 then t.chimeStop (fun v => decide (v.pattern = n))
   else t.chimeStart ⟨n, decide (par p 17 1 = 2), 0⟩).complete pk .ok

/-- STRG_CHIME (R365): stop, play once or repeat; a chime started by R362 or the safe state stays. -/
def execStrgChime (pk : Pkt) (s : State) : Host.Outcome State Fault Refusal :=
  .next (strgPkt cmdStrgChime pk s (hooksStrgChime pk s) (effStrgChime pk))

/-- STRG_KEY_LOAD (0x0F05, R366). -/
def cmdStrgKeyLoad : Cmd :=
  ⟨0x0F05, .manager, 2, none, [⟨16, 1, .rng 1 15⟩, ⟨17, 3, .zero⟩, ⟨20, 4, .readOpt⟩, ⟨24, 4, .mult 8 0 0xFFFFFFFF⟩, ⟨28, 4, .zero⟩]⟩

/-- The blob a packet names (Table 12.10). -/
def keyBlob (s : State) (p : List Byte) : List Byte := s.objBytes (handleIndex (par p 20 4)) (par p 24 4) 64

/-- Is the blob readable, for this slot, and does it unwrap (R366)? -/
def keyOk (s : State) (p : List Byte) : Bool :=
  (s.badBeat? (handleIndex (par p 20 4)) (par p 24 4) 64).isNone && decide (leNat (slice (keyBlob s p) 12 1) = par p 16 1) &&
    (Config.unwrapKey (keyBlob s p)).isSome

/-- What STRG_KEY_LOAD adds to the shared validation. -/
def hooksStrgKeyLoad (s : State) : Hooks :=
  { dyn := fun p => [(4, decide (par p 20 4 = 0) || decide (par p 24 4 + 64 ≤ s.objSize (par p 20 4)))]
    post := fun p => [⟨par p 20 4 = 0 ∨ keyOk s p = true, .integrityFail, 2⟩]
    reads := fun p => if par p 20 4 = 0 then [] else [(par p 20 4, par p 24 4, 64)] }

/-- The effect of STRG_KEY_LOAD once it is admitted. -/
def effStrgKeyLoad (pk : Pkt) (p : List Byte) (t : State) : State :=
  let key := if par p 20 4 = 0 then [] else (Config.unwrapKey (keyBlob t p)).getD []
  let t := if par p 20 4 = 0 then t else t.noteRead (handleIndex (par p 20 4)) (par p 24 4) 64
  ({ t with strg := { t.strg with keys := tabSet (fun _ => []) t.strg.keys (par p 16 1) key } }).complete pk .ok

/-- STRG_KEY_LOAD (R366): unwraps the blob into the slot; HANDLE 0 empties it. -/
def execStrgKeyLoad (pk : Pkt) (s : State) : Host.Outcome State Fault Refusal :=
  .next (strgPkt cmdStrgKeyLoad pk s (hooksStrgKeyLoad s) (effStrgKeyLoad pk))

/-- STRG_PERMIT_TIMING (0x0F06, R363). -/
def cmdStrgPermitTiming : Cmd := ⟨0x0F06, .tenants, 1, none, [⟨16, 1, .rng 0 7⟩, ⟨17, 3, .zero⟩, ⟨20, 2, .any⟩, ⟨22, 2, .any⟩]⟩

/-- The sizes of R363: 0 × 0, or both in the ranges of Table 10.2. -/
def permitDyn (p : List Byte) : List (Nat × Bool) :=
  let h := par p 20 2
  let v := par p 22 2
  if h = 0 ∧ v = 0 then []
  else [(3, decide (64 ≤ h) && decide (h ≤ 5120) && decide (h % 2 = 0)),
        (4, decide (64 ≤ v) && decide (v ≤ 5120) && decide (h * v ≤ 14745600))]

/-- Would a sprite that is shown cross the right or the bottom edge of the new active area (R363)? -/
def State.spriteCrosses (s : State) (k : Nat) (across : Bool) (size : Nat) : Bool :=
  (telltalesOf k).any (fun t =>
    match s.sprite? t with
    | some q =>
      match spriteShown q (s.getF (STRG_TT_STATE t) STRG_TT_STATE_STATE) 0 true with
      | some a => decide (size < if across then q.x + assetW (s.asset a) else q.y + assetH (s.asset a))
      | none => false
    | none => false)

/-- What STRG_PERMIT_TIMING adds to the shared validation. -/
def hooksStrgPermitTiming (pk : Pkt) (s : State) : Hooks :=
  { dyn := permitDyn
    more := fun p =>
      let off := par p 20 2 = 0 ∧ par p 22 2 = 0
      [⟨off ∨ s.spriteCrosses (par p 16 1) true (par p 20 2) = false, .outOfRange, 3⟩,
       ⟨off ∨ s.spriteCrosses (par p 16 1) false (par p 22 2) = false, .outOfRange, 4⟩]
    pre := fun p => [⟨s.outOwner (par p 16 1) = s.ownerOf pk.fn ∧ s.binding.mayChange.testBit (par p 16 1) = true, .notPermitted, 1⟩] }

/-- The effect of STRG_PERMIT_TIMING once it is admitted. -/
def effStrgPermitTiming (pk : Pkt) (p : List Byte) (t : State) : State :=
  let k := par p 16 1
  (({ t with strg := { t.strg with permits := tabSet (fun _ => (0, 0)) t.strg.permits k (par p 20 2, par p 22 2) } }).setF
    (OUT_CTRL k) OUT_CTRL_MODE_CHG_OK 1).complete pk .ok

/-- STRG_PERMIT_TIMING (R363): a permit for one change of the output to the size named. -/
def execStrgPermitTiming (pk : Pkt) (s : State) : Host.Outcome State Fault Refusal :=
  .next (strgPkt cmdStrgPermitTiming pk s (hooksStrgPermitTiming pk s) (effStrgPermitTiming pk))

/-- PERMIT_EXPIRY (R363): a permit that no OUT_SET_TIMING has taken within 1 s is cleared. -/
def execPermitExpiry (out : Nat) (s : State) : Host.Outcome State Fault Refusal :=
  .next (if (s.outp (s.latchOf out)).change.isSome then s else s.dropPermit out)

end Sys2Proof.Machine
end

