-- ==== Sys2Proof/Machine/Haptics.lean ====
section
/-! DEFINITION. Piezo haptics (R395 to R412): channels, descriptors, the rule every request for an effect meets, the boost and the
wake drive. The loop period and the end of a calibration, which can contain an instance, stand in Machine/HapLoop.lean. -/

namespace Sys2Proof.Machine

/-- A channel. -/
def State.hapc (s : State) (c : Nat) : HapChan := tabGet (fun _ => {}) s.hap.chans c

/-- Is the channel in the secure world (R350)? -/
def State.hapSecure (s : State) (c : Nat) : Bool := (s.getF STRG_BOUND STRG_BOUND_HAP).testBit c

/-- STATE of HAPn_STATUS (Table 14.6). -/
def State.hapStateCode (s : State) (c : Nat) : Nat :=
  let x := s.hapc c
  if s.hapSecure c then 7
  else if x.calib.isSome then 5
  else match x.run with
    | some r => r.phase
    | none =>
      if s.getF (HAP_STATUS c) HAP_STATUS_FAULT ≠ 0 then 6
      else s.getF (HAP_CFG c) HAP_CFG_ENABLE

/-- The priority of a descriptor (Table 14.3). -/
def effectPriority (d : List Byte) : Nat := leNat (slice d 2 1)

/-- HAPn_STATUS shows what the channel does. -/
def State.showHap (s : State) (c : Nat) : State :=
  let x := s.hapc c
  let s := s.setF (HAP_STATUS c) HAP_STATUS_STATE (s.hapStateCode c)
  let s := s.setF (HAP_STATUS c) HAP_STATUS_PENDING (b2n x.pend.isSome)
  let s := s.setF (HAP_STATUS c) HAP_STATUS_SLOT ((x.run.map HapRun.slot).getD 0)
  s.setF (HAP_STATUS c) HAP_STATUS_PRIORITY ((x.run.map (fun r => effectPriority r.desc)).getD 0)

/-- `s` with a channel changed. -/
def State.setHap (s : State) (c : Nat) (x : HapChan) : State :=
  ({ s with hap := { s.hap with chans := tabSet (fun _ => {}) s.hap.chans c x } }).showHap c

/-! ### The boost (R397) -/

/-- Does the boost run: the HAP domain up, VHAPT there, a channel enabled? -/
def State.boostRuns (s : State) : Bool :=
  s.domainUp 20 && decide (s.getF HAP_BOOST_STATUS HAP_BOOST_STATUS_VHAPT_UV = 0) &&
    (List.range 8).any (fun c => s.getF (HAP_CFG c) HAP_CFG_ENABLE = 1)

/-- A boost that no longer runs is not at its set point; what VHV reads then is not given. -/
def State.settleBoost (s : State) : State :=
  if s.boostRuns ∨ s.getF HAP_BOOST_STATUS HAP_BOOST_STATUS_UP = 0 then s
  else
    let f := s.fresh
    ((f.2.setF HAP_BOOST_STATUS HAP_BOOST_STATUS_UP 0).setF HAP_BOOST_STATUS HAP_BOOST_STATUS_LOW 0).setF
      HAP_BOOST_STATUS HAP_BOOST_STATUS_VHV f.1

/-- BOOST_UP (R397): VHV reaches VHV_SET, shown in units of 0.5 V. -/
def execBoostUp (s : State) : Host.Outcome State Fault Refusal :=
  .next (if s.boostRuns then
      (s.setF HAP_BOOST_STATUS HAP_BOOST_STATUS_UP 1).setF HAP_BOOST_STATUS HAP_BOOST_STATUS_VHV
        (2 * s.getF HAP_BOOST_CTRL HAP_BOOST_CTRL_VHV_SET)
    else s)

/-- VHV_SAG (R399): VHV, measured as `vhv` half volts, has stayed more than 6 V below VHV_SET for 100 µs; told once per
episode. -/
def execVhvSag (vhv : Nat) (s : State) : Host.Outcome State Fault Refusal :=
  .next (if s.boostRuns ∧ s.getF HAP_BOOST_STATUS HAP_BOOST_STATUS_LOW = 0 then
      let s := (s.setF HAP_BOOST_STATUS HAP_BOOST_STATUS_LOW 1).setF HAP_BOOST_STATUS HAP_BOOST_STATUS_VHV vhv
      s.postMgr 0x8804 0 (s.reg HAP_BOOST_STATUS) 0
    else s)

/-- VHV_SAG_END (R399): VHV is within 6 V of VHV_SET again. -/
def execVhvSagEnd (vhv : Nat) (s : State) : Host.Outcome State Fault Refusal :=
  .next (if s.getF HAP_BOOST_STATUS HAP_BOOST_STATUS_LOW = 1 then
      (s.setF HAP_BOOST_STATUS HAP_BOOST_STATUS_LOW 0).setF HAP_BOOST_STATUS HAP_BOOST_STATUS_VHV vhv
    else s)

/-! ### Effects that end -/

/-- The pending effect of a channel goes: a HAP_PLAY completes with the status. -/
def State.endPending (s : State) (c : Nat) (st : Status) (detail : Nat) : State :=
  match (s.hapc c).pend with
  | none => s
  | some q =>
    let s := s.setHap c { s.hapc c with pend := none }
    match q.src with
    | some pk => s.complete pk st detail
    | none => s

/-- The effect of a channel is over: its HAP_PLAY and the HAP_STOPs that waited for it reply (R406, R407). -/
def State.endEffect (s : State) (c outcome : Nat) : State :=
  match (s.hapc c).run with
  | none => s
  | some r =>
    let x := s.hapc c
    let s := s.setHap c { x with run := none, stops := [] }
    let s := match r.src with
      | some pk => s.complete pk .ok 0 r.start outcome
      | none => s
    x.stops.foldl (fun t pk => t.complete pk .ok) s

/-- An effect that something other than R405 to R410 ends: the outcome its reply will give is not stated. -/
def State.brakePassively (s : State) (c : Nat) : State :=
  match (s.hapc c).run with
  | some r =>
    if r.phase = 4 then s.setHap c { s.hapc c with run := some { r with passive := true } }
    else
      let f := s.fresh
      f.2.setHap c { f.2.hapc c with run := some { r with phase := 4, passive := true, outcome := f.1 % 5, brake := 0, below := 0 } }
  | none => s

/-- A channel's calibration returns to its reset value. -/
def State.clearCal (s : State) (c : Nat) : State :=
  let s := (s.setF (HAP_STATUS c) HAP_STATUS_CALIBRATED 0).setReg (HAP_CAL c) 0
  (s.setReg (HAP_GAIN c) 0).setHap c { s.hapc c with gains := [] }

/-- A channel changes owner (R396): its effect brakes, its pending effect is aborted, slots, settings and calibration return to
reset values; a calibration in progress ends without a result the channel keeps. -/
def State.hapOwnerChange (s : State) (c : Nat) : State :=
  let s := ((s.brakePassively c).endPending c .aborted 0).clearCal c
  let s := (s.setReg (HAP_CFG c) 0).setReg (HAP_SCALE c) 0
  let s := (s.setF (HAP_STATUS c) HAP_STATUS_FAULT 0).setF (HAP_STATUS c) HAP_STATUS_SENSOR_STALE 0
  let x := s.hapc c
  (s.setHap c { x with slots := [], calib := x.calib.map (fun q => (q.1, false)), stale := 0, fresh := 0 }).settleBoost

/-- The HAP domain drops (R412): effects brake passively and end with it, pending effects are aborted, the boost stops. -/
def State.dropHaptics (s : State) : State :=
  ((List.range 8).foldl (fun t c =>
    let t := (t.brakePassively c).endPending c .aborted 0
    t.endEffect c (((t.hapc c).run.map HapRun.outcome).getD 0)) s).settleBoost

/-- VHAPT_LOSS (R399): VHAPT, measured as `vhapt` tenths of a volt, has fallen below 4.5 V. -/
def execVhaptLoss (vhapt : Nat) (s : State) : Host.Outcome State Fault Refusal :=
  .next (if s.domainUp 20 ∧ s.getF HAP_BOOST_STATUS HAP_BOOST_STATUS_VHAPT_UV = 0 then
      let s := (s.setF HAP_BOOST_STATUS HAP_BOOST_STATUS_VHAPT_UV 1).setF HAP_BOOST_STATUS HAP_BOOST_STATUS_VHAPT vhapt
      let s := s.settleBoost
      let s := (List.range 8).foldl (fun t c => (t.brakePassively c).endPending c .faulted 4) s
      s.postMgr 0x8804 1 (s.reg HAP_BOOST_STATUS) 0
    else s)

/-- VHAPT_RESTORED (R397): VHAPT is 4.5 V or above again, and the boost may start. -/
def execVhaptRestored (vhapt : Nat) (s : State) : Host.Outcome State Fault Refusal :=
  .next (if s.getF HAP_BOOST_STATUS HAP_BOOST_STATUS_VHAPT_UV = 1 then
      (s.setF HAP_BOOST_STATUS HAP_BOOST_STATUS_VHAPT_UV 0).setF HAP_BOOST_STATUS HAP_BOOST_STATUS_VHAPT vhapt
    else s)

/-! ### Commands -/

/-- Who may name a channel (R395): its owner, while it is in the normal world and the domain is up. -/
def hapPre (pk : Pkt) (s : State) (c : Nat) : List Chk :=
  [⟨s.hapOwner c = s.ownerOf pk.fn ∧ s.hapSecure c = false ∧ s.closing 1 c = false, .notPermitted, 1⟩, ⟨s.domainUp 20, .notPermitted, 3⟩]

/-- Is the channel without an effect, a pending effect and a calibration? -/
def State.hapIdle (s : State) (c : Nat) : Bool :=
  (s.hapc c).run.isNone && (s.hapc c).pend.isNone && (s.hapc c).calib.isNone

/-- HAP_SET_CHANNEL (0x0801, Table 14.2). -/
def cmdHapSetChannel : Cmd := ⟨0x0801, .tenants, 2, none,
  [⟨16, 1, .rng 0 7⟩, ⟨17, 1, .mask 3⟩, ⟨18, 1, .rng 0 2⟩, ⟨19, 1, .any⟩, ⟨20, 1, .any⟩, ⟨21, 1, .any⟩, ⟨22, 2, .any⟩, ⟨24, 8, .zero⟩]⟩

/-- The ranges that depend on FEEDBACK, the sensor bus and VHV_SET (R398, Table 14.2). -/
def hapSetDyn (s : State) (p : List Byte) : List (Nat × Bool) :=
  let mode := s.getF HAP_SENSOR_BUS HAP_SENSOR_BUS_MODE
  let accel := decide (par p 18 1 = 2)
  let n := par p 19 1
  [(3, !accel || decide (mode ≠ 0)),
   (4, if accel then (if mode = 2 then decide (8 ≤ n) && decide (n ≤ 0x77) else decide (n ≤ 7)) else decide (n = 0)),
   (5, decide (par p 20 1 ≤ (if bit (par p 17 1) 1 then 100 else 50)) &&
       decide (par p 20 1 + 10 ≤ s.getF HAP_BOOST_CTRL HAP_BOOST_CTRL_VHV_SET)),
   (6, accel || decide (par p 21 1 = 0)),
   (7, if accel then decide (1 ≤ par p 22 2) else decide (par p 22 2 = 0))]

/-- What HAP_SET_CHANNEL adds to the shared validation. -/
def hooksHapSetChannel (pk : Pkt) (s : State) : Hooks :=
  { dyn := hapSetDyn s, pre := fun p => hapPre pk s (par p 16 1)
    post := fun p => [⟨s.hapIdle (par p 16 1), .busy, 1⟩] }

/-- The effect of HAP_SET_CHANNEL once it is admitted. -/
def effHapSetChannel (pk : Pkt) (p : List Byte) (t : State) : State :=
  let c := par p 16 1
  let fl := par p 17 1
  let changed := decide (t.getF (HAP_CFG c) HAP_CFG_BRIDGED ≠ b2n (bit fl 1) ∨ t.getF (HAP_CFG c) HAP_CFG_FEEDBACK ≠ par p 18 1)
  let t := if changed then t.clearCal c else t
  let t := t.setReg (HAP_CFG c) (b2n (bit fl 0) * 2 ^ 31 + b2n (bit fl 1) * 2 ^ 30 + par p 18 1 * 2 ^ 28 + par p 19 1 * 2 ^ 16 +
    par p 21 1 * 2 ^ 8 + par p 20 1)
  let t := t.setReg (HAP_SCALE c) (par p 22 2)
  let t := if bit fl 0 then t else t.setF (HAP_STATUS c) HAP_STATUS_FAULT 0
  let t := if par p 18 1 = 2 then t
    else (t.setF (HAP_STATUS c) HAP_STATUS_SENSOR_STALE 0).setHap c { t.hapc c with stale := 0, fresh := 0 }
  ((t.showHap c).settleBoost).complete pk .ok

/-- HAP_SET_CHANNEL (R400). -/
def execHapSetChannel (pk : Pkt) (s : State) : Host.Outcome State Fault Refusal :=
  .next (runPkt cmdHapSetChannel pk s (hooksHapSetChannel pk s) (effHapSetChannel pk))

/-! ### Descriptors (R403, R404) -/

/-- FREQ, AMP and DURATION of a segment, whether it ramps. -/
def segFreq (d : List Byte) (i : Nat) : Nat := bits (leNat (slice d (16 + 6 * i) 2)) 9 0
def segRamp (d : List Byte) (i : Nat) : Bool := bit (leNat (slice d (16 + 6 * i) 2)) 10
def segAmp (d : List Byte) (i : Nat) : Nat := leNat (slice d (18 + 6 * i) 2)
def segDuration (d : List Byte) (i : Nat) : Nat := leNat (slice d (20 + 6 * i) 2)

/-- Flags, segment count and limits of a descriptor (Table 14.3). -/
def closedLoop (d : List Byte) : Bool := bit (leNat (slice d 1 1)) 0
def activeBrake (d : List Byte) : Bool := bit (leNat (slice d 1 1)) 1
def segCount (d : List Byte) : Nat := leNat (slice d 3 1)
def residualMg (d : List Byte) : Nat := leNat (slice d 4 2)
def brakeLimit (d : List Byte) : Nat := leNat (slice d 6 2)
def repeats (d : List Byte) : Nat := leNat (slice d 8 1)

/-- The binary logarithm of `n / 10` in units of 2⁻⁴⁰, for `n` from 10 to 1,000: the whole part, then 40 bits by squaring a
48-bit mantissa. -/
def log2Tenths (n : Nat) : Nat :=
  let w := ((List.range 7).filter (fun k => decide (10 * 2 ^ k ≤ n))).length - 1
  let m := n * 2 ^ 48 / (10 * 2 ^ w)
  ((List.range 40).foldl (fun (x : Nat × Nat) _ =>
    let q := x.2 * x.2 / 2 ^ 48
    if 2 ^ 49 ≤ q then (2 * x.1 + 1, q / 2) else (2 * x.1, q)) (w, m)).1

/-- The calibrated gain at a frequency as a numerator and a denominator (R402): 32 points spaced logarithmically from 10 Hz to
1 kHz, linear in log frequency between two of them. -/
def gainAt (gains : List Nat) (f : Nat) : Nat × Nat :=
  let top := log2Tenths 1000
  let x := 31 * log2Tenths f
  let i := x / top
  let a := gains.getD i 0
  let b := gains.getD (i + 1) a
  (a * (top - x % top) + b * (x % top), top)

/-- Is a segment within the drive and current limits (R404): AMP × 0.01 V, or AMP over the gain, at most VMAX; 2π × FREQ × C × V at
most 0.40 A, with the calibrated C or 2 µF? -/
def State.segFits (s : State) (c : Nat) (d : List Byte) (i : Nat) : Bool :=
  let cal := s.getF (HAP_STATUS c) HAP_STATUS_CALIBRATED = 1
  let g := if closedLoop d then gainAt (s.hapc c).gains (segFreq d i) else (100, 1)
  let cap := if cal then s.getF (HAP_CAL c) HAP_CAL_C_NF else 2000
  decide (segAmp d i * g.2 ≤ s.getF (HAP_CFG c) HAP_CFG_VMAX_V * g.1) &&
    decide (2 * 314159265358979323846 * segFreq d i * cap * segAmp d i * g.2 ≤ 4 * 10 ^ 28 * g.1)

/-- The offset of the first field of a descriptor that is out of range (Tables 14.3 and 14.4), then that of the first AMP that breaks
a limit (R404). -/
def State.badDescriptor (s : State) (c : Nat) (d : List Byte) : Option Nat :=
  let n := segCount d
  let fields : List (Nat × Bool) :=
    [(0, decide (leNat (slice d 0 1) = 1)), (1, decide (leNat (slice d 1 1) ≤ 3)), (2, decide (effectPriority d ≤ 3)),
     (3, decide (1 ≤ n) && decide (n ≤ 8)), (4, decide (1 ≤ residualMg d) && decide (residualMg d ≤ 1000)),
     (6, decide (16 ≤ brakeLimit d) && decide (brakeLimit d ≤ 1600)), (9, allZero (slice d 9 7))] ++
    (List.range 8).flatMap (fun i =>
      if i < n then
        [(16 + 6 * i, decide (bits (leNat (slice d (16 + 6 * i) 2)) 15 11 = 0) && decide (10 ≤ segFreq d i) && decide (segFreq d i ≤ 1000)),
         (18 + 6 * i, decide (1 ≤ segAmp d i) && decide (segAmp d i ≤ if closedLoop d then 20000 else 100 * s.getF (HAP_CFG c) HAP_CFG_VMAX_V)),
         (20 + 6 * i, decide (1 ≤ segDuration d i))]
      else [(16 + 6 * i, allZero (slice d (16 + 6 * i) 6))])
  match fields.find? (fun x => !x.2) with
  | some x => some x.1
  | none =>
    if closedLoop d && decide (s.getF (HAP_STATUS c) HAP_STATUS_CALIBRATED = 0) then none
    else ((List.range n).find? (fun i => !s.segFits c d i)).map (fun i => 18 + 6 * i)

/-- HAP_LOAD_EFFECT (0x0802, R404). -/
def cmdHapLoadEffect : Cmd := ⟨0x0802, .tenants, 2, none,
  [⟨16, 1, .rng 0 7⟩, ⟨17, 1, .rng 0 15⟩, ⟨18, 2, .zero⟩, ⟨20, 4, .read⟩, ⟨24, 4, .mult 8 0 0xFFFFFFFF⟩, ⟨28, 4, .zero⟩]⟩

/-- The descriptor a packet names. -/
def descOf (s : State) (p : List Byte) : List Byte := s.objBytes (handleIndex (par p 20 4)) (par p 24 4) 64

/-- `s` with the wake scanners bound to a slot holding its new contents (R411). -/
def State.copyToWake (s : State) (c slot : Nat) (d : List Byte) : State :=
  { s with tch := { s.tch with ctls := tabMap (fun _ => {}) s.tch.ctls (fun _ x =>
      if x.wake.hapCh = c ∧ x.wake.effect = slot then { x with wake := { x.wake with copy := d } } else x) } }

/-- What HAP_LOAD_EFFECT adds to the shared validation. -/
def hooksHapLoadEffect (pk : Pkt) (s : State) : Hooks :=
  { dyn := fun p => [(5, decide (par p 24 4 + 64 ≤ s.objSize (par p 20 4)))]
    failRes := fun p st d =>
      if st = .outOfRange ∧ d = 5 ∧ par p 24 4 % 8 = 0 ∧ par p 24 4 + 64 ≤ s.objSize (par p 20 4) then
        ((s.badDescriptor (par p 16 1) (descOf s p)).getD 0, 0) else (0, 0)
    pre := fun p => hapPre pk s (par p 16 1) ++ [usageChk s 4 (par p 20 4) 7] ++
      [⟨(s.badBeat? (handleIndex (par p 20 4)) (par p 24 4) 64).isNone, .integrityFail, 4⟩,
       ⟨(s.badDescriptor (par p 16 1) (descOf s p)).isNone, .outOfRange, 5⟩, ⟨closedLoop (descOf s p) = false ∨ s.getF (HAP_STATUS (par p 16 1)) HAP_STATUS_CALIBRATED = 1, .notPermitted, 5⟩]
    reads := fun p => [(par p 20 4, par p 24 4, 64)]
    looks := fun _ => [5] }

/-- The effect of HAP_LOAD_EFFECT once it is admitted. -/
def effHapLoadEffect (pk : Pkt) (p : List Byte) (t : State) : State :=
  let c := par p 16 1
  let d := descOf t p
  let x := t.hapc c
  (((t.noteRead (handleIndex (par p 20 4)) (par p 24 4) 64).setHap c { x with slots := tabSet (fun _ => []) x.slots (par p 17 1) d }).copyToWake c (par p 17 1) d).complete pk .ok

/-- HAP_LOAD_EFFECT (R404): the descriptor goes into the slot. -/
def execHapLoadEffect (pk : Pkt) (s : State) : Host.Outcome State Fault Refusal :=
  .next (runPkt cmdHapLoadEffect pk s (hooksHapLoadEffect pk s) (effHapLoadEffect pk))

/-! ### Requests (R405 to R408) -/

/-- A reflex trigger, or a wake gesture, that is dropped (R402, R408). -/
def State.dropTrigger (s : State) (c : Nat) : State := s.count (HAP_DROP_COUNT c)

/-- Would the request be refused: the pending effect is of higher priority (R408, step 5)? -/
def State.hapRefuses (s : State) (c p : Nat) : Bool := (s.hapc c).pend.any (fun q => decide (p < q.priority))

/-- A request that is not refused becomes the channel's pending effect, which starts at a loop boundary (R408): with matched phase,
at the next one, where it preempts an effect of lower priority. The effect it replaces is aborted. -/
def State.hapQueue (s : State) (c slot p : Nat) (src : Option Pkt) : State :=
  let x := s.hapc c
  let s := match x.pend with
    | some q => if q.src.isSome then s.endPending c .aborted 1 else s.dropTrigger c
    | none => s
  s.setHap c { s.hapc c with
    pend := some ⟨slot, p, src, s.now, x.run.any (fun r => decide (effectPriority r.desc < p))⟩ }

/-- The contents of a slot; empty if it has never been loaded. -/
def State.hapSlot (s : State) (c slot : Nat) : List Byte := tabGet (fun _ => []) (s.hapc c).slots slot

/-- Do the channels reload their microcode (R572)? -/
def State.hapReloads (s : State) : Bool := s.fw.switch.any (fun x => decide (x.2 = 3))

/-- A reflex or wake trigger for a slot (R384, R390, R402, R408, R572): dropped and counted while the channel calibrates or reloads, is faulted, or the
request is refused, or if the slot is empty. -/
def State.hapTrigger (s : State) (c slot : Nat) : State :=
  let d := s.hapSlot c slot
  if s.domainUp 20 = false ∨ s.hapSecure c = true ∨ s.closing 1 c = true then s
  else if (s.hapc c).calib.isSome ∨ s.hapReloads = true ∨ s.getF (HAP_STATUS c) HAP_STATUS_FAULT ≠ 0 ∨ d = [] ∨ s.hapRefuses c (effectPriority d) then s.dropTrigger c
  else s.hapQueue c slot (effectPriority d) none

/-- HAP_PLAY (0x0803, R406). -/
def cmdHapPlay : Cmd := ⟨0x0803, .tenants, 1, none, [⟨16, 1, .rng 0 7⟩, ⟨17, 1, .rng 0 15⟩, ⟨18, 6, .zero⟩]⟩

/-- What HAP_PLAY adds to the shared validation. -/
def hooksHapPlay (pk : Pkt) (s : State) : Hooks :=
  { more := fun p => [⟨s.hapSlot (par p 16 1) (par p 17 1) ≠ [], .outOfRange, 2⟩]
    pre := fun p => hapPre pk s (par p 16 1)
    post := fun p =>
      let c := par p 16 1
      [⟨s.getF (HAP_STATUS c) HAP_STATUS_FAULT = 0, .faulted, 1⟩, ⟨(s.hapc c).calib.isNone, .busy, 2⟩,
       ⟨(s.hapc c).pend.any (fun q => decide (q.src = some pk)) ∨ s.hapRefuses c (effectPriority (s.hapSlot c (par p 17 1))) = false, .busy, 3⟩] }

/-- The effect of HAP_PLAY once it is admitted. -/
def effHapPlay (pk : Pkt) (p : List Byte) (t : State) : State :=
  let c := par p 16 1
  if (t.hapc c).pend.any (fun q => decide (q.src = some pk)) ∨ (t.hapc c).run.any (fun r => decide (r.src = some pk)) then t
  else t.hapQueue c (par p 17 1) (effectPriority (t.hapSlot c (par p 17 1))) (some pk)

/-- HAP_PLAY (R406, R408): a request with this packet; it commits and replies in the loop periods. -/
def execHapPlay (pk : Pkt) (s : State) : Host.Outcome State Fault Refusal :=
  .next (runPkt cmdHapPlay pk s (hooksHapPlay pk s) (effHapPlay pk))

/-- HAP_STOP (0x0804, R407). -/
def cmdHapStop : Cmd := ⟨0x0804, .tenants, 1, none, [⟨16, 1, .rng 0 7⟩, ⟨17, 7, .zero⟩]⟩

/-- What HAP_STOP adds to the shared validation. -/
def hooksHapStop (pk : Pkt) (s : State) : Hooks :=
  { pre := fun p => hapPre pk s (par p 16 1) }

/-- The effect of HAP_STOP once it is admitted. -/
def effHapStop (pk : Pkt) (p : List Byte) (t : State) : State :=
  let c := par p 16 1
  let t := t.endPending c .aborted 2
  match (t.hapc c).run with
  | none => t.complete pk .ok
  | some r =>
    let x := t.hapc c
    if x.stops.contains pk then t
    else (t.commit pk).setHap c { x with run := some (if r.phase = 4 then r else { r with stop := true }), stops := x.stops ++ [pk] }

/-- HAP_STOP (R407): the pending effect goes; the running one brakes from the next loop boundary, and the reply waits for its end. -/
def execHapStop (pk : Pkt) (s : State) : Host.Outcome State Fault Refusal :=
  .next (runPkt cmdHapStop pk s (hooksHapStop pk s) (effHapStop pk))

/-- HAP_CALIBRATE (0x0805, R402). -/
def cmdHapCalibrate : Cmd := ⟨0x0805, .tenants, 1, none, [⟨16, 1, .rng 0 7⟩, ⟨17, 7, .zero⟩]⟩

/-- What HAP_CALIBRATE adds to the shared validation. -/
def hooksHapCalibrate (pk : Pkt) (s : State) : Hooks :=
  { pre := fun p => hapPre pk s (par p 16 1)
    post := fun p => [⟨s.hapStateCode (par p 16 1) = 1 ∧ s.hapIdle (par p 16 1) = true, .busy, 1⟩] }

/-- The effect of HAP_CALIBRATE once it is admitted. -/
def effHapCalibrate (pk : Pkt) (p : List Byte) (t : State) : State :=
  (t.commit pk).setHap (par p 16 1) { t.hapc (par p 16 1) with calib := some (pk, true) }

/-- HAP_CALIBRATE (R402): the sweep begins on an enabled, idle channel. -/
def execHapCalibrate (pk : Pkt) (s : State) : Host.Outcome State Fault Refusal :=
  .next (runPkt cmdHapCalibrate pk s (hooksHapCalibrate pk s) (effHapCalibrate pk))

/-- A pending HAP_PLAY is forgotten: it has timed out, or its packet is taken back. -/
def State.forgetHaptics (s : State) (pk : Pkt) : State :=
  (List.range 8).foldl (fun t c =>
    if (t.hapc c).pend.any (fun q => decide (q.src = some pk)) then t.setHap c { t.hapc c with pend := none } else t) s

/-! ### The wake drive (R411) -/

/-- The segments the wake drive plays of a descriptor, all repeats, cut at 100 ms: frequency, drive in 10 mV as a fraction limited to
`limit` volts, duration. -/
def wakeSegs (d : List Byte) (g0 limit : Nat) : List (Nat × Nat × Nat × Nat) :=
  let amp := fun (i : Nat) =>
    let a := if closedLoop d then (100 * segAmp d i, g0) else (segAmp d i, 1)
    if 100 * limit * a.2 < a.1 then (100 * limit, 1) else a
  let all := (List.range (repeats d + 1)).flatMap (fun _ => (List.range (segCount d)).map (fun i => (segFreq d i, (amp i).1, (amp i).2, segDuration d i)))
  (all.foldl (fun (x : List (Nat × Nat × Nat × Nat) × Nat) q =>
    if x.2 = 0 then x else (x.1 ++ [(q.1, q.2.1, q.2.2.1, min q.2.2.2 x.2)], x.2 - min q.2.2.2 x.2)) ([], 1600)).1

/-- The wake drive plays the copy of a slot on a channel while the HAP domain is down (R411), and counts the cycles its drive made
above 10 % of VMAX (R412); an uncalibrated channel plays no closed-loop effect. -/
def State.wakePlay (s : State) (c : Nat) (copy : List Byte) (cycles : Nat) : State :=
  if copy = [] ∨ closedLoop copy ∧ s.getF (HAP_STATUS c) HAP_STATUS_CALIBRATED = 0 then s
  else
    let limit := if s.getF (HAP_CFG c) HAP_CFG_BRIDGED = 1 then 50 else 25
    let s := { s with tch := { s.tch with drive := some ⟨c, s.now, wakeSegs copy (s.getF (HAP_GAIN c) HAP_GAIN_VALUE) limit⟩ } }
    (s.setReg64 (HAP_CYCLES_LO c) (s.reg64 (HAP_CYCLES_LO c) + cycles)).setHap c { s.hapc c with changed := true }

end Sys2Proof.Machine
end

