-- ==== Sys2Proof/Machine/Touch.lean ====
section
/-! DEFINITION. Touch sensing (R370 to R394): panels, nodes and baselines, contacts, regions and frame reports, the reflex path,
charger noise, the wake scanners. -/

namespace Sys2Proof.Machine

/-- A sense controller. -/
def State.tctl (s : State) (n : Nat) : TouchCtl := tabGet (fun _ => {}) s.tch.ctls n

/-- Is the controller in the secure world (R350)? -/
def State.tchSecure (s : State) (n : Nat) : Bool := (s.getF STRG_BOUND STRG_BOUND_TCH).testBit n

/-- Does the controller scan frames: its domain up, no entry to a sleep state in progress (R456), no safe state (R525), and a panel set (R389)? -/
def State.tchRuns (s : State) (n : Nat) : Bool :=
  s.domainUp 19 && !s.entering && !s.safe && !s.fw.switch.any (fun x => decide (x.2 = 2)) && ((s.tctl n).panel.isSome || (s.tctl n).next.isSome)

/-- TCHn_STATUS shows the controller (Table 13.8); NOISE_MODE and FRESH are set where they change. -/
def State.showTouch (s : State) (n : Nat) : State :=
  let c := s.tctl n
  let st := if s.tchSecure n then 3 else if ¬ s.tchRuns n then 0 else if c.next.isSome then 2 else 1
  let s := s.setF (TCH_STATUS n) TCH_STATUS_STATE st
  let s := s.setF (TCH_STATUS n) TCH_STATUS_HOP (c.hop.getD 0)
  let s := s.setF (TCH_STATUS n) TCH_STATUS_CONTACTS c.contacts.length
  let s := s.setF (TCH_STATUS n) TCH_STATUS_SATURATED (min 255 (c.nodes.filter Node.saturated).length)
  s.setF (TCH_STATUS n) TCH_STATUS_SUSPECT (c.nodes.filter Node.suspect).length

/-- `s` with a controller changed. -/
def State.setTctl (s : State) (n : Nat) (c : TouchCtl) : State :=
  ({ s with tch := { s.tch with ctls := tabSet (fun _ => {}) s.tch.ctls n c } }).showTouch n

/-- Is the controller in noise mode (R385)? -/
def State.noiseMode (s : State) (n : Nat) : Bool := s.getF (TCH_STATUS n) TCH_STATUS_NOISE_MODE = 1

/-- The panel that will be in effect from the next frame boundary. -/
def TouchCtl.coming (c : TouchCtl) : Option Panel := c.next.orElse (fun _ => c.panel)

/-- Rows, nodes and mapped pins of a panel. -/
def panelRows (p : Panel) : Nat := max p.ntx 1
def panelNodes (p : Panel) : Nat := panelRows p * p.nrx
def panelPins (p : Panel) : Nat := (p.map.filter (fun m => decide (m ≠ 0xFF))).length

/-! ### TCH_SET_PANEL (R371 to R374) -/

/-- A command that names a controller in the secure world (R370). -/
def tchPre (s : State) (n : Nat) : List Chk := [⟨s.tchSecure n = false ∧ s.closing 0 n = false, .notPermitted, 1⟩]

/-- The panel a block holds (Table 13.2). -/
def panelOf (p : List Byte) : Panel where
  block := slice p 0 144
  flags := par p 17 1
  ntx := par p 18 1
  nrx := par p 19 1
  rate := par p 20 1
  integ := par p 22 2
  txKhz := par p 24 2
  touchTh := par p 26 2
  releaseTh := par p 28 2
  noiseGain := par p 30 1
  shift := par p 31 1
  noiseEnter := par p 32 2
  noiseExit := par p 34 2
  hops := (List.range 8).map (fun i => par p (36 + 2 * i) 2)
  map := (List.range 96).map (fun i => par p (64 + i) 1)

/-- The first pin whose role breaks a rule of R372 or Table 13.3, or, where an index has no pin, the number of pins. -/
def badPin (q : Panel) : Option Nat :=
  let legal := fun (i m : Nat) =>
    decide (m = 0xFF) || ((decide (m < q.nrx) || (decide (0x80 ≤ m) && decide (m < 0x80 + q.ntx))) && !((q.map.take i).contains m))
  match (List.range 96).find? (fun i => !legal i (q.map.getD i 0xFF)) with
  | some i => some i
  | none => if panelPins q = q.nrx + q.ntx then none else some 96

/-- Are the values distinct? -/
def allDistinct : List Nat → Bool
  | [] => true
  | x :: r => !r.contains x && allDistinct r

/-- The steps of a frame (R373). -/
def frameSteps (q : Panel) : Nat := b2n (bit q.flags 2) + q.ntx + if bit q.flags 1 then ceilDiv (panelPins q) 56 else 0

/-- TCH_SET_PANEL (0x0701, Table 13.2). -/
def cmdTchSetPanel : Cmd := ⟨0x0701, .manager, 0, some (144, 144),
  [⟨16, 1, .rng 0 3⟩, ⟨17, 1, .mask 7⟩, ⟨18, 1, .rng 0 40⟩, ⟨19, 1, .rng 1 96⟩, ⟨20, 1, .rng 10 240⟩, ⟨21, 1, .zero⟩, ⟨22, 2, .rng 31 500⟩,
   ⟨24, 2, .rng 100 500⟩, ⟨26, 2, .rng 16 4095⟩, ⟨28, 2, .any⟩, ⟨30, 1, .rng 16 64⟩, ⟨31, 1, .rng 4 12⟩, ⟨32, 2, .rng 1 4095⟩,
   ⟨34, 2, .any⟩, ⟨36, 16, .any⟩, ⟨52, 12, .zero⟩, ⟨64, 96, .any⟩]⟩

/-- The ranges that depend on other fields (Table 13.2, R373). -/
def panelDyn (p : List Byte) : List (Nat × Bool) :=
  let q := panelOf p
  let mutual_ := bit q.flags 0
  [(2, mutual_ || bit q.flags 1),
   (3, if mutual_ then decide (1 ≤ q.ntx) else decide (q.ntx = 0)),
   (4, !mutual_ || (decide (q.nrx ≤ 56) && decide (q.ntx + q.nrx ≤ 96))),
   (10, decide (8 ≤ q.releaseTh) && decide (q.releaseTh + 1 ≤ q.touchTh)),
   (14, decide (1 ≤ q.noiseExit) && decide (q.noiseExit + 1 ≤ q.noiseEnter)),
   (15, if bit q.flags 2 then allDistinct q.hops && q.hops.all (fun h => decide (100 ≤ h) && decide (h ≤ 500))
        else q.hops.all (fun h => decide (h = 0)))]

/-- What TCH_SET_PANEL adds to the shared validation. -/
def hooksTchSetPanel (s : State) : Hooks :=
  { dyn := panelDyn
    more := fun p =>
      let q := panelOf p
      [⟨(badPin q).isNone, .outOfRange, 17⟩, ⟨frameSteps q * (q.integ + 4) ≤ 950000 / q.rate, .outOfRange, 5⟩]
    failRes := fun p st d => if st = .outOfRange ∧ d = 17 then ((badPin (panelOf p)).getD 0, 0) else (0, 0)
    pre := fun p => tchPre s (par p 16 1) ++ [⟨s.domainUp 19, .notPermitted, 3⟩] }

/-- The effect of TCH_SET_PANEL once it is admitted. -/
def effTchSetPanel (pk : Pkt) (p : List Byte) (t : State) : State :=
  (t.setTctl (par p 16 1) { t.tctl (par p 16 1) with next := some (panelOf p) }).complete pk .ok

/-- TCH_SET_PANEL (R371 to R374): commits at once; the panel takes effect at the next frame boundary. -/
def execTchSetPanel (pk : Pkt) (s : State) : Host.Outcome State Fault Refusal :=
  .next (runPkt cmdTchSetPanel pk s (hooksTchSetPanel s) (effTchSetPanel pk))

/-! ### Regions (R382) -/

/-- The key of a region. -/
def regionKey (owner r : Nat) : Nat := 256 * owner + r

/-- A region. -/
def State.tregion (s : State) (key : Nat) : Region := tabGet (fun _ => {}) s.tch.regions key

/-- `s` with a region changed. -/
def State.setRegion (s : State) (key : Nat) (x : Region) : State :=
  { s with tch := { s.tch with regions := tabSet (fun _ => {}) s.tch.regions key x } }

/-- The settings a region will have once everything waiting has taken effect. -/
def regionComing (x : Region) : Option RegionCfg :=
  match x.pend.getLast? with
  | some q => q.1
  | none => x.cfg

/-- Regions in use on a controller other than `key`, as they will stand. -/
def State.regionsOn (s : State) (n key : Nat) : List RegionCfg :=
  (s.tch.regions.filter (fun q => decide (q.1 ≠ key))).filterMap (fun q => (regionComing q.2).filter (fun c => decide (c.ctl = n)))

/-- Enabled regions of an owner other than `key`. -/
def State.regionsUsed (s : State) (owner key : Nat) : Nat :=
  (s.tch.regions.filter (fun q => decide (q.1 / 256 = owner) && decide (q.1 ≠ key) && (regionComing q.2).isSome)).length

/-- Do two rectangles meet? -/
def regionsMeet (a b : RegionCfg) : Bool :=
  decide (a.x0 < b.x1) && decide (b.x0 < a.x1) && decide (a.y0 < b.y1) && decide (b.y0 < a.y1)

/-- The settings of a packet (Table 13.4): none where ENABLE is clear; STUCK_S 0 stands for 1,800. -/
def regionOf (p : List Byte) : Option RegionCfg :=
  if bit (par p 18 1) 0 then
    some { ctl := par p 17 1, flags := par p 18 1, vector := par p 19 1, x0 := par p 20 2, y0 := par p 22 2, x1 := par p 24 2,
           y1 := par p 26 2, stuck := if par p 28 4 = 0 then 1800 else par p 28 4, ring := par p 32 8, depth := par p 40 1,
           hapCh := par p 41 1, effect := par p 42 1 }
  else none

/-- Does the region fire effects? -/
def hasReflex (c : RegionCfg) : Bool := bit c.flags 1 || bit c.flags 2

/-- TCH_SET_REGION (0x0702, Table 13.4). -/
def cmdTchSetRegion : Cmd := ⟨0x0702, .tenants, 4, none,
  [⟨16, 1, .any⟩, ⟨17, 1, .rng 0 3⟩, ⟨18, 1, .mask 7⟩, ⟨19, 1, .any⟩, ⟨20, 2, .any⟩, ⟨22, 2, .any⟩, ⟨24, 2, .any⟩, ⟨26, 2, .any⟩,
   ⟨28, 4, .any⟩, ⟨32, 8, .any⟩, ⟨40, 1, .any⟩, ⟨41, 1, .any⟩, ⟨42, 1, .any⟩, ⟨43, 5, .zero⟩]⟩

/-- The ranges of Table 13.4; with ENABLE clear, fields 4 to 13 are zero. -/
def regionDyn (s : State) (p : List Byte) : List (Nat × Bool) :=
  let q := (s.tctl (par p 17 1)).coming
  let nrx := (q.map Panel.nrx).getD 0
  let ntx := (q.map Panel.ntx).getD 0
  match regionOf p with
  | none =>
    [(4, decide (par p 19 1 = 0)), (5, decide (par p 20 2 = 0)), (6, decide (par p 22 2 = 0)), (7, decide (par p 24 2 = 0)),
     (8, decide (par p 26 2 = 0)), (9, decide (par p 28 4 = 0)), (10, decide (par p 32 8 = 0)), (11, decide (par p 40 1 = 0)),
     (12, decide (par p 41 1 = 0)), (13, decide (par p 42 1 = 0))]
  | some c =>
    [(4, decide (2 ≤ c.vector) && decide (c.vector ≤ 31)),
     (5, q.isSome && decide (c.x0 ≤ 64 * (nrx - 1))), (6, q.isSome && decide (c.y0 ≤ 64 * (ntx - 1))),
     (7, decide (c.x0 < c.x1) && decide (c.x1 ≤ 64 * nrx)), (8, decide (c.y0 < c.y1) && decide (c.y1 ≤ 64 * max ntx 1)),
     (9, (decide (10 ≤ c.stuck) && decide (c.stuck ≤ 86400)) || decide (c.stuck = 0xFFFFFFFF)),
     (10, decide (c.ring % 4096 = 0)), (11, decide (4 ≤ c.depth) && decide (c.depth ≤ 12)),
     (12, if hasReflex c then decide (c.hapCh ≤ 7) else decide (c.hapCh = 0)),
     (13, if hasReflex c then decide (c.effect ≤ 15) else decide (c.effect = 0))]

/-- Does an owner own a haptic channel in the normal world? -/
def State.ownsHap (s : State) (owner c : Nat) : Bool := decide (s.hapOwner c = owner) && !s.hapSecure c && !s.closing 1 c

/-- The resources a region takes (R382). -/
def regionPost (s : State) (owner : Nat) (p : List Byte) : List Chk :=
  match regionOf p with
  | none => []
  | some c =>
    let key := regionKey owner (par p 16 1)
    [⟨s.regionsUsed owner key + 1 ≤ s.limitOf owner 256 Grant.touch, .noResource, 1⟩,
     ⟨(s.regionsOn c.ctl key).length < 64, .noResource, 2⟩,
     ⟨(s.regionsOn c.ctl key).all (fun d => !regionsMeet c d), .noResource, 5⟩]

/-- What TCH_SET_REGION adds to the shared validation. -/
def hooksTchSetRegion (pk : Pkt) (s : State) : Hooks :=
  let owner := s.ownerOf pk.fn
  { dyn := regionDyn s
    pre := fun p => tchPre s (par p 17 1) ++
      [⟨(regionOf p).all (fun c => !hasReflex c || s.ownsHap owner c.hapCh), .notPermitted, 12⟩]
    post := fun p =>
      if (s.tregion (regionKey owner (par p 16 1))).pend.any (fun q => decide (q.2.2 = pk)) then [] else regionPost s owner p }

/-- The effect of TCH_SET_REGION once it is admitted. -/
def effTchSetRegion (pk : Pkt) (p : List Byte) (t : State) : State :=
  let owner := t.ownerOf pk.fn
  let key := regionKey owner (par p 16 1)
  let x := t.tregion key
  if x.pend.any (fun q => decide (q.2.2 = pk)) then t
  else t.setRegion key { x with pend := x.pend ++ [(regionOf p, par p 17 1, pk)] }

/-- TCH_SET_REGION (R382): the settings wait for the controller's next frame boundary, where the reply is written. -/
def execTchSetRegion (pk : Pkt) (s : State) : Host.Outcome State Fault Refusal :=
  .next (runPkt cmdTchSetRegion pk s (hooksTchSetRegion pk s) (effTchSetRegion pk))

/-- Contacts of a region no longer belong to it. -/
def State.orphanContacts (s : State) (n : Nat) (owner r : Nat) : State :=
  let c := s.tctl n
  s.setTctl n { c with contacts := c.contacts.map (fun (x : Contact) => if x.region = some (owner, r) then { x with region := none } else x) }

/-- A region is freed: its registers show it disabled, its contacts are reported to nobody. -/
def State.freeRegion (s : State) (key : Nat) : State :=
  let x := s.tregion key
  let s := match x.cfg with
    | some c => s.orphanContacts c.ctl (key / 256) (key % 256)
    | none => s
  (s.setRegion key { x with cfg := none, had := false }).setReg (TCH_RGN_STATUS (key / 256) (key % 256))
    (setBits (setBits (s.reg (TCH_RGN_STATUS (key / 256) (key % 256))) 31 31 0) 27 24 0)

/-- Settings take effect at a frame boundary (R382): a region that is enabled or moved starts its ring at 0, and contacts already
down are not reported to it; a region that is enabled counts its reports anew. -/
def State.applyRegion (s : State) (key : Nat) (q : Option RegionCfg × Nat × Pkt) : State :=
  let owner := key / 256
  let r := key % 256
  let x := s.tregion key
  let s := s.setRegion key { x with pend := x.pend.filter (fun y => decide (y.2.2 ≠ q.2.2)) }
  let s := match q.1 with
    | none => s.freeRegion key
    | some c =>
      let same := x.cfg.any (fun (d : RegionCfg) => decide (d.ctl = c.ctl ∧ d.x0 = c.x0 ∧ d.x1 = c.x1 ∧ d.y0 = c.y0 ∧ d.y1 = c.y1))
      let s := if same then s else
        let s := if x.cfg.isSome then s.freeRegion key else s
        let y := s.tregion key
        ((s.setRegion key { y with seq := if x.cfg.isSome then y.seq else 0, dropped := false, had := false }).setReg (TCH_RGN_HEAD owner r) 0).setReg
          (TCH_RGN_TAIL owner r) 0
      (s.setRegion key { s.tregion key with cfg := some c }).setF (TCH_RGN_STATUS owner r) TCH_RGN_STATUS_ENABLED 1
  s.complete q.2.2 .ok

/-- Every region change that waits for a controller takes effect, in order. -/
def State.applyRegions (s : State) (n : Nat) : State :=
  (s.tch.regions.flatMap (fun x => (x.2.pend.filter (fun q => decide (q.2.1 = n))).map (fun q => (x.1, q)))).foldl
    (fun t x => t.applyRegion x.1 x.2) s

/-- An owner's regions are disabled (Table 3.8). -/
def State.dropRegions (s : State) (owner : Nat) : State :=
  ((s.tch.regions.filter (fun x => decide (x.1 / 256 = owner))).map Prod.fst).foldl (fun t k => t.freeRegion k) s

/-! ### TOUCH_FRAME_START (R373, R374) -/

/-- TOUCH_FRAME_START (R373): a frame begins at its boundary, where a new panel and new regions take effect; a new panel ends every
contact (R374). -/
def execTouchFrameStart (n : Nat) (s : State) : Host.Outcome State Fault Refusal :=
  .next (if n < 4 ∧ s.tchRuns n ∧ ¬ s.tchSecure n ∧ ¬ s.closing 0 n ∧ ¬ (s.tctl n).scanning then
      let c := s.tctl n
      let c := match c.next with
        | none => c
        | some q =>
          let changed := c.panel.any (fun (o : Panel) => decide (o.ntx ≠ q.ntx ∨ o.nrx ≠ q.nrx ∨ o.map ≠ q.map))
          { c with panel := some q, next := none, contacts := c.contacts.map (fun (x : Contact) => { x with lost := true }),
                   restart := c.restart || changed, discarded := c.discarded || changed, candidates := [] }
      (s.setTctl n { c with scanning := true }).applyRegions n
    else s)

/-! ### TOUCH_FRAME_END (R375 to R386) -/

/-- The row and the column of a node. -/
def nodeRow (q : Panel) (i : Nat) : Nat := i / q.nrx
def nodeCol (q : Panel) (i : Nat) : Nat := i % q.nrx

/-- The nodes of the 3 × 3 square around a node. -/
def square (q : Panel) (i : Nat) : List Nat :=
  (List.range (panelNodes q)).filter (fun j =>
    decide (nodeRow q j ≤ nodeRow q i + 1 ∧ nodeRow q i ≤ nodeRow q j + 1 ∧ nodeCol q j ≤ nodeCol q i + 1 ∧ nodeCol q i ≤ nodeCol q j + 1))

/-- A whole count from 1/256 counts; a fraction goes up or down as the device does it, which is not given. -/
def wholeCount (d : Int) : Int := if d % 256 = 0 then d / 256 else if Config.tieUp d.natAbs then d / 256 + 1 else d / 256

/-- The threshold in 1/4,096 count: scaled by NOISE_GAIN / 16 in noise mode (R379). -/
def scaled (q : Panel) (noise : Bool) (th : Nat) : Int := ((th * (if noise then q.noiseGain else 16) * 256 : Nat) : Int)

/-- A peak: its node, its delta in 1/256 count, its position, its area. -/
structure Peak where
  node : Nat
  delta : Int
  x : Nat
  y : Nat
  area : Nat
  deriving DecidableEq, Repr

/-- The nodes above RELEASE_TH that hang together with a node. -/
def areaOf (q : Panel) (above : List Nat) : Nat → List Nat → List Nat
  | 0, l => l
  | k + 1, l => areaOf q above k (above.filter (fun j => l.contains j || l.any (fun i => (square q i).contains j)))

/-- The peak at a node (R380): the centroid of the positive deltas around it. -/
def peakAt (q : Panel) (d : List Int) (i : Nat) : Peak :=
  let sq := (square q i).map (fun j => (nodeCol q j, nodeRow q j, (d.getD j 0).toNat))
  let w := (sq.map (fun x => x.2.2)).foldl (· + ·) 0
  let above := (List.range (panelNodes q)).filter (fun j => decide ((q.releaseTh : Int) * 256 < d.getD j 0))
  { node := i, delta := d.getD i 0
    x := roundDiv (64 * (sq.map (fun x => x.1 * x.2.2)).foldl (· + ·) 0) w
    y := roundDiv (64 * (sq.map (fun x => x.2.1 * x.2.2)).foldl (· + ·) 0) w
    area := (areaOf q above above.length (above.filter (fun j => decide (j = i)))).length }

/-- The local peaks whose delta reaches the release threshold, in node order; of equal neighbours the first is the peak. -/
def peaksOf (q : Panel) (noise : Bool) (d : List Int) : List Peak :=
  ((List.range (panelNodes q)).filter (fun i =>
    decide (scaled q noise q.releaseTh ≤ 16 * d.getD i 0) &&
      (square q i).all (fun j => decide (d.getD j 0 < d.getD i 0) || (decide (d.getD j 0 = d.getD i 0) && decide (i ≤ j))))).map (peakAt q d)

/-- The square of the distance between two positions. -/
def distance2 (a b : Nat × Nat) : Nat :=
  (((a.1 : Int) - b.1) * ((a.1 : Int) - b.1) + ((a.2 : Int) - b.2) * ((a.2 : Int) - b.2)).toNat

/-- Peaks within 256 position units continue contacts, nearest first (R379): pairs of a contact's ID and a peak's node. -/
def matchPeaks (contacts : List Contact) (peaks : List Peak) : List (Nat × Nat) :=
  let pairs := contacts.flatMap (fun (c : Contact) => peaks.filterMap (fun (k : Peak) =>
    if distance2 (c.x, c.y) (k.x, k.y) ≤ 65536 then some (distance2 (c.x, c.y) (k.x, k.y), c.id, k.node) else none))
  (sortBy (fun (x : Nat × Nat × Nat) => x.1) pairs).foldl (fun (acc : List (Nat × Nat)) x =>
    if acc.any (fun y => decide (y.1 = x.2.1) || decide (y.2 = x.2.2)) then acc else acc ++ [(x.2.1, x.2.2)]) []

/-- What a contact does in a frame: 1 DOWN, 2 MOVE, 3 UP. -/
structure TouchEvent where
  code : Nat
  contact : Contact
  deriving DecidableEq, Repr

/-- The region a position lies in (R383). -/
def State.regionAt (s : State) (n x y : Nat) : Option (Nat × Nat) :=
  (s.tch.regions.find? (fun q => q.2.cfg.any (fun c => decide (c.ctl = n ∧ c.x0 ≤ x ∧ x < c.x1 ∧ c.y0 ≤ y ∧ y < c.y1)))).map
    (fun q => (q.1 / 256, q.1 % 256))

/-- Contacts of a frame (R379): those lost end; the others continue at their nearest peak or end; new ones begin at the peaks left
above the touch threshold, the strongest first, with the lowest free IDs, in noise mode only where the last frame had one too. The
flag says that peaks were left out. -/
def State.contactsOf (s : State) (n : Nat) (c : TouchCtl) (q : Panel) (noise : Bool) (peaks : List Peak) (nodes : List Node) :
    List TouchEvent × Bool :=
  let live := c.contacts.filter (fun (x : Contact) => !x.lost)
  let m := matchPeaks live peaks
  let suspectAt := fun (i : Nat) => (nodes.getD i {}).suspect
  let old := c.contacts.map (fun (x : Contact) =>
    match (m.find? (fun y => decide (y.1 = x.id))).bind (fun y => peaks.find? (fun (k : Peak) => decide (k.node = y.2))) with
    | some k => if x.lost then TouchEvent.mk 3 x else
        TouchEvent.mk 2 { x with x := k.x, y := k.y, signal := (wholeCount k.delta).toNat, area := k.area, node := k.node, suspect := suspectAt k.node }
    | none => TouchEvent.mk 3 x)
  let kept := old.filter (fun e => decide (e.code = 2))
  let fresh := sortBy (fun (k : Peak) => 2 ^ 32 - k.delta.toNat) (peaks.filter (fun (k : Peak) =>
    !(m.any (fun y => decide (y.2 = k.node))) && decide (scaled q noise q.touchTh < 16 * k.delta) &&
      (!noise || c.candidates.any (fun y => decide (distance2 y (k.x, k.y) ≤ 65536)))))
  let ids := (List.range 16).filter (fun i => !(kept.any (fun e => decide (e.contact.id = i))))
  let new := ((fresh.take (16 - kept.length)).zip ids).map (fun z =>
    TouchEvent.mk 1 { id := z.2, region := s.regionAt n z.1.x z.1.y, x := z.1.x, y := z.1.y, signal := (wholeCount z.1.delta).toNat,
                      area := z.1.area, node := z.1.node, since := s.now, suspect := suspectAt z.1.node, stuck := false, lost := false })
  (old ++ new, decide (16 < kept.length + fresh.length))

/-- The 12 bytes of a contact in a report (Table 13.5). -/
def eventBytes (now : Nat) (cfg : RegionCfg) (e : TouchEvent) : List Byte :=
  let x := e.contact
  let outside := decide (x.x < cfg.x0 ∨ cfg.x1 ≤ x.x ∨ x.y < cfg.y0 ∨ cfg.y1 ≤ x.y)
  leBytes 1 x.id ++ leBytes 1 (e.code + 4 * b2n x.suspect + 8 * b2n x.stuck + 16 * b2n outside + 32 * b2n (x.lost && decide (e.code = 3))) ++
    leBytes 2 x.x ++ leBytes 2 x.y ++ leBytes 2 x.signal ++ leBytes 2 x.area ++ leBytes 2 (min 65535 ((now - x.since) / 10 ^ 9))

/-- A frame report (Table 13.5): UPs first, then the highest SIGNAL, at most 8. -/
def State.reportBytes (s : State) (n : Nat) (cfg : RegionCfg) (x : Region) (es : List TouchEvent) (flags : Nat) : List Byte :=
  let sorted := sortBy (fun (e : TouchEvent) => (if e.code = 3 then 0 else 2 ^ 16) + (65535 - e.contact.signal)) es
  let some8 := sorted.take 8
  let flags := flags ||| (if 8 < es.length then 4 else 0) ||| (if x.dropped then 8 else 0)
  let body := leBytes 4 (x.seq + 1) ++ leBytes 8 s.now ++ leBytes 2 (s.reg (TCH_FRAME n)) ++ leBytes 1 some8.length ++
    leBytes 1 (if s.noiseMode n then (s.tctl n).hop.getD 0 else 0xFF) ++ leBytes 2 flags ++ leBytes 2 (s.reg (TCH_NOISE n)) ++
    leBytes 12 0 ++ some8.flatMap (eventBytes s.now cfg)
  slice body 0 128

/-- Does an owner get no reports: frozen or contained (Tables 3.22 and 19.4), or its link down? -/
def State.reportsHeld (s : State) (owner : Nat) : Bool :=
  s.heldStill owner || !s.linkUp (s.fnOf owner)

/-- The report of a region for a frame (R383): dropped and counted when the ring is full or its owner gets none. -/
def State.reportRegion (s : State) (n key flags : Nat) (es : List TouchEvent) : State :=
  let x := s.tregion key
  let owner := key / 256
  let r := key % 256
  match x.cfg with
  | none => s
  | some cfg =>
    let mine := es.filter (fun e => decide (e.contact.region = some (owner, r)))
    if cfg.ctl ≠ n ∨ (mine.isEmpty ∧ ¬ x.had) then s
    else
      let left := (mine.filter (fun e => decide (e.code ≠ 3))).length
      let s := s.setF (TCH_RGN_STATUS owner r) TCH_RGN_STATUS_CONTACTS left
      let tail := s.reg (TCH_RGN_TAIL owner r)
      let full := decide (2 ^ cfg.depth ≤ (BitVec.ofNat 32 tail - BitVec.ofNat 32 (s.reg (TCH_RGN_HEAD owner r))).toNat)
      let y := { x with seq := x.seq + 1, had := decide (left ≠ 0) }
      if full || s.reportsHeld owner then
        ((s.setRegion key { y with dropped := true }).countF (TCH_RGN_STATUS owner r) TCH_RGN_STATUS_DROPS).count (TCH_DROP_COUNT n)
      else
        let s := s.emit (.buffer (s.fnOf owner) (cfg.ring + tail % 2 ^ cfg.depth * 128) (s.reportBytes n cfg x mine flags))
        let s := (s.setRegion key { y with dropped := false }).setReg (TCH_RGN_TAIL owner r) (tail + 1)
        s.emit (.msix (s.fnOf owner) cfg.vector)

/-- The reflex path (R384): each region with a DOWN, or an UP that is not LOST, starts its effect once. -/
def State.fireReflex (s : State) (n key : Nat) (es : List TouchEvent) : State :=
  match (s.tregion key).cfg with
  | some cfg =>
    let fires := es.any (fun e => decide (e.contact.region = some (key / 256, key % 256)) &&
      ((bit cfg.flags 1 && decide (e.code = 1)) || (bit cfg.flags 2 && decide (e.code = 3) && !e.contact.lost)))
    if cfg.ctl = n ∧ fires ∧ s.ownsHap (key / 256) cfg.hapCh then s.hapTrigger cfg.hapCh cfg.effect else s
  | none => s

/-- The saved baselines of a controller, if they match its panel (R377, R378). -/
def State.savedBaselines (s : State) (n : Nat) (c : TouchCtl) (q : Panel) : Option (List Nat) :=
  if c.discarded then none
  else
    match (s.ledg.live.filter (fun r => decide (r.typ = 5) && r.valid && decide (leNat (r.payload.take 1) = n))).getLast? with
    | some r =>
      if slice r.payload 8 48 = slice (Config.sha384 q.block) 0 48 then
        some ((List.range (panelNodes q)).map (fun i => leNat (slice r.payload (56 + 2 * i) 2)))
      else none
    | none => none

/-- The nodes at the first frame (R378): a node far below its saved baseline is SUSPECT and keeps it, any other takes its raw count. -/
def firstNodes (now : Nat) (q : Panel) (raw : List Nat) (saved : Option (List Nat)) : List Node :=
  (List.range (panelNodes q)).map (fun i =>
    let v := raw.getD i 0
    match saved with
    | some l =>
      if q.touchTh < l.getD i 0 - v then { base := 256 * l.getD i 0, suspect := true, near := v, since := now } else { base := 256 * v }
    | none => { base := 256 * v })

/-- The deltas of a frame in 1/256 count; a saturated node has none (R375). -/
def deltasOf (nodes : List Node) (raw : List Nat) : List Int :=
  (nodes.zip raw).map (fun x => if x.1.saturated then 0 else (x.1.base : Int) - 256 * x.2)

/-- Is a node frozen: its delta, or that of one of its eight neighbours, above RELEASE_TH (R376)? -/
def nodeFrozen (q : Panel) (d : List Int) (i : Nat) : Bool :=
  (square q i).any (fun j => decide ((q.releaseTh : Int) * 256 < d.getD j 0))

/-- One step of tracking, rounded toward zero, in 1/256 count (R376). -/
def trackBase (base raw shift : Nat) : Nat := ((base : Int) + Int.tdiv (256 * (raw : Int) - base) (2 ^ shift)).toNat

/-- Raw counts stay within RELEASE_TH of one value (R378). -/
def watchNode (now th raw : Nat) (x : Node) : Node :=
  if x.suspect ∧ (th < raw - x.near ∨ th < x.near - raw) then { x with near := raw, since := now } else x

/-- What a frame does to a node after the contacts (R376, R378, R385): a SUSPECT node that is lifted takes the raw count; the average
after a change of frequency becomes the baseline of a node that is not touched; otherwise a node that is free tracks. -/
def settleNode (now : Nat) (q : Panel) (average : Nat) (d : List Int) (i raw : Nat) (x : Node) : Node :=
  if x.suspect then
    if d.getD i 0 < (q.releaseTh : Int) * 256 ∧ ¬ x.saturated then { x with suspect := false, base := 256 * raw } else watchNode now q.releaseTh raw x
  else if x.saturated ∨ nodeFrozen q d i then { x with sum := x.sum + raw }
  else if average = 1 then { x with base := 64 * (x.sum + raw), sum := 0 }
  else if 1 < average then { x with sum := x.sum + raw }
  else { x with base := trackBase x.base raw q.shift }

/-- Is a node inside a region's rectangle, or adjacent to one that is (R386)? -/
def State.recalNodes (s : State) (q : Panel) (region : Option (Nat × Nat)) : List Nat :=
  let all := List.range (panelNodes q)
  match region with
  | none => all
  | some r =>
    match (s.tregion (regionKey r.1 r.2)).cfg with
    | some c =>
      let inside := all.filter (fun i => decide (c.x0 ≤ 64 * nodeCol q i ∧ 64 * nodeCol q i < c.x1 ∧ c.y0 ≤ 64 * nodeRow q i ∧ 64 * nodeRow q i < c.y1))
      all.filter (fun i => (square q i).any (fun j => inside.contains j))
    | none => []

/-- The values a capture writes (R387): raw, baseline, delta by node, self counts by mapped pin. -/
def captureValues (q : Panel) (kind : Nat) (nodes : List Node) (raw selfRaw : List Nat) : List Nat :=
  if kind = 0 then (List.range (panelNodes q)).map (fun i => raw.getD i 0)
  else if kind = 1 then nodes.map (fun (x : Node) => (wholeCount x.base).toNat)
  else if kind = 2 then (nodes.zip raw).map (fun x => unsigned 16 (wholeCount ((x.1.base : Int) - 256 * x.2)))
  else (List.range (panelPins q)).map (fun i => selfRaw.getD i 0)

/-- Noise mode (R385), between frames: entry after 3 loud frames, exit after 64 quiet ones; the drive goes to the quietest hop measured
until all have been, then leaves the one in use when it is loud on 3 frames. -/
def State.noiseStep (s : State) (n : Nat) (q : Panel) (listen : Nat) : State :=
  let c := s.tctl n
  if ¬ bit q.flags 2 then s
  else if ¬ s.noiseMode n then
    let loud := if q.noiseEnter < listen then c.loud + 1 else 0
    if loud < 3 then s.setTctl n { c with loud := loud }
    else
      let s := s.setF (TCH_STATUS n) TCH_STATUS_NOISE_MODE 1
      (s.setTctl n { c with loud := 0, quiet := 0, levels := [], turn := 0, hop := none }).postMgr 0x8703 (256 * n) 1 0
  else
    let quiet := if listen < q.noiseExit then c.quiet + 1 else 0
    if 64 ≤ quiet then
      let s := s.setF (TCH_STATUS n) TCH_STATUS_NOISE_MODE 0
      (s.setTctl n { c with loud := 0, quiet := 0, hop := none, average := 4, nodes := c.nodes.map (fun (x : Node) => { x with sum := 0 }) }).postMgr
        0x8703 (256 * n) 0 0
    else
      let levels := tabInsert (c.turn % 8) listen (tabErase c.levels (c.turn % 8))
      let loud := if c.hop.any (fun h => decide (q.noiseEnter < tabGet (fun _ => 0) levels h)) then c.loud + 1 else 0
      let best := (minBy (fun (x : Nat × Nat) => x.2) levels.reverse).map Prod.fst
      let hop := if c.turn < 8 ∨ 3 ≤ loud then best else c.hop
      let moved := decide (hop ≠ c.hop)
      let s := if moved ∧ c.hop.isSome then s.count (TCH_HOP_COUNT n) else s
      s.setTctl n { c with levels := levels, turn := c.turn + 1, quiet := quiet, hop := hop, loud := if 3 ≤ loud then 0 else loud,
                           average := if moved then 4 else c.average
                           nodes := if moved then c.nodes.map (fun (x : Node) => { x with sum := 0 }) else c.nodes }

/-- A command that waited for the frame (R386, R387). -/
def State.endTouchWait (s : State) (q : Panel) (raw selfRaw : List Nat) (nodes : List Node) : TouchWait → State
  | .recal pk _ => s.complete pk .ok
  | .capture pk kind handle off =>
    (s.store (handleIndex handle) off ((captureValues q kind nodes raw selfRaw).flatMap (leBytes 2))).complete pk .ok

/-- A frame of controller `n` is counted, and its noise shown (R375, R385). -/
def State.countTouchFrame (s : State) (n : Nat) (q : Panel) (listen : Nat) : State :=
  (s.setReg (TCH_FRAME n) (s.reg (TCH_FRAME n) + 1)).setReg (TCH_NOISE n) (if bit q.flags 2 then min 65535 listen else 0)

/-- Do baselines begin anew with this frame (R377)? -/
def TouchCtl.begins (c : TouchCtl) (q : Panel) : Bool := c.first || c.restart || decide (c.nodes.length ≠ panelNodes q)

/-- The saved baselines a controller begins from, if it may use them. -/
def State.startingFrom (s : State) (n : Nat) (q : Panel) (c : TouchCtl) : Option (List Nat) :=
  if c.restart then none else s.savedBaselines n c q

/-- The nodes recalibrated at this frame's end. -/
def State.recalled (s : State) (q : Panel) (c : TouchCtl) : List Nat :=
  c.waits.flatMap (fun w => match w with
    | .recal _ r => s.recalNodes q r
    | .capture .. => [])

/-- Is a raw count saturated? -/
def saturation (raw : List Nat) : List Bool := raw.map (fun v => decide (v = 0 ∨ v = 65535))

/-- The nodes as a frame finds them: baselines of the first frame, recalibration. -/
def State.foundNodes (s : State) (n : Nat) (q : Panel) (c : TouchCtl) (raw : List Nat) : List Node :=
  let nodes := if c.begins q then firstNodes s.now q raw (s.startingFrom n q c) else c.nodes
  (nodes.zip (List.range nodes.length)).map (fun x =>
    if (s.recalled q c).contains x.2 then { x.1 with base := 256 * raw.getD x.2 0, suspect := false } else x.1)

/-- FRESH shows whether baselines that begin now come from no saved ones. -/
def State.noteFresh (s : State) (n : Nat) (q : Panel) (c : TouchCtl) : State :=
  if c.begins q then s.setF (TCH_STATUS n) TCH_STATUS_FRESH (b2n (s.startingFrom n q c).isNone) else s

/-- The manager is told of each node that has become saturated. -/
def State.noteSaturation (s : State) (n : Nat) (q : Panel) (nodes : List Node) (sat : List Bool) : State :=
  (List.range nodes.length).foldl (fun t i =>
    if sat.getD i false ∧ ¬ (nodes.getD i {}).saturated then t.postMgr 0x8705 (256 * n) (nodeRow q i * 256 + nodeCol q i) 0 else t) s

/-- The nodes after tracking (R376 to R378). -/
def trackedNodes (now : Nat) (q : Panel) (average : Nat) (d : List Int) (raw : List Nat) (nodes : List Node) : List Node :=
  (nodes.zip (List.range nodes.length)).map (fun x => settleNode now q average d x.2 (raw.getD x.2 0) x.1)

/-- How many nodes are SUSPECT no more. -/
def liftedNodes (nodes after : List Node) : Nat := ((nodes.zip after).filter (fun x => x.1.suspect && !x.2.suspect)).length

/-- The controller after a frame. -/
def TouchCtl.endFrame (c : TouchCtl) (q : Panel) (noise : Bool) (nodes after : List Node) (peaks : List Peak) (ev : List TouchEvent) : TouchCtl :=
  { c with
    scanning := false, first := false, restart := false, nodes := after, average := c.average - 1, lifts := c.lifts + liftedNodes nodes after,
    contacts := (ev.filter (fun e => decide (e.code ≠ 3))).map TouchEvent.contact, waits := [],
    candidates := if noise then (peaks.filter (fun (k : Peak) => decide (scaled q noise q.touchTh < 16 * k.delta))).map (fun (k : Peak) => (k.x, k.y)) else [] }

/-- The manager is told when the last SUSPECT node is so no more (R378). -/
def State.tellLifted (s : State) (n : Nat) (nodes after : List Node) : State :=
  if 0 < liftedNodes nodes after ∧ after.all (fun (x : Node) => !x.suspect) then s.postMgr 0x8702 (256 * n) (s.tctl n).lifts (s.tctl n).stables else s

/-- The regions on a controller. -/
def State.regionKeys (s : State) (n : Nat) : List Nat :=
  (s.tch.regions.filter (fun x => x.2.cfg.any (fun g => decide (g.ctl = n)))).map Prod.fst

/-- Reflexes fire, and an overflow of contacts counts (R380, R384). -/
def State.fireReflexes (s : State) (n : Nat) (ev : List TouchEvent × Bool) : State :=
  let s := (s.regionKeys n).foldl (fun t k => t.fireReflex n k ev.1) s
  if ev.2 then s.count (TCH_OVERFLOW_COUNT n) else s

/-- The flags of a frame's reports (Table 13.8). -/
def State.frameFlags (s : State) (n : Nat) (noise beyond : Bool) (nodes : List Node) (sat : List Bool) : Nat :=
  b2n noise + 2 * b2n (nodes.any Node.suspect) + 4 * b2n beyond + 16 * s.getF (TCH_STATUS n) TCH_STATUS_FRESH + 32 * b2n (sat.any id)

/-- Reports are written, and captures and recalibrations end (R383, R386, R387). -/
def State.endTouchFrame (s : State) (n : Nat) (q : Panel) (flags : Nat) (ev : List TouchEvent) (raw selfRaw : List Nat) (nodes : List Node)
    (waits : List TouchWait) : State :=
  waits.foldl (fun t w => t.endTouchWait q raw selfRaw nodes w) ((s.regionKeys n).foldl (fun t k => t.reportRegion n k flags ev) s)

/-- A frame of controller `n` with its panel `q` ends (R375 to R387). -/
def State.touchFrame (s : State) (n : Nat) (q : Panel) (c : TouchCtl) (raw selfRaw : List Nat) (listen : Nat) : State :=
  let noise := s.noiseMode n
  let s := s.countTouchFrame n q listen
  let found := s.foundNodes n q c raw
  let sat := saturation raw
  let s := (s.noteFresh n q c).noteSaturation n q found sat
  let nodes := (found.zip sat).map (fun x => { x.1 with saturated := x.2 })
  let d := deltasOf nodes raw
  let peaks := peaksOf q noise d
  let gone := s.recalled q c
  let c := { c with contacts := c.contacts.map (fun (x : Contact) => if gone.contains x.node then { x with lost := true } else x) }
  let ev := s.contactsOf n c q noise peaks nodes
  let after := trackedNodes s.now q c.average d raw nodes
  let s := ((s.setTctl n (c.endFrame q noise nodes after peaks ev.1)).tellLifted n nodes after).fireReflexes n ev
  (s.endTouchFrame n q (s.frameFlags n noise ev.2 nodes sat) ev.1 raw selfRaw nodes c.waits).noiseStep n q listen

/-- TOUCH_FRAME_END (R375 to R387): `raw` are the nodes' counts in TX order, `selfRaw` those of the mapped pins, `listen` the noise of
the listen step, all as measured. -/
def execTouchFrameEnd (n : Nat) (raw selfRaw : List Nat) (listen : Nat) (s : State) : Host.Outcome State Fault Refusal :=
  .next (
    match (s.tctl n).panel with
    | none => s
    | some q =>
      if n < 4 ∧ s.tchRuns n ∧ ¬ s.tchSecure n ∧ (s.tctl n).scanning ∧ raw.length = panelNodes q then
        s.touchFrame n q (s.tctl n) (raw.map (fun v => min 65535 v)) selfRaw listen
      else s)

/-- SUSPECT_STABLE_TIMEOUT (R378): a SUSPECT node's raw count has stayed within RELEASE_TH of one value for 8 s. -/
def execSuspectStableTimeout (n node : Nat) (s : State) : Host.Outcome State Fault Refusal :=
  .next (
    let c := s.tctl n
    if n < 4 ∧ (c.nodes.getD node {}).suspect then
      let nodes := (c.nodes.zip (List.range c.nodes.length)).map (fun x => if x.2 = node then { x.1 with suspect := false, base := 256 * x.1.near } else x.1)
      let s := s.setTctl n { c with nodes := nodes, stables := c.stables + 1 }
      if nodes.all (fun (x : Node) => !x.suspect) then s.postMgr 0x8702 (256 * n) c.lifts (c.stables + 1) else s
    else s)

/-- CONTACT_STUCK (R381): a contact has been held longer than its region's limit; told once, and marked STUCK from then on. -/
def execContactStuck (n id : Nat) (s : State) : Host.Outcome State Fault Refusal :=
  .next (
    let c := s.tctl n
    match c.contacts.find? (fun (x : Contact) => decide (x.id = id)) with
    | some x =>
      match x.region with
      | some r =>
        if x.stuck ∨ (s.tregion (regionKey r.1 r.2)).cfg.all (fun g => decide (g.stuck = 0xFFFFFFFF)) then s
        else
          let s := s.setTctl n { c with contacts := c.contacts.map (fun (y : Contact) => if y.id = id then { y with stuck := true } else y) }
          s.postOwner r.1 0x8701 (256 * n + r.2) id 0
      | none => s
    | none => s)

/-- A TOUCH_BASELINE record (Table 17.5), while no node is frozen (R377); the reports are no longer FRESH. -/
def State.saveBaselines (s : State) (n : Nat) : State :=
  let c := s.tctl n
  match c.panel with
  | some q =>
    if c.nodes = [] then s
    else
      let s := s.ledgAppend 0x05 (leBytes 1 n ++ leBytes 1 q.ntx ++ leBytes 1 q.nrx ++ leBytes 5 0 ++ slice (Config.sha384 q.block) 0 48 ++
        c.nodes.flatMap (fun (x : Node) => leBytes 2 (wholeCount x.base).toNat))
      (s.setF (TCH_STATUS n) TCH_STATUS_FRESH 0).setTctl n { c with discarded := false }
  | none => s

/-- TOUCH_BASELINE_SAVE (R377): `frozen` says that a node was frozen in the last frame. -/
def execTouchBaselineSave (n : Nat) (frozen : Bool) (s : State) : Host.Outcome State Fault Refusal :=
  .next (if n < 4 ∧ ¬ frozen ∧ s.tchRuns n ∧ ¬ s.tchSecure n then s.saveBaselines n else s)

/-! ### Recalibration and capture (R386, R387) -/

/-- TCH_RECALIBRATE (0x0703, R386). -/
def cmdTchRecalibrate : Cmd := ⟨0x0703, .tenants, 1, none, [⟨16, 1, .rng 0 3⟩, ⟨17, 1, .any⟩, ⟨18, 6, .zero⟩]⟩

/-- The packet of a command that waits for a frame. -/
def waitPkt : TouchWait → Pkt
  | .recal pk _ => pk
  | .capture pk .. => pk

/-- A command waits for a frame of a controller. -/
def State.touchWait (s : State) (n : Nat) (w : TouchWait) : State :=
  let c := s.tctl n
  if c.waits.any (fun x => decide (waitPkt x = waitPkt w)) then s else s.setTctl n { c with waits := c.waits ++ [w] }

/-- What TCH_RECALIBRATE adds to the shared validation. -/
def hooksTchRecalibrate (pk : Pkt) (s : State) : Hooks :=
  let owner := s.ownerOf pk.fn
  { more := fun p =>
      [⟨par p 17 1 = 0xFF ∨ (s.tregion (regionKey owner (par p 17 1))).cfg.any (fun c => decide (c.ctl = par p 16 1)), .outOfRange, 2⟩]
    pre := fun p => tchPre s (par p 16 1) ++ [⟨par p 17 1 ≠ 0xFF ∨ owner = 0, .notPermitted, 2⟩] }

/-- The effect of TCH_RECALIBRATE once it is admitted. -/
def effTchRecalibrate (pk : Pkt) (p : List Byte) (t : State) : State :=
  let owner := t.ownerOf pk.fn
  t.touchWait (par p 16 1) (.recal pk (if par p 17 1 = 0xFF then none else some (owner, par p 17 1)))

/-- TCH_RECALIBRATE (R386): a region of the sender on the controller, or by the manager the whole controller. -/
def execTchRecalibrate (pk : Pkt) (s : State) : Host.Outcome State Fault Refusal :=
  .next (runPkt cmdTchRecalibrate pk s (hooksTchRecalibrate pk s) (effTchRecalibrate pk))

/-- TCH_CAPTURE (0x0705, R387). -/
def cmdTchCapture : Cmd := ⟨0x0705, .manager, 2, none,
  [⟨16, 1, .rng 0 3⟩, ⟨17, 1, .rng 0 3⟩, ⟨18, 2, .zero⟩, ⟨20, 4, .write⟩, ⟨24, 8, .mult 8 0 0xFFFFFFFFFFFFFFFF⟩]⟩

/-- The bytes a capture needs. -/
def captureSize (c : TouchCtl) (kind : Nat) : Nat :=
  2 * ((c.coming.map (fun q => if kind = 3 then panelPins q else panelNodes q)).getD 0)

/-- What TCH_CAPTURE adds to the shared validation. -/
def hooksTchCapture (s : State) : Hooks :=
  { more := fun p => [⟨par p 24 8 + captureSize (s.tctl (par p 16 1)) (par p 17 1) ≤ s.objSize (par p 20 4), .outOfRange, 4⟩]
    pre := fun p => tchPre s (par p 16 1) ++
      [⟨(s.objUsage (par p 20 4)).testBit 4 || (s.objUsage (par p 20 4)).testBit 9, .notPermitted, 4⟩] }

/-- The effect of TCH_CAPTURE once it is admitted. -/
def effTchCapture (pk : Pkt) (p : List Byte) (t : State) : State :=
  t.touchWait (par p 16 1) (.capture pk (par p 17 1) (par p 20 4) (par p 24 8))

/-- TCH_CAPTURE (R387): one frame of values goes into an object meant for STORAGE or HOST_XFER. -/
def execTchCapture (pk : Pkt) (s : State) : Host.Outcome State Fault Refusal :=
  .next (runPkt cmdTchCapture pk s (hooksTchCapture s) (effTchCapture pk))

/-- A packet that waits for a frame is forgotten. -/
def State.forgetTouch (s : State) (pk : Pkt) : State :=
  { s with tch := { s.tch with
      ctls := tabMap (fun _ => {}) s.tch.ctls (fun _ c => { c with waits := c.waits.filter (fun w => decide (waitPkt w ≠ pk)) })
      regions := tabMap (fun _ => {}) s.tch.regions (fun _ x => { x with pend := x.pend.filter (fun q => decide (q.2.2 ≠ pk)) }) } }

/-! ### The domain (R391) -/

/-- Every open contact of a controller ends with UP and LOST, and its regions are told. -/
def State.loseContacts (s : State) (n : Nat) : State :=
  let c := s.tctl n
  let es := c.contacts.map (fun (x : Contact) => TouchEvent.mk 3 { x with lost := true })
  let s := s.setTctl n { c with contacts := [], candidates := [] }
  let keys := (s.tch.regions.filter (fun x => x.2.cfg.any (fun g => decide (g.ctl = n)))).map Prod.fst
  let flags := b2n (s.noiseMode n) + 2 * b2n (c.nodes.any Node.suspect) + 16 * s.getF (TCH_STATUS n) TCH_STATUS_FRESH
  keys.foldl (fun t k => t.reportRegion n k flags es) s

/-- The TCH domain drops in order (R391): contacts end, baselines are saved, the wake scanners take over. -/
def State.dropTouch (s : State) : State :=
  (List.range 4).foldl (fun t n =>
    if t.tchSecure n then t else
      let t := (t.loseContacts n).saveBaselines n
      t.setTctl n { t.tctl n with scanning := false, first := true, wake := { (t.tctl n).wake with bases := [], present := 0, trail := [], second := false, lifted := none, swiped := false } }) s

/-! ### The wake scanners (R388 to R390) -/

/-- TCH_SET_WAKE (0x0704, Table 13.6). -/
def cmdTchSetWake : Cmd := ⟨0x0704, .manager, 4, none,
  [⟨16, 1, .rng 0 3⟩, ⟨17, 1, .mask 31⟩, ⟨18, 1, .rng 0 16⟩, ⟨19, 1, .any⟩, ⟨20, 1, .rng 0 15⟩, ⟨21, 1, .zero⟩, ⟨22, 2, .rng 16 4095⟩,
   ⟨24, 16, .any⟩, ⟨40, 8, .zero⟩]⟩

/-- The pins a packet lists. -/
def wakePins (p : List Byte) : List Nat := (List.range (min 16 (par p 18 1))).map (fun i => par p (24 + i) 1)

/-- The ranges that depend on other fields (Table 13.6). -/
def wakeDyn (p : List Byte) : List (Nat × Bool) :=
  [(3, if par p 17 1 = 0 then decide (par p 18 1 = 0) else decide (1 ≤ par p 18 1)),
   (4, decide (par p 19 1 ≤ 7) || decide (par p 19 1 = 0xFF)),
   (5, decide (par p 19 1 ≠ 0xFF) || decide (par p 20 1 = 0)),
   (8, (wakePins p).all (fun x => decide (x ≤ 95)) && allDistinct (wakePins p) &&
       (List.range 16).all (fun i => decide (i < par p 18 1) || decide (par p (24 + i) 1 = 0)))]

/-- What TCH_SET_WAKE adds to the shared validation. -/
def hooksTchSetWake (s : State) : Hooks :=
  { dyn := wakeDyn
    pre := fun p => tchPre s (par p 16 1) ++ [⟨par p 19 1 = 0xFF ∨ s.hapOwner (par p 19 1) = 0, .notPermitted, 4⟩] }

/-- The effect of TCH_SET_WAKE once it is admitted. -/
def effTchSetWake (pk : Pkt) (p : List Byte) (t : State) : State :=
  let n := par p 16 1
  (t.setTctl n { t.tctl n with wake :=
    { gestures := par p 17 1, pins := wakePins p, hapCh := par p 19 1, effect := par p 20 1
      copy := if par p 19 1 = 0xFF then [] else t.hapSlot (par p 19 1) (par p 20 1), thresh := par p 22 2 } }).complete pk .ok

/-- TCH_SET_WAKE (R388): the scanner takes its settings and a copy of the effect (R411). -/
def execTchSetWake (pk : Pkt) (s : State) : Host.Outcome State Fault Refusal :=
  .next (runPkt cmdTchSetWake pk s (hooksTchSetWake s) (effTchSetWake pk))

/-- The codes of the gestures a scan recognises (Table 13.7), and the scanner after it. -/
def wakeStep (w : WakeScan) (peak : Option Nat) : List Nat × WakeScan :=
  match peak with
  | some e =>
    let starts := decide (w.present = 0)
    let second := if starts then w.lifted.any (fun k => decide (k ≤ 8)) else w.second
    let trail := (e :: if starts then [] else w.trail).take 10
    let present := w.present + 1
    let moved := decide (trail[1]? ≠ some e)
    let fwd := !w.swiped && moved && decide (2 ≤ e) && trail.contains (e - 1) && ((trail.dropWhile (fun x => decide (x ≠ e - 1))).contains (e - 2))
    let back := !w.swiped && moved && trail.contains (e + 1) && ((trail.dropWhile (fun x => decide (x ≠ e + 1))).contains (e + 2))
    ((if present = 20 then [3] else []) ++ (if fwd then [4] else []) ++ (if back then [5] else []),
     { w with present := present, trail := trail, second := second, lifted := none, swiped := (if starts then false else w.swiped) || fwd || back })
  | none =>
    if 0 < w.present then
      let tap := decide (w.present ≤ 6)
      (if tap && w.second then [2] else [],
       { w with present := 0, trail := [], second := false, lifted := if tap && !w.second then some 0 else none })
    else
      match w.lifted with
      | some k => if 8 ≤ k + 1 then ([1], { w with lifted := none }) else ([], { w with lifted := some (k + 1) })
      | none => ([], w)

/-- The electrode with the greatest delta above THRESH. -/
def wakePeak (w : WakeScan) (raw : List Nat) : Option Nat :=
  let d := (List.range w.pins.length).map (fun i => (i, ((w.bases.getD i 0 : Nat) : Int) - 256 * raw.getD i 0))
  let beyond := d.filter (fun x => decide ((w.thresh : Int) * 256 < x.2))
  (minBy (fun (x : Nat × Int) => 2 ^ 32 - x.2.toNat) beyond.reverse).map Prod.fst

/-- The scanner's own baselines (R389): R376 with TRACK_SHIFT 6, THRESH for the threshold and the electrodes beside it in the list for
the neighbours. -/
def wakeTrack (w : WakeScan) (raw : List Nat) : List Nat :=
  let beyond := fun (i : Nat) => decide ((w.thresh : Int) * 256 < ((w.bases.getD i 0 : Nat) : Int) - 256 * raw.getD i 0)
  (List.range w.pins.length).map (fun i =>
    if beyond i || (decide (0 < i) && beyond (i - 1)) || (decide (i + 1 < w.pins.length) && beyond (i + 1)) then w.bases.getD i 0
    else trackBase (w.bases.getD i 0) (raw.getD i 0) 6)

/-- Tell the manager of a wake gesture once its rings run (R390). -/
def State.tellWake (s : State) : State :=
  match s.tch.wakeDue with
  | some g =>
    if s.cqOn s.mgrFn ∧ s.getF PCU_STATE PCU_STATE_STATE = 3 then
      ({ s with tch := { s.tch with wakeDue := none } }).postMgr 0x8704 (256 * g.2) g.1 0
    else s
  | none => s

/-- A gesture that is enabled (R390): the effect, then PENDING and WAKE# unless they are set. -/
def State.wakeGesture (s : State) (n code cycles : Nat) : State :=
  let w := (s.tctl n).wake
  if ¬ w.gestures.testBit (code - 1) then s
  else
    let s := if 7 < w.hapCh then s
      else if s.domainUp 20 then s.hapTrigger w.hapCh w.effect else s.wakePlay w.hapCh w.copy cycles
    if s.getF TCH_WAKE_STATUS TCH_WAKE_STATUS_PENDING = 1 then s
    else
      let s := s.setReg TCH_WAKE_STATUS (2 ^ 31 + code * 2 ^ 16 + n)
      ({ s with tch := { s.tch with wakeDue := some (code, n), wakePin := true } }).tellWake

/-- WAKE_SCAN (R389, R390): the scanner of a controller that is not scanning frames measures its electrodes: `raw` their counts in
slider order, `cycles` the drive cycles the wake drive makes if a gesture plays (R412). -/
def execWakeScan (n : Nat) (raw : List Nat) (cycles : Nat) (s : State) : Host.Outcome State Fault Refusal :=
  .next (
    let w := (s.tctl n).wake
    if n < 4 ∧ w.gestures ≠ 0 ∧ ¬ s.tchRuns n ∧ s.getF LEDG_STATUS LEDG_STATUS_SAVE = 0 ∧ raw.length = w.pins.length then
      let raw := raw.map (fun v => min 65535 v)
      if w.bases = [] then s.setTctl n { s.tctl n with wake := { w with bases := raw.map (fun v => 256 * v) } }
      else
        let r := wakeStep w (wakePeak w raw)
        let s := s.setTctl n { s.tctl n with wake := { r.2 with bases := wakeTrack w raw } }
        r.1.foldl (fun t g => t.wakeGesture n g cycles) s
    else s)

/-- WAKE_PENDING_CLEAR (R390): the manager writes 1 to PENDING; WAKE# is released. -/
def execWakePendingClear (writer : Nat) (s : State) : Host.Outcome State Fault Refusal :=
  .next (s.regWrite writer TCH_WAKE_STATUS 0 (2 ^ 31) (fun t =>
    let t := t.setF TCH_WAKE_STATUS TCH_WAKE_STATUS_PENDING 0
    { t with tch := { t.tch with wakePin := false } }))

end Sys2Proof.Machine
end

