-- ==== Sys2Proof/Machine/Audio.lean ====
section
/-! DEFINITION. Audio (R416 to R438): ports, endpoints, nodes and routes, the commands that wait for a block boundary, and the block of
32 samples. Amplitudes and samples are in 2⁻³¹. -/

namespace Sys2Proof.Machine

/-! ### Amplitudes and ramps (R424, R429) -/

/-- Full scale. -/
def unity : Int := 2147483648

/-- A quotient as a whole sample; the rounding is not given. -/
def audRound (n : Int) (d : Nat) : Int := n / d + if n % d = 0 then 0 else if Config.sampleUp n then 1 else 0

/-- The amplitude of a gain in 1/64 dB; −32,768 is mute (R425). -/
def amplitudeOf (g : Int) : Int := if g = -32768 then 0 else if g = 0 then unity else Config.amplitude g

/-- Has a ramp ended? -/
def rampDone (r : Ramp) : Bool := decide (r.len ≤ r.pos)

/-- The amplitude a ramp stands at. -/
def rampNow (r : Ramp) : Int := if rampDone r then r.b else audRound (r.a * r.len + (r.b - r.a) * r.pos) r.len

/-- A sample under a ramp, `i` samples from where it stands (R429). -/
def rampMul (r : Ramp) (i : Nat) (x : Int) : Int :=
  if r.len ≤ r.pos + i then audRound (x * r.b) 2147483648
  else audRound (x * (r.a * r.len + (r.b - r.a) * (r.pos + i))) (2147483648 * r.len)

/-- A ramp to a target over `len` samples, from the current amplitude (R429, R430). -/
def rampTo (r : Ramp) (target : Int) (len : Nat) : Ramp := if r.b = target then r else ⟨rampNow r, target, 0, len⟩

/-- A ramp after a block. -/
def rampStep (r : Ramp) : Ramp := if r.len ≤ r.pos + 32 then ⟨r.b, r.b, 0, 0⟩ else { r with pos := r.pos + 32 }

/-- The samples of `ms` milliseconds. -/
def msSamples (ms : Nat) : Nat := 96 * ms

/-! ### Ports, endpoints, nodes and routes in the state -/

/-- A port. -/
def State.audPort (s : State) (p : Nat) : AudPort := tabGet (fun _ => {}) s.aud.ports p

/-- An endpoint; sinks count from 32. -/
def State.audEp (s : State) (e : Nat) : AudEp := tabGet (fun _ => {}) s.aud.eps e

/-- Is the port in the secure world (R350)? PDM ports are in the normal world. -/
def State.audSecure (s : State) (p : Nat) : Bool :=
  decide (p < 8) && (s.getF STRG_BOUND STRG_BOUND_TDM).testBit p

/-- Is a sink secure: its port bound to the secure world by the binding table (R432)? -/
def State.secureSink (s : State) (c : AudEpCfg) : Bool := decide (c.owner = 127) && decide (c.dir = 1)

/-- AUD_EP<e>_STATUS shows the endpoint (Table 15.10). -/
def State.showEp (s : State) (e : Nat) : State :=
  let x := s.audEp e
  let old := s.reg (AUD_EP_STATUS e)
  match x.cfg with
  | none => s.setReg (AUD_EP_STATUS e) (bits old 7 0)
  | some c =>
    s.setReg (AUD_EP_STATUS e) (2 ^ 31 + c.dir * 2 ^ 30 + c.kind * 2 ^ 27 + b2n (s.secureSink c) * 2 ^ 26 + c.owner * 2 ^ 19 + bits old 15 0)

/-- `s` with an endpoint changed. -/
def State.setEp (s : State) (e : Nat) (x : AudEp) : State :=
  { s with aud := { s.aud with eps := tabSet (fun _ => {}) s.aud.eps e x } }

/-- AUD_PORT<p>_STATUS shows the port (Table 15.9). -/
def State.showPort (s : State) (p : Nat) : State :=
  let s := s.setF (AUD_PORT_STATUS p) AUD_PORT_STATUS_ROLE (s.audPort p).cfg.role
  let s := s.setF (AUD_PORT_STATUS p) AUD_PORT_STATUS_SECURE (b2n (s.audSecure p))
  s.setF (AUD_PORT_STATUS p) AUD_PORT_STATUS_RATE (s.audPort p).cfg.rate

/-- `s` with a port changed. -/
def State.setPort (s : State) (p : Nat) (x : AudPort) : State :=
  ({ s with aud := { s.aud with ports := tabSet (fun _ => {}) s.aud.ports p x } }).showPort p

/-- The key of a node. -/
def nodeKey (owner n : Nat) : Nat := 128 * owner + n

/-- A node in use. -/
def State.audNode (s : State) (key : Nat) : Option AudNode := (s.aud.nodes.find? (fun p => decide (p.1 = key))).map Prod.snd

/-- AUD_NODE<n>_STATUS of a node's physical node (Table 15.12); COMP_GR and DUCK_GR are set by the block. -/
def State.showNode (s : State) (key : Nat) (x : AudNode) : State :=
  let a := AUD_NODE_STATUS x.phys
  s.setReg a (2 ^ 31 + b2n (!rampDone x.trim || x.old.isSome) * 2 ^ 30 + x.cfg.channels * 2 ^ 24 + bits (s.reg a) 23 8 * 2 ^ 8 + key / 128)

/-- `s` with AUD_STATUS.NODES and POINTS counted. -/
def State.showAud (s : State) : State :=
  let s := s.setF AUD_STATUS AUD_STATUS_NODES s.aud.nodes.length
  s.setF AUD_STATUS AUD_STATUS_POINTS (s.aud.routes.filter (fun p => decide (p.1 / 4096 % 2 = 1))).length

/-- `s` with a node put in. -/
def State.putNode (s : State) (key : Nat) (x : AudNode) : State :=
  (({ s with aud := { s.aud with nodes := tabInsert key x (tabErase s.aud.nodes key) } }).showNode key x).showAud

/-- `s` without a node: its physical node is released. -/
def State.freeNode (s : State) (key : Nat) : State :=
  match s.audNode key with
  | some x => (({ s with aud := { s.aud with nodes := tabErase s.aud.nodes key } }).setReg (AUD_NODE_STATUS x.phys) 0).showAud
  | none => s

/-- The key of a route: owner, kind, node, target. -/
def routeKey (owner kind node target : Nat) : Nat := ((owner * 2 + kind) * 128 + node) * 32 + target
def keyOwner (k : Nat) : Nat := k / 8192
def keyKind (k : Nat) : Nat := k / 4096 % 2
def keyNode (k : Nat) : Nat := k / 32 % 128
def keyTarget (k : Nat) : Nat := k % 32

/-- A route. -/
def State.audRoute (s : State) (key : Nat) : Option AudRoute := (s.aud.routes.find? (fun p => decide (p.1 = key))).map Prod.snd

/-- `s` with a route put in. -/
def State.putRoute (s : State) (key : Nat) (x : AudRoute) : State :=
  ({ s with aud := { s.aud with routes := tabInsert key x (tabErase s.aud.routes key) } }).showAud

/-- The endpoint a route touches: the source of a node input, the sink of a routing point. -/
def routeEp (key : Nat) (x : AudRoute) : Option Nat :=
  if keyKind key = 1 then some (32 + keyTarget key) else if x.from_ < 128 then some x.from_ else none

/-! ### AUD_SET_PORT (R417) and the ports' clocks (R419) -/

/-- Every command needs the AUD domain (R416). -/
def audPre (s : State) : List Chk := [⟨s.domainUp 21, .notPermitted, 3⟩]

/-- The rates of Table 15.3 in Hz. -/
def audRates : List Nat := [8000, 16000, 32000, 44100, 48000, 88200, 96000, 176400, 192000]

/-- AUD_SET_PORT (0x0901, Table 15.2). -/
def cmdAudSetPort : Cmd := ⟨0x0901, .manager, 2, none,
  [⟨16, 1, .rng 0 11⟩, ⟨17, 1, .any⟩, ⟨18, 1, .any⟩, ⟨19, 1, .any⟩, ⟨20, 1, .any⟩, ⟨21, 1, .any⟩, ⟨22, 2, .any⟩, ⟨24, 8, .zero⟩]⟩

/-- The ranges for TDM and PDM ports. -/
def portDyn (p : List Byte) : List (Nat × Bool) :=
  if par p 16 1 < 8 then
    [(2, decide (par p 17 1 ≤ 2)), (3, decide (par p 18 1 ≤ 8)), (4, decide (1 ≤ par p 19 1) && decide (par p 19 1 ≤ 16)),
     (5, [16, 24, 32].contains (par p 20 1)), (6, decide (par p 21 1 ≤ 7)), (7, decide (par p 22 2 = 0))]
  else
    [(2, decide (par p 17 1 ≤ 1)), (3, decide (par p 18 1 = 0)), (4, decide (par p 19 1 = 0)), (5, decide (par p 20 1 = 0)),
     (6, decide (par p 21 1 = 0)), (7, [1024, 2048, 3072, 4096, 6144].contains (par p 22 2))]

/-- Does a definition use a port? -/
def epOnPort (c : AudEpCfg) (p : Nat) : Bool := (decide (c.kind = 1) || decide (c.kind = 2)) && decide (c.port = p)

/-- Is an endpoint defined on the port, or about to be? -/
def State.portUsed (s : State) (p : Nat) : Bool :=
  s.aud.eps.any (fun q => q.2.cfg.any (fun c => epOnPort c p) || q.2.pend.any (fun x => x.1.any (fun c => epOnPort c p)))

/-- What AUD_SET_PORT adds to the shared validation. -/
def hooksAudSetPort (s : State) : Hooks :=
  { dyn := portDyn
    more := fun p =>
      [⟨8 ≤ par p 16 1 ∨ audRates.getD (par p 18 1) 0 * par p 19 1 * par p 20 1 ≤ 98304000, .outOfRange, 4⟩]
    pre := fun p => [⟨s.audSecure (par p 16 1) = false ∧ s.closing 2 (par p 16 1) = false, .notPermitted, 1⟩] ++ audPre s
    post := fun p => [⟨s.portUsed (par p 16 1) = false, .busy, 1⟩] }

/-- The effect of AUD_SET_PORT once it is admitted. -/
def effAudSetPort (pk : Pkt) (p : List Byte) (t : State) : State :=
  let n := par p 16 1
  let t := t.setF (AUD_PORT_STATUS n) AUD_PORT_STATUS_LOST 0
  (t.setPort n { cfg := ⟨par p 17 1, par p 18 1, par p 19 1, par p 20 1, par p 21 1, par p 22 2⟩ }).complete pk .ok

/-- AUD_SET_PORT (R417). -/
def execAudSetPort (pk : Pkt) (s : State) : Host.Outcome State Fault Refusal :=
  .next (runPkt cmdAudSetPort pk s (hooksAudSetPort s) (effAudSetPort pk))

/-- Is the port a slave TDM port (R419)? -/
def State.slavePort (s : State) (p : Nat) : Bool := decide (p < 8) && decide ((s.audPort p).cfg.role = 2)

/-- TDM_FS_EDGE (R419): an FS edge `ps` picoseconds after the accepted edge before it: accepted within ±2 % of the nominal period, and
the offset of its rate shown in ppm, or ignored and counted. The first edge after a loss has no edge before it to be measured from. -/
def execTdmFsEdge (p ps : Nat) (s : State) : Host.Outcome State Fault Refusal :=
  .next (
    if ¬ s.domainUp 21 ∨ ¬ s.slavePort p then s
    else
      let x := s.audPort p
      let rate := audRates.getD x.cfg.rate 0
      let lost := s.getF (AUD_PORT_STATUS p) AUD_PORT_STATUS_LOST = 1
      let d := (10 ^ 12 : Int) - (ps * rate : Nat)
      if lost ∧ x.edges = 0 then s.setPort p { x with edges := 1 }
      else if 0 < ps ∧ 50 * d.natAbs ≤ 10 ^ 12 then
        (s.setPort p { x with edges := if lost then x.edges + 1 else 0 }).setF (AUD_PORT_STATUS p) AUD_PORT_STATUS_PPM
          (unsigned 16 (roundDivInt (d * 10 ^ 6) (ps * rate)))
      else (s.countF (AUD_PORT_STATUS p) AUD_PORT_STATUS_REJECT).setPort p { x with edges := 0 })

/-- TDM_PORT_LOST (R419): no edge has been accepted for 4 nominal periods. -/
def execTdmPortLost (p : Nat) (s : State) : Host.Outcome State Fault Refusal :=
  .next (if s.domainUp 21 ∧ s.slavePort p ∧ s.getF (AUD_PORT_STATUS p) AUD_PORT_STATUS_LOST = 0 then
      ((s.setPort p { s.audPort p with edges := 0 }).setF (AUD_PORT_STATUS p) AUD_PORT_STATUS_LOST 1).postMgr 0x8902 p 1 0
    else s)

/-- TDM_PORT_RELOCK (R419): after 64 accepted edges in a row the converter has relocked. -/
def execTdmPortRelock (p : Nat) (s : State) : Host.Outcome State Fault Refusal :=
  .next (if s.domainUp 21 ∧ s.slavePort p ∧ s.getF (AUD_PORT_STATUS p) AUD_PORT_STATUS_LOST = 1 ∧ 64 ≤ (s.audPort p).edges then
      ((s.setPort p { s.audPort p with edges := 0 }).setF (AUD_PORT_STATUS p) AUD_PORT_STATUS_LOST 0).postMgr 0x8902 p 0 0
    else s)

/-! ### AUD_SET_ENDPOINT (R420 to R423) -/

/-- AUD_SET_ENDPOINT (0x0902, Table 15.4). -/
def cmdAudSetEndpoint : Cmd := ⟨0x0902, .tenants, 4, none,
  [⟨16, 1, .rng 0 31⟩, ⟨17, 1, .rng 0 1⟩, ⟨18, 1, .rng 0 4⟩, ⟨19, 1, .any⟩, ⟨20, 1, .any⟩, ⟨21, 1, .any⟩, ⟨22, 1, .any⟩, ⟨23, 1, .any⟩,
   ⟨24, 1, .any⟩, ⟨25, 1, .any⟩, ⟨26, 1, .any⟩, ⟨27, 1, .zero⟩, ⟨28, 2, .any⟩, ⟨30, 2, .any⟩, ⟨32, 8, .any⟩, ⟨40, 8, .any⟩]⟩

/-- The definition a packet gives; none for KIND 0. -/
def epCfgOf (owner : Nat) (p : List Byte) : Option AudEpCfg :=
  if par p 18 1 = 0 then none
  else some { owner := owner, dir := par p 17 1, kind := par p 18 1, port := par p 19 1, first := par p 20 1, channels := par p 21 1,
              rate := par p 22 1, format := par p 23 1, logPeriod := par p 24 1, logDepth := par p 25 1, vector := par p 26 1,
              bus := par p 32 8, limit := signed 16 (par p 28 2), release := par p 30 2, access := par p 40 8 }

/-- The number of an endpoint: sinks from 32. -/
def epIndex (p : List Byte) : Nat := 32 * par p 17 1 + par p 16 1

/-- The ranges that depend on KIND, DIR and the sender. -/
def epDyn (s : State) (owner : Nat) (p : List Byte) : List (Nat × Bool) :=
  let k := par p 18 1
  let host := decide (k = 4)
  let z := fun (off size : Nat) => decide (par p off size = 0)
  let r := fun (off lo hi : Nat) => decide (lo ≤ par p off 1) && decide (par p off 1 ≤ hi)
  [(3, decide (k ≠ 3) || decide (par p 17 1 = 1)),
   (4, if k = 1 then r 19 0 7 else if k = 2 then r 19 8 11 else if k = 3 then r 19 0 7 else z 19 1),
   (5, if k = 1 then decide (par p 20 1 + par p 21 1 ≤ (s.audPort (par p 19 1)).cfg.slots) else z 20 1),
   (6, if k = 1 ∨ k = 4 then r 21 1 16 else if k = 2 then r 21 1 2 else if k = 3 then r 21 1 8 else true),
   (7, if k = 3 then r 22 2 8 else if host then r 22 0 8 else z 22 1),
   (8, if host then r 23 0 3 else z 23 1), (9, if host then r 24 5 12 else z 24 1), (10, if host then r 25 1 8 else z 25 1),
   (11, if host then r 26 2 31 else z 26 1),
   (13, if par p 17 1 = 1 then decide (-1280 ≤ signed 16 (par p 28 2)) && decide (signed 16 (par p 28 2) ≤ 0) else z 28 2),
   (14, if par p 17 1 = 1 then decide (10 ≤ par p 30 2) && decide (par p 30 2 ≤ 1000) else z 30 2),
   (15, if host then decide (par p 32 8 % 4096 = 0) else z 32 8),
   (16, decide (owner = 0) || z 40 8)]

/-- The definition an endpoint will have once everything waiting has taken effect. -/
def epComing (x : AudEp) : Option AudEpCfg :=
  match x.pend.getLast? with
  | some q => q.1
  | none => x.cfg

/-- What AUD_SET_ENDPOINT adds to the shared validation. -/
def hooksAudSetEndpoint (pk : Pkt) (s : State) : Hooks :=
  let owner := s.ownerOf pk.fn
  { dyn := epDyn s owner
    pre := fun p =>
      let x := s.audEp (epIndex p)
      [⟨(epComing x).all (fun c => decide (c.owner = owner)), .notPermitted, 1⟩,
       ⟨par p 18 1 ≠ 1 ∨ (s.audSecure (par p 19 1) = false ∧ s.closing 2 (par p 19 1) = false), .notPermitted, 1⟩,
       ⟨owner = 0 ∨ par p 18 1 = 4 ∨ par p 18 1 = 0, .notPermitted, 3⟩] ++ audPre s }

/-- The effect of AUD_SET_ENDPOINT once it is admitted. -/
def effAudSetEndpoint (pk : Pkt) (p : List Byte) (t : State) : State :=
  let owner := t.ownerOf pk.fn
  let e := epIndex p
  let x := t.audEp e
  if x.pend.any (fun q => decide (q.2 = some pk)) then t else t.setEp e { x with pend := x.pend ++ [(epCfgOf owner p, some pk)] }

/-- AUD_SET_ENDPOINT (R420, R423): the definition waits until every route that touches the endpoint is silent. -/
def execAudSetEndpoint (pk : Pkt) (s : State) : Host.Outcome State Fault Refusal :=
  .next (runPkt cmdAudSetEndpoint pk s (hooksAudSetEndpoint pk s) (effAudSetEndpoint pk))

/-- May an owner route from or to an endpoint (R420)? -/
def State.mayRoute (s : State) (owner e : Nat) : Bool :=
  match (s.audEp e).cfg with
  | some c => decide (owner = 0) || decide (c.owner = owner) || c.access.testBit (owner - 1)
  | none => decide (owner = 0)

/-! ### AUD_SET_NODE (R425) -/

/-- The gains of R425. -/
def gainOk (v : Nat) : Bool := decide (signed 16 v = -32768) || (decide (-6144 ≤ signed 16 v) && decide (signed 16 v ≤ 1536))

/-- The settings of a block (Table 15.5). -/
def nodeCfgOf (p : List Byte) : AudNodeCfg where
  flags := par p 17 1
  channels := par p 18 1
  trim := signed 16 (par p 20 2)
  rampMs := par p 22 2
  delayObj := par p 24 4
  delaySamples := par p 28 2
  compThresh := signed 16 (par p 32 2)
  compRatio := par p 34 1
  compAttack := par p 35 1
  compRelease := par p 36 2
  compMakeup := signed 16 (par p 38 2)
  duckKey := par p 40 1
  duckDepth := par p 41 1
  duckThresh := signed 16 (par p 42 2)
  duckAttack := par p 44 2
  duckRelease := par p 46 2
  eq := (List.range 40).map (fun i => signed 32 (par p (48 + 4 * i) 4))

/-- AUD_SET_NODE (0x0903, Table 15.5). -/
def cmdAudSetNode : Cmd := ⟨0x0903, .tenants, 0, some (192, 192),
  [⟨16, 1, .rng 0 127⟩, ⟨17, 1, .mask 63⟩, ⟨18, 1, .rng 1 8⟩, ⟨19, 1, .zero⟩, ⟨20, 2, .any⟩, ⟨22, 2, .rng 1 500⟩, ⟨24, 4, .any⟩, ⟨28, 2, .any⟩,
   ⟨30, 2, .zero⟩, ⟨32, 2, .any⟩, ⟨34, 1, .any⟩, ⟨35, 1, .any⟩, ⟨36, 2, .any⟩, ⟨38, 2, .any⟩, ⟨40, 1, .any⟩, ⟨41, 1, .any⟩, ⟨42, 2, .any⟩,
   ⟨44, 2, .any⟩, ⟨46, 2, .any⟩, ⟨48, 160, .any⟩]⟩

/-- The first EQ section that is not stable (Table 15.5). -/
def unstable (eq : List Int) : Option Nat :=
  (List.range 8).find? (fun i =>
    let a1 := eq.getD (5 * i + 3) 0
    let a2 := eq.getD (5 * i + 4) 0
    !(decide (a2.natAbs < 2 ^ 28) && decide ((a1.natAbs : Int) < 2 ^ 28 + a2)))

/-- The ranges that depend on FLAGS: fields of an effect whose bit is clear are zero. -/
def nodeDyn (s : State) (p : List Byte) : List (Nat × Bool) :=
  let c := nodeCfgOf p
  let z := fun (off size : Nat) => decide (par p off size = 0)
  let int := fun (lo hi v : Int) => decide (lo ≤ v) && decide (v ≤ hi)
  let r := fun (lo hi v : Nat) => decide (lo ≤ v) && decide (v ≤ hi)
  let comp := bit c.flags 3
  let duck := bit c.flags 4
  let delay := bit c.flags 5
  [(5, gainOk (par p 20 2)),
   (7, if delay then decide (c.channels * c.delaySamples * 4 ≤ s.objSize c.delayObj) else z 24 4),
   (8, if delay then r 1 9600 c.delaySamples else z 28 2),
   (10, if comp then int (-3840) 0 c.compThresh else z 32 2), (11, if comp then decide (16 ≤ c.compRatio) else z 34 1),
   (12, if comp then r 1 100 c.compAttack else z 35 1), (13, if comp then r 10 2000 c.compRelease else z 36 2),
   (14, if comp then int 0 1536 c.compMakeup else z 38 2),
   (15, if duck then decide (c.duckKey < 32) || (decide (0x80 ≤ c.duckKey)) else z 40 1), (16, if duck then decide (c.duckDepth ≤ 60) else z 41 1),
   (17, if duck then int (-3840) 0 c.duckThresh else z 42 2), (18, if duck then r 1 100 c.duckAttack else z 44 2),
   (19, if duck then r 10 2000 c.duckRelease else z 46 2),
   (20, bit c.flags 2 || c.eq.all (fun x => decide (x = 0)))]

/-! ### Changes to the graph (R427 to R430) -/

/-- The settings of AUD_SET_ROUTE that its key does not hold. -/
def routeMap (p : List Byte) : List Nat := (List.range 8).map (fun i => par p (24 + i) 1)
def routeMs (p : List Byte) : Nat := if par p 32 2 = 0 then 10 else par p 32 2
def routeKeyOf (owner : Nat) (p : List Byte) : Nat := routeKey owner (par p 16 1) (par p 17 1) (par p 18 1)
def routeFrom (p : List Byte) : Nat := if par p 16 1 = 0 then par p 20 1 else 0x80 + par p 17 1

/-- The processing a change of settings fades from (R429): EQ, COMP, DUCK or delay. -/
def sameProcessing (a b : AudNodeCfg) : Bool := { a with trim := 0, rampMs := 0 } = { b with trim := 0, rampMs := 0 }

/-- A node begins from silence on the lowest free physical node (R425). -/
def State.newNode (s : State) (key : Nat) (c : AudNodeCfg) : State :=
  let used := s.aud.nodes.map (fun q => q.2.phys)
  let phys := ((List.range 128).find? (fun i => !used.contains i)).getD 0
  s.putNode key { phys := phys, cfg := c, trim := rampTo {} (amplitudeOf c.trim) (msSamples c.rampMs)
                  dsp := { delay := List.replicate c.channels (List.replicate c.delaySamples (0 : Int)) }, old := none, closing := false, out := [],
                  peak := 0, clipAt := none }

/-- A route begins from silence (R427, R429). -/
def State.newRoute (s : State) (key from_ : Nat) (map : List Nat) (gain : Int) (rampMs : Nat) : State :=
  s.putRoute key { from_ := from_, map := map, gain := gain, rampMs := rampMs, amp := rampTo {} (amplitudeOf gain) (msSamples rampMs), old := none, closing := false }

/-- AUD_SET_NODE takes effect (R425, R429): a node that is enabled starts from silence on the lowest free physical node; one that is disabled
ramps to silence; a change of TRIM ramps, one of the processing cross-fades. -/
def State.applyNode (s : State) (owner : Nat) (p : List Byte) : State :=
  let key := nodeKey owner (par p 16 1)
  let c := nodeCfgOf p
  let len := msSamples c.rampMs
  let target := amplitudeOf c.trim
  let lines := List.replicate c.channels (List.replicate c.delaySamples (0 : Int))
  match s.audNode key with
  | none =>
    if bit c.flags 0 then s.newNode key c
    else s
  | some x =>
    if bit c.flags 0 then
      let same := sameProcessing x.cfg c
      let old := if same then x.old else some (x.cfg, x.dsp, 0, len)
      let keep := decide (x.cfg.delaySamples = c.delaySamples ∧ x.cfg.channels = c.channels ∧ x.cfg.delayObj = c.delayObj)
      s.putNode key { x with cfg := c, trim := rampTo x.trim target len, old := old, closing := false
                             dsp := if keep then x.dsp else { x.dsp with delay := lines } }
    else s.putNode key { x with trim := rampTo x.trim 0 len, closing := true }

/-- AUD_SET_ROUTE takes effect (R427, R429). -/
def State.applyRoute (s : State) (owner : Nat) (p : List Byte) : State :=
  let key := routeKeyOf owner p
  let len := msSamples (routeMs p)
  let gain := signed 16 (par p 22 2)
  match s.audRoute key with
  | none =>
    if bit (par p 19 1) 0 then s.newRoute key (routeFrom p) (routeMap p) gain (routeMs p)
    else s
  | some x =>
    if bit (par p 19 1) 0 then
      let old := if x.from_ = routeFrom p ∧ x.map = routeMap p then x.old else some (x.from_, x.map, 0, len)
      s.putRoute key { from_ := routeFrom p, map := routeMap p, gain := gain, rampMs := routeMs p
                       amp := rampTo x.amp (amplitudeOf gain) len, old := old, closing := false }
    else s.putRoute key { x with rampMs := routeMs p, amp := rampTo x.amp 0 len, closing := true }

/-- A command of the graph takes effect. -/
def State.applyGraph (s : State) (owner op : Nat) (p : List Byte) : State :=
  if op = 0x0903 then s.applyNode owner p else s.applyRoute owner p

/-- Nodes that feed a node, directly or not, within `k` steps. -/
def State.feeds (s : State) (owner : Nat) : Nat → List Nat → List Nat
  | 0, l => l
  | k + 1, l =>
    State.feeds s owner k ((List.range 128).filter (fun n => l.contains n || s.aud.routes.any (fun q =>
      decide (keyOwner q.1 = owner ∧ keyKind q.1 = 0 ∧ q.2.from_ = 0x80 + n) && !q.2.closing && l.contains (keyNode q.1))))

/-- The width of an origin: a source's channels or a node's. -/
def State.originWidth (s : State) (owner f : Nat) : Nat :=
  if f < 128 then (((s.audEp f).cfg).map AudEpCfg.channels).getD 0
  else ((s.audNode (nodeKey owner (f - 128))).map (fun x => x.cfg.channels)).getD 0

/-- A node of an owner that is enabled. -/
def State.hasNode (s : State) (owner n : Nat) : Bool := (s.audNode (nodeKey owner n)).any (fun x => !x.closing)

/-- What a command must meet in the graph it makes (R425, R427): `b` is the graph before, `s` the graph after. -/
def graphChecks (b s : State) (owner op : Nat) (p : List Byte) : List Chk :=
  if op = 0x0903 then
    let c := nodeCfgOf p
    if ¬ bit c.flags 0 then []
    else
      [⟨(b.audNode (nodeKey owner (par p 16 1))).all (fun x => x.closing || decide (x.cfg.channels = c.channels)), .busy, 2⟩,
       ⟨(s.aud.nodes.filter (fun q => decide (q.1 / 128 = owner) && !q.2.closing)).length ≤ s.limitOf owner 128 Grant.audio, .noResource, 1⟩,
       ⟨s.aud.nodes.length ≤ 128, .noResource, 2⟩]
  else if bit (par p 19 1) 0 then
    let n := par p 17 1
    let f := routeFrom p
    let width := if par p 16 1 = 0 then s.originWidth owner (0x80 + n) else s.originWidth owner f
    let dst := if par p 16 1 = 0 then s.originWidth owner (0x80 + n) else (((s.audEp (32 + par p 18 1)).cfg).map AudEpCfg.channels).getD 0
    let points := s.aud.routes.filter (fun q => decide (keyKind q.1 = 1))
    [⟨s.hasNode owner n, .outOfRange, 2⟩,
     ⟨f < 128 ∨ s.hasNode owner (f - 128) = true, .outOfRange, 5⟩,
     ⟨par p 16 1 = 1 ∨ (s.feeds owner 128 (if f < 128 then [] else [f - 128])).contains n = false, .outOfRange, 5⟩,
     ⟨(List.range 8).all (fun i => decide (par p (24 + i) 1 = 0xFF) ||
        (decide (par p (24 + i) 1 < s.originWidth owner f) && decide (i < dst))) && decide (0 < width), .outOfRange, 8⟩,
     ⟨par p 16 1 = 1 ∨ 128 ≤ f ∨ s.mayRoute owner f = true, .notPermitted, 5⟩,
     ⟨par p 16 1 = 0 ∨ s.mayRoute owner (32 + par p 18 1) = true, .notPermitted, 3⟩,
     ⟨owner = 0 ∨ par p 16 1 = 0 ∨
        (points.filter (fun q => decide (keyOwner q.1 = owner) && !q.2.closing)).length ≤ ((s.grantOf owner).audio + 1) / 2, .noResource, 1⟩,
     ⟨par p 16 1 = 0 ∨ points.length ≤ 64, .noResource, 2⟩]
  else []

/-- The graph as it will stand once the commands waiting have taken effect. -/
def State.graphComing (s : State) : State :=
  s.aud.changes.foldl (fun t c => if c.op = 0x0905 then t else t.applyGraph c.owner c.op c.params) s

/-- Is the route or node a command names cross-fading (R430)? -/
def State.fading (s : State) (owner op : Nat) (p : List Byte) : Bool :=
  if op = 0x0903 then (s.audNode (nodeKey owner (par p 16 1))).any (fun x => x.old.isSome)
  else (s.audRoute (routeKeyOf owner p)).any (fun x => x.old.isSome)

/-- Would the command change more than a gain? -/
def State.structural (s : State) (owner op : Nat) (p : List Byte) : Bool :=
  if op = 0x0903 then
    (s.audNode (nodeKey owner (par p 16 1))).any (fun x => bit (par p 17 1) 0 && !sameProcessing x.cfg (nodeCfgOf p))
  else
    (s.audRoute (routeKeyOf owner p)).any (fun x => bit (par p 19 1) 0 && !(decide (x.from_ = routeFrom p ∧ x.map = routeMap p)))

/-- Do two commands name the same route or node? -/
def sameTarget (owner op : Nat) (p : List Byte) (c : AudChange) : Bool :=
  decide (c.owner = owner) && decide (c.op = op) &&
    (if op = 0x0903 then decide (par c.params 16 1 = par p 16 1) else decide (routeKeyOf owner c.params = routeKeyOf owner p))

/-- A command of the graph that is valid: staged, and answered (R428), or waiting for the block boundary; where another change already
waits for the same cross-fade to end, it takes its place (R430). -/
def State.queueGraph (s : State) (pk : Pkt) (op : Nat) (staged : Bool) (p : List Byte) : State :=
  let owner := s.ownerOf pk.fn
  if staged then
    let l := tabGet (fun _ => []) s.aud.staged owner
    ({ s with aud := { s.aud with staged := tabSet (fun _ => []) s.aud.staged owner (l ++ [(op, p)]) } }).complete pk .ok
  else if s.aud.changes.any (fun c => decide (c.pk = pk)) then s
  else
    let old := s.aud.changes.filter (fun c => sameTarget owner op p c && s.fading owner op p && s.structural c.owner c.op c.params)
    let s := { s with aud := { s.aud with changes := s.aud.changes.filter (fun c => !old.contains c) ++ [⟨owner, op, p, pk⟩] } }
    old.foldl (fun t c => t.complete c.pk .aborted 1) s

/-- The staged set of an owner. -/
def State.stagedOf (s : State) (owner : Nat) : List (Nat × List Byte) := tabGet (fun _ => []) s.aud.staged owner

/-- What a command of the graph meets when it comes: a staged one the room of its set, any other the graph it would make. -/
def graphPost (pk : Pkt) (s : State) (op : Nat) (staged : Bool) (p : List Byte) : List Chk :=
  let owner := s.ownerOf pk.fn
  if staged then [⟨(s.stagedOf owner).length < 64, .noResource, 0⟩]
  else if s.aud.changes.any (fun c => decide (c.pk = pk)) then []
  else graphChecks s (s.graphComing.applyGraph owner op p) owner op p

/-- What AUD_SET_NODE adds to the shared validation. -/
def hooksAudSetNode (pk : Pkt) (s : State) : Hooks :=
  let owner := s.ownerOf pk.fn
  { dyn := nodeDyn s
    handles := fun p => if bit (par p 17 1) 5 then [(7, par p 24 4, true)] else []
    more := fun p =>
      [⟨bit (par p 17 1) 2 = false ∨ (unstable (nodeCfgOf p).eq).isNone = true, .outOfRange, 20⟩]
    failRes := fun p st d => if st = .outOfRange ∧ d = 20 ∧ bit (par p 17 1) 2 then ((unstable (nodeCfgOf p).eq).getD 0, 0) else (0, 0)
    pre := fun p => audPre s ++ (if bit (par p 17 1) 5 then [usageChk s 7 (par p 24 4) 4] else []) ++
      [⟨bit (par p 17 1) 4 = false ∨ 32 ≤ par p 40 1 ∨ s.mayRoute owner (par p 40 1) = true, .notPermitted, 15⟩]
    post := fun p => graphPost pk s 0x0903 (bit (par p 17 1) 1) p }

/-- The effect of AUD_SET_NODE once it is admitted. -/
def effAudSetNode (pk : Pkt) (p : List Byte) (t : State) : State :=
  t.queueGraph pk 0x0903 (bit (par p 17 1) 1) p

/-- AUD_SET_NODE (R425, R428). -/
def execAudSetNode (pk : Pkt) (s : State) : Host.Outcome State Fault Refusal :=
  .next (runPkt cmdAudSetNode pk s (hooksAudSetNode pk s) (effAudSetNode pk))

/-- AUD_SET_ROUTE (0x0904, Table 15.6). -/
def cmdAudSetRoute : Cmd := ⟨0x0904, .tenants, 3, none,
  [⟨16, 1, .rng 0 1⟩, ⟨17, 1, .rng 0 127⟩, ⟨18, 1, .any⟩, ⟨19, 1, .mask 3⟩, ⟨20, 1, .any⟩, ⟨21, 1, .zero⟩, ⟨22, 2, .any⟩, ⟨24, 8, .any⟩,
   ⟨32, 2, .rng 0 500⟩, ⟨34, 6, .zero⟩]⟩

/-- The ranges that depend on KIND. -/
def routeDyn (p : List Byte) : List (Nat × Bool) :=
  let k := par p 16 1
  [(3, decide (par p 18 1 ≤ if k = 0 then 3 else 31)),
   (5, if k = 0 then decide (par p 20 1 < 32) || decide (0x80 ≤ par p 20 1) else decide (par p 20 1 = 0)),
   (7, gainOk (par p 22 2))]

/-- What AUD_SET_ROUTE adds to the shared validation. -/
def hooksAudSetRoute (pk : Pkt) (s : State) : Hooks :=
  { dyn := routeDyn, pre := fun _ => audPre s, post := fun p => graphPost pk s 0x0904 (bit (par p 19 1) 1) p }

/-- The effect of AUD_SET_ROUTE once it is admitted. -/
def effAudSetRoute (pk : Pkt) (p : List Byte) (t : State) : State :=
  t.queueGraph pk 0x0904 (bit (par p 19 1) 1) p

/-- AUD_SET_ROUTE (R427, R428). -/
def execAudSetRoute (pk : Pkt) (s : State) : Host.Outcome State Fault Refusal :=
  .next (runPkt cmdAudSetRoute pk s (hooksAudSetRoute pk s) (effAudSetRoute pk))

/-- AUD_COMMIT (0x0905, R428). -/
def cmdAudCommit : Cmd := ⟨0x0905, .tenants, 0, none, []⟩

/-- What AUD_COMMIT adds to the shared validation. -/
def hooksAudCommit (s : State) : Hooks :=
  { pre := fun _ => audPre s }

/-- The effect of AUD_COMMIT once it is admitted. -/
def effAudCommit (pk : Pkt) (_p : List Byte) (t : State) : State :=
  if t.aud.changes.any (fun c => decide (c.pk = pk)) then t
  else { t with aud := { t.aud with changes := t.aud.changes ++ [⟨t.ownerOf pk.fn, 0x0905, [], pk⟩] } }

/-- AUD_COMMIT (R428, R430): the staged set waits for a block boundary at which nothing of it is cross-fading. -/
def execAudCommit (pk : Pkt) (s : State) : Host.Outcome State Fault Refusal :=
  .next (runPkt cmdAudCommit pk s (hooksAudCommit s) (effAudCommit pk))

/-- A packet that waits for a block boundary is forgotten. -/
def State.forgetAudio (s : State) (pk : Pkt) : State :=
  { s with aud := { s.aud with
      changes := s.aud.changes.filter (fun c => decide (c.pk ≠ pk))
      eps := tabMap (fun _ => {}) s.aud.eps (fun _ x => { x with pend := x.pend.filter (fun q => decide (q.2 ≠ some pk)) }) } }

/-! ### The end of ramps -/

/-- When the last ramp of a list of commands ends (R428). -/
def State.rampEnd (s : State) (l : List (Nat × List Byte)) : Nat :=
  s.now + 10 ^ 6 * (l.map (fun c => if c.1 = 0x0903 then par c.2 22 2 else routeMs c.2)).foldl max 0

/-- A commit at a block boundary (R428): the staged set is checked against the graph it makes; it is applied as a whole or discarded. -/
def State.commitGraph (s : State) (c : AudChange) : State :=
  let l := s.stagedOf c.owner
  let after := l.foldl (fun t x => t.applyGraph c.owner x.1 x.2) s
  let fails := (l.zip (List.range l.length)).filterMap (fun x => (firstFail (graphChecks s after c.owner x.1.1 x.1.2)).map (fun e => (x.2, e)))
  let done := fun (t : State) => { t with aud := { t.aud with staged := tabSet (fun _ => []) t.aud.staged c.owner [] } }
  match fails with
  | [] => (done after).complete c.pk .ok 0 0 (s.rampEnd l)
  | e :: _ => (done s).complete c.pk e.2.1 0 (e.1 + 1) e.2.2

/-- One waiting command at a block boundary: it waits on while what it would change in structure is cross-fading (R430). -/
def State.boundary (s : State) (c : AudChange) : State :=
  let waits := if c.op = 0x0905 then (s.stagedOf c.owner).any (fun x => s.fading c.owner x.1 x.2)
    else s.fading c.owner c.op c.params && s.structural c.owner c.op c.params
  if waits then s
  else
    let s := { s with aud := { s.aud with changes := s.aud.changes.filter (fun x => decide (x.pk ≠ c.pk)) } }
    if c.op = 0x0905 then s.commitGraph c
    else (s.applyGraph c.owner c.op c.params).complete c.pk .ok 0 0 (s.rampEnd [(c.op, c.params)])

/-- The amplitude a route should have: none while it is removed, while its owner is frozen or contained (Tables 3.22 and 19.4), while a
definition of its endpoint waits (R423), and at a sink in the safe state (R433) or on the way to DORMANT or HAIRSPRING (R456), there within 10 ms. -/
def State.routeTarget (s : State) (key : Nat) (x : AudRoute) : Int × Nat :=
  let waits := (routeEp key x).any (fun e => !(s.audEp e).pend.isEmpty)
  if (s.safe || s.entering) = true ∧ keyKind key = 1 then (0, msSamples 10)
  else if x.closing ∨ s.heldStill (keyOwner key) ∨ waits then (0, msSamples x.rampMs)
  else (amplitudeOf x.gain, msSamples x.rampMs)

/-- Every route's ramp turned to where it should go. -/
def State.aimRoutes (s : State) : State :=
  { s with aud := { s.aud with routes := s.aud.routes.map (fun q =>
      let g := s.routeTarget q.1 q.2
      (q.1, { q.2 with amp := rampTo q.2.amp g.1 g.2 })) } }

/-- Is every route that touches an endpoint silent? -/
def State.epSilent (s : State) (e : Nat) : Bool :=
  s.aud.routes.all (fun q => decide (routeEp q.1 q.2 ≠ some e) || (rampDone q.2.amp && decide (q.2.amp.b = 0)))

/-- A definition takes effect once its endpoint is silent (R423): its ring starts at position 0. -/
def State.settleEp (s : State) (e : Nat) : State :=
  match (s.audEp e).pend with
  | q :: rest =>
    if s.epSilent e then
      let s := ((s.setReg (AUD_EP_HOST_POS e) 0).setReg (AUD_EP_DEV_POS e) 0)
      let s := (s.setEp e { cfg := q.1, pend := rest, hold := ⟨unity, unity, 0, 0⟩ }).showEp e
      let ms := (s.aud.routes.map (fun x => if routeEp x.1 x.2 = some e then x.2.rampMs else 0)).foldl max 0
      match q.2 with
      | some pk => s.complete pk .ok 0 0 (s.now + 10 ^ 6 * ms)
      | none => s
    else s
  | [] => s

/-! ### Samples -/

/-- One block of silence. -/
def silence : List Int := List.replicate 32 0

/-- A channel of a block. -/
def chan (b : List (List Int)) (c : Nat) : List Int := b.getD c silence

/-- The peak of a block. -/
def blockPeak (b : List (List Int)) : Nat := (b.map (fun c => (c.map Int.natAbs).foldl max 0)).foldl max 0

/-- The 40-bit accumulator (R424). -/
def sat40 (x : Int) : Int := max (-(2 ^ 39)) (min (2 ^ 39 - 1) x)

/-- The sum of channels. -/
def addChan (a b : List Int) : List Int := List.zipWith (· + ·) a b

/-- The block an origin gives. -/
def State.originOut (s : State) (owner f : Nat) : List (List Int) :=
  if f < 128 then (s.audEp f).out else ((s.audNode (nodeKey owner (f - 128))).map AudNode.out).getD []

/-- What a route carries into destination channel `i` (R427, R429): the channel its map finds, the old form fading into the new, under the
ramp of its gain. -/
def State.routeChan (s : State) (key : Nat) (x : AudRoute) (i : Nat) : List Int :=
  let pick := fun (f : Nat) (m : List Nat) => if m.getD i 0xFF = 0xFF then silence else chan (s.originOut (keyOwner key) f) (m.getD i 0xFF)
  let new := pick x.from_ x.map
  let v := match x.old with
    | none => new
    | some (f, m, pos, len) =>
      ((pick f m).zip (new.zip (List.range 32))).map (fun (y : Int × Int × Nat) =>
        let k := min len (pos + y.2.2)
        audRound (y.1 * (len - k : Nat) + y.2.1 * k) len)
  (v.zip (List.range 32)).map (fun (y : Int × Nat) => rampMul x.amp y.2 y.1)

/-- The sum of all routes into a destination, by channel, exact. -/
def State.sumRoutes (s : State) (into : Nat → Bool) (width : Nat) : List (List Int) :=
  let rs := s.aud.routes.filter (fun q => into q.1)
  (List.range width).map (fun i => (rs.map (fun q => s.routeChan q.1 q.2 i)).foldl addChan silence)

/-- One EQ section over a channel (R426): 28 fractional bits; the memory is x1, x2, y1, y2. -/
def eqSection (c : List Int) (st : List Int) (x : List Int) : List Int × List Int :=
  x.foldl (fun (acc : List Int × List Int) v =>
    let m := acc.2
    let y := audRound (c.getD 0 0 * v + c.getD 1 0 * m.getD 0 0 + c.getD 2 0 * m.getD 1 0 - c.getD 3 0 * m.getD 2 0 - c.getD 4 0 * m.getD 3 0) (2 ^ 28)
    (acc.1 ++ [y], [v, m.getD 0 0, y, m.getD 2 0])) ([], st)

/-- The eight sections over the channels. -/
def eqBlock (eq : List Int) (mem : Tab (List Int)) (b : List (List Int)) : List (List Int) × Tab (List Int) :=
  (List.range b.length).foldl (fun (acc : List (List Int) × Tab (List Int)) c =>
    let r := (List.range 8).foldl (fun (a : List Int × Tab (List Int)) i =>
      let z := eqSection ((eq.drop (5 * i)).take 5) (tabGet (fun _ => []) a.2 (8 * c + i)) a.1
      (z.1, tabInsert (8 * c + i) z.2 (tabErase a.2 (8 * c + i)))) (chan b c, acc.2)
    (acc.1 ++ [r.1], r.2)) ([], mem)

/-- Every channel under a gain that follows the block sample by sample. -/
def underGain (b : List (List Int)) (g0 : Int) (next : Nat → Int → Int) : List (List Int) × Int :=
  let gs := ((List.range 32).foldl (fun (a : List Int × Int) j => let g := next j a.2; (a.1 ++ [g], g)) ([], g0))
  (b.map (fun c => List.zipWith (fun x g => audRound (x * g) 2147483648) c gs.1), gs.2)

/-- The peak over channels at sample `j`. -/
def samplePeak (b : List (List Int)) (j : Nat) : Int := (b.map (fun c => ((c.getD j 0).natAbs : Int))).foldl max 0

/-- The delay line (R426): samples of four bytes; a poisoned read ramps it to zero over 1 ms for the block. -/
def delayBlock (lines b : List (List Int)) (poisoned : Bool) : List (List Int) × List (List Int) :=
  let word := fun (x : Int) => if -unity ≤ x ∧ x < unity then x else Config.delayWord x
  let seqs := (List.range b.length).map (fun c => lines.getD c [] ++ (chan b c).map word)
  let out := seqs.map (fun q => q.take 32)
  ((if poisoned then out.map (fun q => (q.zip (List.range 32)).map (fun (y : Int × Nat) => audRound (y.1 * (96 - y.2 : Nat)) 96)) else out),
   seqs.map (fun q => q.drop 32))

/-- Steps 3 to 6 of a node's processing (R426); `key` is the peak of its ducking key. -/
def nodeChain (c : AudNodeCfg) (d : AudDsp) (b : List (List Int)) (key : Nat) (poisoned : Bool) : List (List Int) × AudDsp :=
  let r := if bit c.flags 5 then delayBlock d.delay b poisoned else (b, d.delay)
  let e := if bit c.flags 2 then eqBlock c.eq d.eq r.1 else (r.1, d.eq)
  let m := if bit c.flags 3 then
      let z := underGain e.1 d.comp (fun j g =>
        Config.dynamics [0, c.compThresh, c.compRatio, c.compAttack, c.compRelease, g, samplePeak e.1 j])
      (z.1.map (fun q => q.map (fun x => audRound (x * amplitudeOf c.compMakeup) 2147483648)), z.2)
    else (e.1, unity)
  let k := if bit c.flags 4 then
      underGain m.1 d.duck (fun _ g =>
        Config.dynamics [1, c.duckDepth, c.duckAttack, c.duckRelease, g, if amplitudeOf c.duckThresh < key then 1 else 0])
    else (m.1, unity)
  (k.1, ⟨r.2, e.2, m.2, k.2⟩)

/-- The peak of a ducking key (R426). -/
def State.keyPeak (s : State) (owner k : Nat) : Nat :=
  if k < 32 then blockPeak (s.audEp k).out
  else if k = 0xFF then 0
  else ((s.audNode (nodeKey owner (k - 128))).map AudNode.peak).getD 0

/-- A reduction in 1/4 dB, at most what 8 bits hold. -/
def reduction (g : Int) : Nat := if unity ≤ g then 0 else min 255 (Config.decibels 4 g)

/-- A node's delay line lies in its object (R426): where its samples stand in it is not given, so what the object reads as is open. -/
def State.openDelay (s : State) (c : AudNodeCfg) : State :=
  if bit c.flags 5 ∧ (s.obj? c.delayObj).isSome then
    let n := c.channels * c.delaySamples * 4
    let s' := { s with freeCount := s.freeCount + 1 }
    s'.writeObj (handleIndex c.delayObj) 0 (slice (Config.freeBytes s.freeCount) 0 n)
  else s

/-- A node in a block (R424, R426, R429): the sum of its inputs, saturated and counted, TRIM, its processing and, in a cross-fade, the old
one beside it. -/
def State.runNode (s : State) (poison : List Nat) (key : Nat) : State :=
  match s.audNode key with
  | none => s
  | some x =>
    let owner := key / 128
    let n := key % 128
    let c := x.cfg
    let sum := s.sumRoutes (fun k => decide (keyOwner k = owner ∧ keyKind k = 0 ∧ keyNode k = n)) c.channels
    let clip := sum.any (fun q => q.any (fun v => decide (sat40 v ≠ v)))
    let b := sum.map (fun q => (q.zip (List.range 32)).map (fun (y : Int × Nat) => rampMul x.trim y.2 (sat40 y.1)))
    let bad := bit c.flags 5 && poison.contains key
    let r := nodeChain c x.dsp b (s.keyPeak owner c.duckKey) bad
    let f := match x.old with
      | none => (r.1, none)
      | some (oc, od, pos, len) =>
        let o := nodeChain oc od b (s.keyPeak owner oc.duckKey) false
        let mix := (List.range c.channels).map (fun i => ((chan o.1 i).zip ((chan r.1 i).zip (List.range 32))).map (fun (y : Int × Int × Nat) =>
          let k := min len (pos + y.2.2)
          audRound (y.1 * (len - k : Nat) + y.2.1 * k) len))
        (mix, if len ≤ pos + 32 then none else some (oc, o.2, pos + 32, len))
    let tell := clip && x.clipAt.all (fun t => decide (t + 10 ^ 9 ≤ s.now))
    let s := if clip then s.count (AUD_NODE_CLIP_COUNT x.phys) else s
    let s := if tell then s.postOwner owner 0x8903 n 0 0 else s
    let s := if bad then s.postOwner owner 0x8904 n c.delayObj 0 else s
    let s := s.openDelay c
    let s := (s.setF (AUD_NODE_STATUS x.phys) AUD_NODE_STATUS_COMP_GR (reduction r.2.comp)).setF (AUD_NODE_STATUS x.phys) AUD_NODE_STATUS_DUCK_GR (reduction r.2.duck)
    s.putNode key { x with dsp := r.2, old := f.2, out := f.1, peak := blockPeak f.1, trim := rampStep x.trim
                           clipAt := if tell then some s.now else x.clipAt }

/-- The nodes in dependency order (R424): those none of whose inputs comes from a node still to be run go first. -/
def State.runNodes (poison : List Nat) : Nat → List Nat → State → State
  | 0, _, s => s
  | k + 1, todo, s =>
    match todo.find? (fun key => !s.aud.routes.any (fun q => decide (keyOwner q.1 = key / 128 ∧ keyKind q.1 = 0 ∧ keyNode q.1 = key % 128 ∧ 128 ≤ q.2.from_) &&
        todo.contains (nodeKey (key / 128) (q.2.from_ - 128)))) with
    | some key => State.runNodes poison k (todo.filter (fun y => decide (y ≠ key))) (s.runNode poison key)
    | none => s

/-! ### Host streams (R422) -/

/-- Periods an owner has ready: full for a source, free for a sink. -/
def State.periodsReady (s : State) (e : Nat) (c : AudEpCfg) : Nat :=
  let d := (BitVec.ofNat 32 (s.reg (AUD_EP_HOST_POS e)) - BitVec.ofNat 32 (s.reg (AUD_EP_DEV_POS e))).toNat
  if c.dir = 0 then d
  else 2 ^ c.logDepth - (BitVec.ofNat 32 (s.reg (AUD_EP_DEV_POS e)) - BitVec.ofNat 32 (s.reg (AUD_EP_HOST_POS e))).toNat

/-- A period is needed: taken, or an xrun, counted for each period and told once per episode. -/
def State.needPeriod (s : State) (e : Nat) (c : AudEpCfg) : State :=
  let x := s.audEp e
  if x.live then s
  else if 0 < s.periodsReady e c then s.setEp e { x with live := true, episode := false, frames := 0 }
  else if x.frames = 0 then
    let s := (s.count (AUD_EP_XRUN_COUNT e)).setEp e { x with episode := true }
    if x.episode then s else s.postOwner c.owner 0x8901 (256 * c.dir + e % 32) 0 0
  else s

/-- A period ends: DEV_POS advances and VECTOR is signalled; a sink's period has been written, with samples whose conversion the spec
bounds but does not fix (R418). -/
def State.endPeriod (s : State) (e : Nat) (c : AudEpCfg) : State :=
  let x := s.audEp e
  let s := s.setEp e { x with live := false, frames := 0 }
  if ¬ x.live then s
  else
    let fn := s.fnOf c.owner
    let d := s.reg (AUD_EP_DEV_POS e)
    let n := 2 ^ c.logPeriod * c.channels * (if c.format = 0 then 2 else 4)
    let s := if c.dir = 1 ∧ s.linkUp fn then
        ({ s with freeCount := s.freeCount + 1 }).emit (.buffer fn (c.bus + d % 2 ^ c.logDepth * n) (slice (Config.freeBytes s.freeCount) 0 n))
      else s
    let s := s.setReg (AUD_EP_DEV_POS e) (d + 1)
    if s.linkUp fn then s.emit (.msix fn c.vector) else s

/-- A host stream goes on by `adv` frames times 96,000. -/
def State.runStream (e : Nat) (c : AudEpCfg) : Nat → Nat → State → State
  | 0, _, s => s
  | k + 1, adv, s =>
    let s := s.needPeriod e c
    let left := 2 ^ c.logPeriod * 96000 - (s.audEp e).frames
    if adv < left then s.setEp e { s.audEp e with frames := (s.audEp e).frames + adv }
    else State.runStream e c k (adv - left) (s.endPeriod e c)

/-! ### Endpoints in a block -/

/-- A source's block (R419, R422): what came in, or the last sample, ramping to zero over 1 ms while it is starved and back after. -/
def State.runSource (s : State) (ins : List (Nat × List (List Int))) (e : Nat) : State :=
  match (s.audEp e).cfg with
  | none => s.setEp e { s.audEp e with out := [] }
  | some c =>
    let s := if c.kind = 4 ∧ ¬ s.entering then State.runStream e c 4 (32 * audRates.getD c.rate 0) s else s
    let x := s.audEp e
    let starved := if c.kind = 4 then !x.live && x.episode else decide (c.kind = 1) && s.getF (AUD_PORT_STATUS c.port) AUD_PORT_STATUS_LOST = 1
    let hold := rampTo x.hold (if starved then 0 else unity) (msSamples 1)
    let b := ((ins.find? (fun q => decide (q.1 = e))).map Prod.snd).getD []
    let raw := (List.range c.channels).map (fun i => if starved then List.replicate 32 (x.last.getD i 0) else slicePad (chan b i))
    let out := raw.map (fun q => (q.zip (List.range 32)).map (fun (y : Int × Nat) => rampMul hold y.2 y.1))
    let s := s.setEp e { x with hold := rampStep hold, out := out, last := raw.map (fun q => q.getD 31 0) }
    s.setF (AUD_EP_STATUS e) AUD_EP_STATUS_PEAK (min (s.getF (AUD_EP_STATUS e) AUD_EP_STATUS_PEAK) (levelOf (blockPeak out)))
where
  /-- A channel brought to 32 samples. -/
  slicePad (q : List Int) : List Int := (List.range 32).map (fun j => q.getD j 0)
  /-- A peak in dB below full scale, 255 for silence. -/
  levelOf (p : Nat) : Nat := if p = 0 then 255 else if unity ≤ p then 0 else min 255 (Config.decibels 1 p)

/-- The bits of a sink's format: a TDM slot, 24 for DP, 16, 24 or 32 for a host stream. -/
def State.sinkBits (s : State) (c : AudEpCfg) : Nat :=
  if c.kind = 1 then (s.audPort c.port).cfg.bits else if c.kind = 3 then 24
  else if c.kind = 4 then (if c.format = 0 then 16 else if c.format = 1 then 24 else 32) else 32

/-- Does the sink stand still: a DP stream whose output is between steps 1 and 6 of a change (R299, R421)? -/
def State.sinkPaused (s : State) (c : AudEpCfg) : Bool :=
  decide (c.kind = 3) && (s.outp (s.latchOf c.port)).change.any (fun q => decide (1 ≤ q.step))

/-- Does the chime reach this sink (R432, R364)? -/
def State.chimeAt (s : State) (c : AudEpCfg) : Bool :=
  s.binding.chimeSink.any (fun k => if k < 8 then decide (c.kind = 1 ∧ c.port = k) else decide (c.kind = 3 ∧ c.port = k - 8))

/-- A sink's block (R431, R432): the sum of its routing points, at a secure sink ducked while a chime sounds; the limiter, with 96 samples of
look-ahead and never above LIMIT; the chime; rounding to the format. -/
def State.runSink (s : State) (chime : List Int) (e : Nat) : State :=
  match (s.audEp e).cfg with
  | none => s.setEp e { s.audEp e with out := [] }
  | some c =>
    let x := s.audEp e
    if s.sinkPaused c then s.setEp e { x with hold := ⟨0, 0, 0, 0⟩, out := [] }
    else
      let hold := rampTo x.hold unity (msSamples 1)
      let sum := (s.sumRoutes (fun k => decide (keyKind k = 1 ∧ keyTarget k = e - 32)) c.channels).map (fun q => q.map sat40)
      let duck := if s.secureSink c then
          underGain sum x.duckGain (fun _ g => Config.dynamics [1, s.binding.chimeDuck, 5, 200, g, if s.strg.voices = [] then 0 else 1])
        else (sum, unity)
      let look := (List.range c.channels).map (fun i => x.look.getD i (List.replicate 96 0) ++ chan duck.1 i)
      let lim := underGain (look.map (fun q => q.take 32)) x.limitGain (fun j g =>
        Config.dynamics [2, c.limit, c.release, g, samplePeak duck.1 j])
      let top := amplitudeOf c.limit
      let bounded := lim.1.map (fun q => (q.zip (List.range 32)).map (fun (y : Int × Nat) => rampMul hold y.2 (max (-top) (min top y.1))))
      let mixed := if s.secureSink c ∨ s.chimeAt c then bounded.map (fun q => if s.chimeAt c then addChan q ((List.range 32).map (fun j => chime.getD j 0)) else q) else bounded
      let w := s.sinkBits c
      let out := mixed.map (fun q => q.map (fun v => roundDivInt v (2 ^ (32 - w))))
      let s := s.setEp e { x with hold := rampStep hold, look := look.map (fun q => q.drop 32), limitGain := lim.2, duckGain := duck.2, out := out }
      let s := s.setF (AUD_EP_STATUS e) AUD_EP_STATUS_GR (reduction lim.2)
      let s := s.setF (AUD_EP_STATUS e) AUD_EP_STATUS_PEAK (min (s.getF (AUD_EP_STATUS e) AUD_EP_STATUS_PEAK) (State.runSource.levelOf (blockPeak mixed)))
      if c.kind = 4 ∧ ¬ s.entering then State.runStream e c 4 (32 * audRates.getD c.rate 0) s else s

/-- Ramps and cross-fades of routes after a block; a removed route goes once it is silent (R429). -/
def State.stepRoutes (s : State) : State :=
  let rs := s.aud.routes.map (fun q => (q.1, { q.2 with
    amp := rampStep q.2.amp, old := q.2.old.bind (fun o => if o.2.2.2 ≤ o.2.2.1 + 32 then none else some (o.1, o.2.1, o.2.2.1 + 32, o.2.2.2)) }))
  ({ s with aud := { s.aud with routes := rs.filter (fun q => !(q.2.closing && rampDone q.2.amp && decide (q.2.amp.b = 0))) } }).showAud

/-- A disabled node releases its physical node after its ramp (R429). -/
def State.stepNodes (s : State) : State :=
  ((s.aud.nodes.filter (fun q => q.2.closing && rampDone q.2.trim)).map Prod.fst).foldl (fun t k => t.freeNode k) s

/-- AUDIO_BLOCK (R424): one block of 32 samples: changes at its boundary, sources, nodes, sinks, the end of ramps. `ins` are the samples each
hardware source and host source delivers at 96 kHz after its converter (R418), `chime` what the chime generator plays, `poison` the nodes whose
delay line was read poisoned. -/
def execAudioBlock (ins : List (Nat × List (List Int))) (chime : List Int) (poison : List Nat) (s : State) : Host.Outcome State Fault Refusal :=
  .next (
    if ¬ s.domainUp 21 then s
    else
      let s := s.aud.changes.foldl (fun t c => t.boundary c) s
      let s := s.setF AUD_STATUS AUD_STATUS_SAFE (b2n s.safe)
      let s := s.aimRoutes
      let s := (s.aud.eps.map Prod.fst).foldl (fun t e => t.settleEp e) s
      let s := s.aimRoutes
      let s := ((s.aud.eps.map Prod.fst).filter (fun e => decide (e < 32))).foldl (fun t e => t.runSource ins e) s
      let s := State.runNodes poison 128 (s.aud.nodes.map Prod.fst) s
      let s := ((s.aud.eps.map Prod.fst).filter (fun e => decide (32 ≤ e))).foldl (fun t e => t.runSink chime e) s
      s.stepRoutes.stepNodes)

/-! ### Owners and ports that go -/

/-- An owner's audio ends (R435, Table 3.8): its routes and nodes ramp to silence and go, its staged set is dropped; a destroy also turns its
endpoints off. -/
def State.closeAudio (s : State) (owner : Nat) (destroyed : Bool) : State :=
  let a := s.aud
  { s with aud := { a with
      staged := tabSet (fun _ => []) a.staged owner []
      routes := a.routes.map (fun q => if keyOwner q.1 = owner then (q.1, { q.2 with closing := true }) else q)
      nodes := a.nodes.map (fun q => if q.1 / 128 = owner then (q.1, { q.2 with closing := true, trim := rampTo q.2.trim 0 (msSamples q.2.cfg.rampMs) }) else q)
      eps := tabMap (fun _ => {}) a.eps (fun _ x =>
        if destroyed && x.cfg.any (fun c => decide (c.owner = owner)) then { x with pend := x.pend ++ [(none, none)] } else x) } }

/-- Nodes beyond a smaller grant go, the highest-numbered first (R93, Table 3.8). -/
def State.trimAudio (s : State) (owner keep : Nat) : State :=
  let mine := (s.aud.nodes.filter (fun q => decide (q.1 / 128 = owner) && !q.2.closing)).map Prod.fst
  let gone := mine.drop keep
  { s with aud := { s.aud with
      nodes := s.aud.nodes.map (fun q => if gone.contains q.1 then (q.1, { q.2 with closing := true, trim := rampTo q.2.trim 0 (msSamples q.2.cfg.rampMs) }) else q) } }

/-- Is any route of an instance through a port (R350)? -/
def State.portRouted (s : State) (p : Nat) : Bool :=
  s.aud.routes.any (fun q => decide (keyOwner q.1 ≠ 0) && (routeEp q.1 q.2).any (fun e => (s.audEp e).cfg.any (fun c => epOnPort c p)))

/-- Every endpoint on a port is turned off (R435). -/
def State.closePort (s : State) (p : Nat) : State :=
  { s with aud := { s.aud with eps := tabMap (fun _ => {}) s.aud.eps (fun _ x =>
      if x.cfg.any (fun c => epOnPort c p) then { x with pend := x.pend ++ [(none, none)] } else x) } }

/-- The longest ramp among an owner's routes has ended: it has no route left (R88). -/
def State.audioGone (s : State) (owner : Nat) : Bool := !s.aud.routes.any (fun q => decide (keyOwner q.1 = owner))

end Sys2Proof.Machine
end

