-- ==== Sys2Proof/Machine/Contain.lean ====
section
/-! DEFINITION. Packets that end before they commit (R66, R71, R87, R520), and containment (R519, R520, Table 19.4). -/

namespace Sys2Proof.Machine

/-- A packet that waits in the Registrar is forgotten. -/
def State.forgetRegistrar (s : State) (pk : Pkt) : State :=
  { s with shm := { s.shm with
      leaving := s.shm.leaving.filter (fun q => decide (q.2 ≠ pk)), xdevWaits := s.shm.xdevWaits.filter (fun q => decide (q ≠ pk)) } }

/-- A packet that waits for a chunk, for the fabric or for power domains is forgotten; the votes it set are taken back (R446), and a drain for it is
given up (R456). -/
def State.forgetWork (s : State) (pk : Pkt) : State :=
  let mine := s.pwr.riseWaits.filter (fun (w : RiseWait) => decide (w.pk = pk))
  let s := { s with
    rnd := { s.rnd with works := s.rnd.works.filter (fun (w : Work) => w.committed || decide (w.pk ≠ pk)) }
    fab := { s.fab with
      roleWaits := s.fab.roleWaits.filter (fun q => decide (q ≠ pk)), wakeWaits := s.fab.wakeWaits.filter (fun (w : Pkt × Nat) => decide (w.1 ≠ pk))
      deliveries := s.fab.deliveries.filter (fun (d : Pkt × Nat) => decide (d.1 ≠ pk)) }
    pwr := { s.pwr with
      riseWaits := s.pwr.riseWaits.filter (fun (w : RiseWait) => decide (w.pk ≠ pk))
      entry := s.pwr.entry.bind (fun e => if e.pk = pk ∧ ¬ e.committed then none else some e) } }
  mine.foldl (fun (t : State) (w : RiseWait) => t.setReg (PCU_VOTE w.voter) (t.reg (PCU_VOTE w.voter) &&& (0x3FFFFF - w.votes))) s

/-- Whatever waits for this packet forgets it: a latch, a frame, a block or loop boundary, an AUX turn, the Registrar, a chunk, the fabric, power
domains, a lending slip. -/
def State.forget (s : State) (pk : Pkt) : State :=
  let s := ((s.forgetBindery pk).forgetWindows pk).forgetTelltales pk
  let s := (((((s.forgetAux pk).forgetHaptics pk).forgetTouch pk).forgetAudio pk).forgetRegistrar pk).forgetWork pk
  { s with slips := tabMap (fun _ => {}) s.slips (fun _ x => { x with waiters := x.waiters.filter (fun q => decide (q ≠ pk)) }) }

/-- A packet ends before it has committed. -/
def State.endPkt (s : State) (pk : Pkt) (st : Status) (detail : Nat) : State := (s.forget pk).complete pk st detail

/-- Every uncommitted packet that satisfies `p` ends with one status, in fetch order (R87, R520 to R522). -/
def State.endAll (s : State) (p : Flight → Bool) (st : Status) (detail : Nat) : State :=
  (s.flight.filter (fun f => !f.committed && p f)).foldl (fun t f => t.endPkt f.pk st detail) s

/-- An instance is contained (Table 19.4): its uncommitted packets, and those a freeze had withdrawn (R100), complete with FAULTED; its slips
break; the telltales it controls take their FAIL_STATE; notices held for it are written, and EV_INST_CONTAINED follows them. An INST_FREEZE in
progress will reply with DETAIL 3. -/
def State.enterContained (s : State) (n code seq : Nat) : State :=
  let x := s.inst n
  let s := s.setInst n { x with state := .contained, items := [], freezeDetail := 3 }
  let s := s.breakSlips n .faulted 0
  let s := s.endAll (fun f => decide (f.pk.fn = n)) .faulted 0
  let s := x.items.foldl (fun t i => t.complete i.pk .faulted 0) s
  let s := (s.loseController n).flushHeld n
  s.post n 0x8108 code seq 0

/-- May the instance be contained: it runs, is being frozen or is frozen? -/
def State.containable (s : State) (n : Nat) : Bool :=
  isInst n && [InstState.running, .freezing, .frozen].contains (s.inst n).state

/-- A T1 fault (R515, R519, R520): recorded against its bearer, an instance or (0) the manager; the instance is contained before any
uncommitted command of it can commit. -/
def State.fault1 (s : State) (bearer subsys unit code info0 info1 : Nat) : State :=
  let r := s.record subsys unit 1 code bearer info0 info1
  if r.state.containable bearer then r.state.enterContained bearer code r.seq else r.state

/-- A command writes its result into an object and returns OK. A part of a beat that is uncorrectable cannot be written: the writer, the sender, faults
(R170, Table 5.9). -/
def State.storeReply (s : State) (pk : Pkt) (h off : Nat) (bs : List Byte) (r0 r1 : Nat) : State :=
  match s.partBad? (handleIndex h) off bs.length with
  | some b => ((s.postUe (handleIndex h) (32 * b)).complete pk .faulted 0).fault1 (s.ownerOf pk.fn) 1 (s.portOf pk.fn) 0x02 h (32 * b)
  | none => (s.store (handleIndex h) off bs).complete pk .ok 0 r0 r1

end Sys2Proof.Machine
end

