-- ==== Sys2Proof/Machine/HapLoop.lean ====
section
/-! DEFINITION. The haptic loop period (R401, R405 to R412) and the end of a calibration (R402). -/

namespace Sys2Proof.Machine

/-- A channel is found open (1) or short (2) (R409): its effect ends without braking, a pending one with FAULTED; owner and manager are told;
the fault is recorded at T1 against the owner, or at T2 while the manager owns the channel. -/
def State.hapFault (s : State) (c code : Nat) : State :=
  let owner := s.hapOwner c
  let s := s.setF (HAP_STATUS c) HAP_STATUS_FAULT code
  let s := ((s.setHap c { s.hapc c with faults := (s.hapc c).faults + 1, changed := true }).endEffect c 4).endPending c .faulted 0
  let s := (s.postOwner owner 0x8801 (256 * c + code) 0 0)
  let s := if owner = 0 then s else s.postMgr 0x8801 (256 * c + code) 0 0
  if owner = 0 then (s.record 15 c 2 0x0E 0 code c).state else s.fault1 owner 15 c 0x0E code c

/-- The HAPTIC record of a channel (Table 17.5). -/
def State.writeHapRecord (s : State) (c : Nat) (saved : Bool) : State :=
  let x := s.hapc c
  let s := s.ledgAppend 0x04 (leBytes 1 c ++ leBytes 1 0 ++ leBytes 2 (s.getF (HAP_CAL c) HAP_CAL_C_NF) ++ leBytes 2 (s.getF (HAP_CAL c) HAP_CAL_F0_HZ) ++
    leBytes 2 (s.getF (HAP_GAIN c) HAP_GAIN_VALUE) ++ (List.range 32).flatMap (fun i => leBytes 2 (x.gains.getD i 0)) ++ leBytes 8 (s.reg64 (HAP_CYCLES_LO c)) ++
    leBytes 4 x.stalls ++ leBytes 4 x.faults ++ leBytes 2 0) saved
  s.setHap c { s.hapc c with changed := false }

/-- CALIBRATION_COMPLETE (R402): the sweep of a channel ends with what it measured: capacitance in nF, f0 in Hz, G0 and the 32 gains in mg/V,
or a trip of the current limit. -/
def execCalibrationComplete (c : Nat) (trip : Bool) (cNf f0 g0 : Nat) (gains : List Nat) (s : State) : Host.Outcome State Fault Refusal :=
  .next (
    match (s.hapc c).calib with
    | none => s
    | some (pk, keep) =>
      let s := s.setHap c { s.hapc c with calib := none }
      let s := if keep then s.clearCal c else s
      if trip then (if keep then s.hapFault c 2 else s).complete pk .faulted 2
      else if cNf < 10 then s.complete pk .faulted 1
      else if 2500 < cNf then s.complete pk .outOfRange 1
      else
        let s := if keep then
            let s := (s.setReg (HAP_CAL c) (cNf * 2 ^ 20 + f0 % 1024 * 2 ^ 10)).setReg (HAP_GAIN c) (g0 % 65536)
            let s := (s.setF (HAP_STATUS c) HAP_STATUS_CALIBRATED 1).setHap c { s.hapc c with gains := (gains.take 32).map (fun g => g % 65536) }
            s.writeHapRecord c false
          else s
        s.complete pk .ok 0 (cNf + f0 % 1024 * 2 ^ 16 + g0 % 65536 * 2 ^ 32) 0)

/-- The accelerometer (R401): 8 stale periods in a row set SENSOR_STALE and tell the owner, 64 fresh ones clear it. -/
def State.sensorPeriod (s : State) (c : Nat) (sample : Bool) : State :=
  let x := s.hapc c
  if s.getF (HAP_CFG c) HAP_CFG_ENABLE = 0 ∨ s.getF (HAP_CFG c) HAP_CFG_FEEDBACK ≠ 2 then s
  else if sample then
    let s := s.setHap c { x with stale := 0, fresh := min 64 (x.fresh + 1) }
    if 64 ≤ x.fresh + 1 then s.setF (HAP_STATUS c) HAP_STATUS_SENSOR_STALE 0 else s
  else
    let s := s.setHap c { x with stale := min 8 (x.stale + 1), fresh := 0 }
    if 8 ≤ x.stale + 1 ∧ s.getF (HAP_STATUS c) HAP_STATUS_SENSOR_STALE = 0 then
      (s.setF (HAP_STATUS c) HAP_STATUS_SENSOR_STALE 1).postOwner (s.hapOwner c) 0x8803 (256 * c) 0 0
    else s

/-- Can a drive start: the channel enabled and sound, the boost at its set point, no reload (R397, R406, R572)? -/
def State.hapReady (s : State) (c : Nat) : Bool :=
  decide (s.getF (HAP_CFG c) HAP_CFG_ENABLE = 1) && decide (s.getF (HAP_STATUS c) HAP_STATUS_FAULT = 0) &&
    decide (s.getF HAP_BOOST_STATUS HAP_BOOST_STATUS_UP = 1) && !s.hapSecure c && !s.hapReloads && (s.hapc c).calib.isNone

/-- The pending effect begins START (R405, R406): its command commits; one that preempts starts with the phase and the amplitude of the
residual motion (R408). -/
def State.startEffect (s : State) (c : Nat) (m : HapMeas) : State :=
  match (s.hapc c).pend with
  | none => s
  | some q =>
    if s.hapReady c then
      let s := match q.src with
        | some pk => s.commit pk
        | none => s
      let r : HapRun := { slot := q.slot, desc := s.hapSlot c q.slot, src := q.src, start := s.now, angle := if q.matched then m.angle % 16000 else 0
                          matched := if q.matched then some m.residual else none }
      s.setHap c { s.hapc c with pend := none, run := some r }
    else s

/-- The effect goes to BRAKE (R405). -/
def HapRun.toBrake (r : HapRun) (outcome : Nat) : HapRun := { r with phase := 4, outcome := outcome, brake := 0, below := 0 }

/-- An effect after a period of START or RUN (R403, R405): the sine goes on in phase; the next segment, the next play or BRAKE follows; START
lasts two cycles of segment 0 of the first play, or the segment if it is shorter. -/
def HapRun.advance (r : HapRun) : HapRun :=
  let r : HapRun := { r with periods := r.periods + 1, pos := r.pos + 1, angle := (r.angle + segFreq r.desc r.seg) % 16000 }
  let r := if r.phase = 2 ∧ 32000 ≤ r.periods * segFreq r.desc 0 then { r with phase := 3 } else r
  if r.pos < segDuration r.desc r.seg then r
  else if r.seg + 1 < segCount r.desc then { r with seg := r.seg + 1, pos := 0, phase := 3 }
  else if r.play < repeats r.desc then { r with play := r.play + 1, seg := 0, pos := 0, phase := 3 }
  else r.toBrake 0

/-- The drive's target amplitude, as a fraction of AMP's unit (R403): AMP, or on a ramp the way from the amplitude before it; none in the first
cycle of a start with matched phase, whose course is not given. -/
def HapRun.target (r : HapRun) : Option (Nat × Nat) :=
  if r.matched.isSome ∧ r.periods * segFreq r.desc 0 < 16000 then none
  else if segRamp r.desc r.seg then
    let a := if r.seg = 0 then 0 else segAmp r.desc (r.seg - 1)
    some (a * (segDuration r.desc r.seg - r.pos) + segAmp r.desc r.seg * r.pos, segDuration r.desc r.seg)
  else some (segAmp r.desc r.seg, 1)

/-- A period of BRAKE (R405): does the residual count as below RESIDUAL_MG? With FEEDBACK 0 it does after two cycles of the last frequency. -/
def State.residualLow (s : State) (c : Nat) (r : HapRun) (m : HapMeas) : Bool :=
  if s.getF (HAP_CFG c) HAP_CFG_FEEDBACK = 0 then decide (32000 ≤ (r.brake + 1) * segFreq r.desc (segCount r.desc - 1))
  else decide (m.residual < residualMg r.desc)

/-- A boundary while the effect brakes (R405, R408): it ends, and with it what waits for it may start. -/
def State.brakePeriod (s : State) (c : Nat) (r : HapRun) (m : HapMeas) : State :=
  let low := s.residualLow c r m
  let r : HapRun := { r with brake := r.brake + 1, below := if low then r.below + 1 else 0 }
  let pend := (s.hapc c).pend
  let due : Bool := pend.any (fun (q : HapReq) => decide (max q.since (s.now - 62500 * r.brake) + 3000000 ≤ s.now))
  if pend.any (fun (q : HapReq) => q.matched) ∧ s.hapReady c then (s.endEffect c 1).startEffect c m
  else if 4 ≤ r.below ∨ brakeLimit r.desc ≤ r.brake ∨ (due ∧ s.hapReady c) then (s.endEffect c r.outcome).startEffect c m
  else s.setHap c { s.hapc c with run := some r }

/-- A boundary while the effect drives (R405 to R410): the open check after 4 periods, a stall, a preemption, HAP_STOP, or on with it. -/
def State.drivePeriod (s : State) (c : Nat) (r : HapRun) (m : HapMeas) : State :=
  let cal := s.getF (HAP_STATUS c) HAP_STATUS_CALIBRATED = 1
  let isOpen := decide (r.periods + 1 = 4) && (decide (m.capNf < 10) || (cal && decide (2 * m.capNf < s.getF (HAP_CAL c) HAP_CAL_C_NF)))
  if isOpen then s.hapFault c 1
  else
    let weak := if closedLoop r.desc && m.atVmax && m.weak then r.weak + 1 else 0
    let s := if m.limited then s.count (HAP_SAT_COUNT c) else s
    if (s.hapc c).pend.any (fun (q : HapReq) => q.matched) ∧ s.hapReady c then (s.endEffect c 1).startEffect c m
    else if 16 ≤ weak then
      let x := s.hapc c
      let s := (s.count (HAP_STALL_COUNT c)).setHap c { x with run := some (r.toBrake 3), stalls := x.stalls + 1, changed := true }
      s.postOwner (s.hapOwner c) 0x8802 (256 * c) r.slot 0
    else
      let n := { r with weak := weak }.advance
      let n := if n.phase ≠ 4 ∧ r.stop then n.toBrake 2 else n
      s.setHap c { s.hapc c with run := some n }

/-- HAP_LOOP_PERIOD (R405): the loop boundary of a channel, with what the period before it measured. -/
def execHapLoopPeriod (c : Nat) (m : HapMeas) (s : State) : Host.Outcome State Fault Refusal :=
  .next (
    if 8 ≤ c ∨ ¬ s.domainUp 20 then s
    else
      let s := s.sensorPeriod c m.sample
      let s := if 0 < m.cycles ∧ (s.hapc c).run.isSome then
          (s.setReg64 (HAP_CYCLES_LO c) (s.reg64 (HAP_CYCLES_LO c) + m.cycles)).setHap c { s.hapc c with changed := true }
        else s
      if m.trip ∧ s.getF (HAP_CFG c) HAP_CFG_ENABLE = 1 ∧ (s.hapc c).calib.isNone ∧ s.getF (HAP_STATUS c) HAP_STATUS_FAULT = 0 then s.hapFault c 2
      else match (s.hapc c).run with
        | none => s.startEffect c m
        | some r => if r.phase = 4 then s.brakePeriod c r m else s.drivePeriod c r m)

end Sys2Proof.Machine
end

