-- ==== Sys2Proof/Machine/Compose.lean ====
section
/-! DEFINITION. Composition of a line by a pipe (R265 to R283, R307): sources and their fetches, scaling and warp, blending, occlusion
skipping, underruns and poison, the C0 plane, the reduction of codes and the FIFO. -/

namespace Sys2Proof.Machine

/-! ### Where a pixel of a layer comes from -/

/-- The column of the joined active area at which pipe `k` begins (R305). -/
def State.pipeLeft (s : State) (k : Nat) : Nat := if s.paired k ∧ k % 2 = 1 then s.getF (OUT_HACTIVE k) OUT_HACTIVE_ACTIVE else 0

/-- The column and row of a layer at column `x` (of the joined area) and line `y`, inside its destination rectangle. -/
def LayerSet.at_ (l : LayerSet) (x y : Nat) : Option (Nat × Nat) :=
  let j := (x : Int) - l.dstX
  let i := (y : Int) - l.dstY
  if 0 ≤ j ∧ j < l.dstW ∧ 0 ≤ i ∧ i < l.dstH then some (j.toNat, i.toNat) else none

/-- The pose a pipe's band uses for a buffer with this stamp: none for the identity (R281, R283). -/
def warpPose (stamp cur : Option Pose) : Option (Pose × Pose) :=
  match stamp, cur with
  | some r, some c => some (r, c)
  | _, _ => none

/-- The warped position of a destination pixel in 1/65,536 pixel (R281). -/
def warped (l : LayerSet) (poses : Option (Pose × Pose)) (j i : Nat) : Int × Int :=
  match poses with
  | none => (65536 * j, 65536 * i)
  | some (r, c) => Config.warpPosition [l.fx, l.fy, l.cx, l.cy, r.w, r.x, r.y, r.z, c.w, c.x, c.y, c.z, j, i]

/-- The row mapping of R273 at a row in 1/65,536 pixel. -/
def mapRow (l : LayerSet) (row : Int) : Int := l.srcY * 65536 + (2 * row + 65536) * l.srcH / (2 * l.dstH) - 32768

/-- The source position a warped layer samples, before the clamp: column and row in 1/65,536 pixel (R281). -/
def warpSource (l : LayerSet) (poses : Option (Pose × Pose)) (j i : Nat) : Int × Int :=
  let d := warped l poses j i
  (l.srcX * 65536 + d.1, mapRow l d.2)

/-- The row of a position clamped to WARP_MARGIN source lines from the unwarped row (R282). -/
def clampRow (l : LayerSet) (i : Nat) (row : Int) : Int :=
  let plain := mapRow l (65536 * i)
  max (plain - 65536 * l.warpMargin) (min (plain + 65536 * l.warpMargin) row)

/-- Does a pixel's row lie more than WARP_MARGIN lines from its unwarped row (R282)? -/
def beyondMargin (l : LayerSet) (poses : Option (Pose × Pose)) (j i : Nat) : Bool :=
  decide (clampRow l i (warpSource l poses j i).2 ≠ (warpSource l poses j i).2)

/-- The four source pixels around a position, none for one outside the source rectangle (R282). -/
def warpTaps (l : LayerSet) (p : Int × Int) : List (Option (Nat × Nat)) :=
  let x := posInt p.1
  let y := posInt p.2
  [(x, y), (x + 1, y), (x, y + 1), (x + 1, y + 1)].map (fun (q : Int × Int) =>
    if (l.srcX : Int) ≤ q.1 ∧ q.1 < l.srcX + l.srcW ∧ (l.srcY : Int) ≤ q.2 ∧ q.2 < l.srcY + l.srcH then
      some (q.1.toNat, q.2.toNat)
    else none)

/-- The source columns and rows a scaler's taps read for a pixel (R273). -/
def scaleCols (l : LayerSet) (j : Nat) : List Nat :=
  (List.range 8).map (fun (k : Nat) => clampIdx l.srcX (l.srcX + l.srcW - 1) (posInt (scalePos l.srcX l.srcW l.dstW j) - 3 + k))

/-- The source rows of a scaler's taps. -/
def scaleRows (l : LayerSet) (i : Nat) : List Nat :=
  (List.range 6).map (fun (k : Nat) => clampIdx l.srcY (l.srcY + l.srcH - 1) (posInt (scalePos l.srcY l.srcH l.dstH i) - 2 + k))

/-- The source pixels a destination pixel touches. -/
def touched (l : LayerSet) (poses : Option (Pose × Pose)) (j i : Nat) : List (Nat × Nat) :=
  if l.warp then
    let p := warpSource l poses j i
    (warpTaps l (p.1, clampRow l i p.2)).filterMap id
  else if l.scaled then (scaleRows l i).flatMap (fun y => (scaleCols l j).map (fun x => (x, y)))
  else [(l.srcX + j, l.srcY + i)]

/-! ### The colour of a pixel of a layer (R265, R266, R273, R282) -/

/-- A source pixel, expanded and linear: R, G, B, A. -/
def State.sourcePixel (s : State) (q : SceneLayer) (x y : Nat) : List Nat :=
  let c := expandPixel q.set.format (s.surfPixel (handleIndex q.handle) 0 q.set.surfW q.set.surfH q.set.format x y)
  c.zipIdx.map (fun v =>
    if v.2 = 3 ∨ q.set.degamma = 0 then v.1
    else if q.set.degamma = 1 then srgbToLinear v.1
    else tableLookup (lutOf q.lut v.2) v.1)

/-- A scaled pixel (R273). -/
def State.scaledPixel (s : State) (q : SceneLayer) (j i : Nat) : List Nat :=
  let l := q.set
  let h := tapsH l.filter l.coef (posPhase (scalePos l.srcX l.srcW l.dstW j))
  let v := tapsV l.filter l.coef (posPhase (scalePos l.srcY l.srcH l.dstH i))
  let px := (scaleRows l i).map (fun y => (scaleCols l j).map (fun x => s.sourcePixel q x y))
  (List.range 4).map (fun c =>
    let m := px.map (fun r => r.map (fun p => p.getD c 0))
    if Config.rowsFirst then filterSum v (m.map (filterSum h))
    else filterSum h ((List.range 8).map (fun k => filterSum v (m.map (fun r => r.getD k 0)))))

/-- A warped pixel (R282). -/
def State.warpedPixel (s : State) (q : SceneLayer) (poses : Option (Pose × Pose)) (j i : Nat) : List Nat :=
  let p := warpSource q.set poses j i
  let p := (p.1, clampRow q.set i p.2)
  let px := (warpTaps q.set p).map (fun t =>
    match t with
    | some a => s.sourcePixel q a.1 a.2
    | none => [0, 0, 0, 0])
  (List.range 4).map (fun c =>
    (Config.warpSample ([(p.1 % 65536).toNat, (p.2 % 65536).toNat] ++ px.map (fun v => v.getD c 0))).toNat)

/-- The colour a layer gives a destination pixel: R, G, B, A. -/
def State.layerPixel (s : State) (q : SceneLayer) (poses : Option (Pose × Pose)) (j i : Nat) : List Nat :=
  if q.shown = 4 then (fmtWidths 5).zipWith expand (unpack (fmtWidths 5) q.set.subColor)
  else if q.set.warp then s.warpedPixel q poses j i
  else if q.set.scaled then s.scaledPixel q j i
  else s.sourcePixel q (q.set.srcX + j) (q.set.srcY + i)

/-- One channel blended (R267): computed exactly, rounded once. -/
def blendChannel (mode la cs as_ cd : Nat) : Nat :=
  min 65535 (if mode = 0 then roundDiv (cs * la + cd * (65535 - la)) 65535
    else roundDiv ((if mode = 1 then cs * la * 65535 else cs * as_ * la) + cd * (65535 * 65535 - as_ * la)) (65535 * 65535))

/-- A pixel of a layer over what lies beneath it; a substitute colour blends as mode 2 (Table 9.8). -/
def blendOver (q : SceneLayer) (c under : List Nat) : List Nat :=
  (List.range 3).map (fun k =>
    blendChannel (if q.shown = 4 then 2 else q.set.blend) q.set.alpha (c.getD k 0) (c.getD 3 0) (under.getD k 0))

/-- The background of a scene (Table 9.9). -/
def Scene.background (z : Scene) : List Nat := [expand 10 (bits z.bg 9 0), expand 10 (bits z.bg 19 10), expand 10 (bits z.bg 29 20)]

/-- A linear colour as 12-bit codes (R269). -/
def Scene.codes (z : Scene) (c : List Nat) : List Nat :=
  c.zipIdx.map (fun v => if z.mode = 2 then tableLookup (lutOf z.table v.2) v.1 else linearToSrgb v.1)

/-! ### Fetches and occlusion (R272, R276, R279) -/

/-- The distinct elements of a list. -/
def dedupe {α : Type} [DecidableEq α] (l : List α) : List α := l.foldr (fun x r => x :: r.filter (fun y => decide (y ≠ x))) []

/-- The source blocks a layer needs for line `y` of a pipe that is `w` wide and begins at column `x0`. -/
def blocksFor (l : LayerSet) (poses : Option (Pose × Pose)) (x0 w y : Nat) : List (Nat × Nat) :=
  dedupe ((List.range w).flatMap (fun x =>
    match l.at_ (x0 + x) y with
    | some p => (touched l poses p.1 p.2).map (fun q => (q.1 / 8, q.2 / 8))
    | none => []))

/-- Does a layer show the contents of its buffer? -/
def SceneLayer.fetches (q : SceneLayer) : Bool := decide (q.shown ≤ 2)

/-- Does a layer occlude the cell (cx, cy) of a pipe (R272)? -/
def State.occludes (s : State) (q : SceneLayer) (x0 cx cy : Nat) : Bool :=
  let l := q.set
  q.fetches && decide (l.alpha = 65535) && !l.scaled && !l.warp &&
  (List.range 64).all (fun n =>
    let sx := ((x0 + 8 * cx + n % 8 : Nat) : Int) - l.dstX + l.srcX
    let sy := ((8 * cy + n / 8 : Nat) : Int) - l.dstY + l.srcY
    if sx < 0 ∨ sy < 0 then false
    else
      let bx := (sx / 8).toNat
      let by_ := (sy / 8).toNat
      decide (l.srcX ≤ 8 * bx) && decide (min (8 * bx + 8) l.surfW ≤ l.srcX + l.srcW) && decide (8 * bx < l.srcX + l.srcW) &&
      decide (l.srcY ≤ 8 * by_) && decide (min (8 * by_ + 8) l.surfH ≤ l.srcY + l.srcH) && decide (8 * by_ < l.srcY + l.srcH) &&
      (decide (l.blend = 0) || bit (s.surfBlock (handleIndex q.handle) 0 l.surfW l.surfH l.format 1 bx by_).1 4))

/-- The cells of a pipe that a block of a layer reaches. -/
def cellsOf (l : LayerSet) (poses : Option (Pose × Pose)) (x0 w h : Nat) (b : Nat × Nat) : List (Nat × Nat) :=
  dedupe ((List.range h).flatMap (fun y => (List.range w).filterMap (fun x =>
    match l.at_ (x0 + x) y with
    | some p => if (touched l poses p.1 p.2).any (fun q => decide (q.1 / 8 = b.1 ∧ q.2 / 8 = b.2)) then some (x / 8, y / 8) else none
    | none => none)))

/-- Is the block of a layer skipped: every cell it reaches is occluded by a layer above it (R272)? -/
def State.skipped (s : State) (above : List SceneLayer) (q : SceneLayer) (poses : Option (Pose × Pose)) (x0 w h : Nat)
    (b : Nat × Nat) : Bool :=
  (cellsOf q.set poses x0 w h b).all (fun c => above.any (fun u => s.occludes u x0 c.1 c.2))

/-- The byte ranges a pipe reads of a block: its metadata byte, and what R233 says of its slot (none of one that is CLEARED, R272). -/
def State.blockReads (s : State) (q : SceneLayer) (b : Nat × Nat) : List (Nat × Nat) :=
  let l := q.set
  let m := (s.surfBlock (handleIndex q.handle) 0 l.surfW l.surfH l.format 1 b.1 b.2).1
  [(metaOffset 0 l.surfW l.surfH l.format 1 b.1 b.2, 1)] ++
    (if bit m 5 then [] else [(slotOffset 0 l.surfW l.surfH l.format 1 b.1 b.2, fetchedBytes l.format 1 m)])

/-- A layer of the scene being composed, and of the one latched next while it shows the same buffer, is shown otherwise. -/
def State.reshow (s : State) (key handle now_ later : Nat) : State :=
  { s with bnd := { s.bnd with pipes := tabMap (fun _ => {}) s.bnd.pipes (fun _ p => { p with
      scene := { p.scene with layers := p.scene.layers.map (fun q => if q.key = key ∧ q.handle = handle then { q with shown := now_ } else q) }
      next := p.next.map (fun n => { n with
        layers := n.layers.map (fun q => if q.key = key ∧ q.handle = handle then { q with shown := later } else q) }) }) } }

/-- A layer is shown otherwise for the rest of the frame being composed. -/
def State.showNow (s : State) (key shown : Nat) : State :=
  { s with bnd := { s.bnd with pipes := tabMap (fun _ => {}) s.bnd.pipes (fun _ p => { p with
      scene := { p.scene with layers := p.scene.layers.map (fun x => if x.key = key then { x with shown := shown } else x) } }) } }

/-- A layer is hidden for the rest of the frame (R277), in the safe state for good (R525). -/
def State.hideLayer (s : State) (q : SceneLayer) : State :=
  if s.safe then s.reshow q.key q.handle 3 3 else s.showNow q.key 3

/-- LAYER_UNDERRUN (R277, R280). -/
def State.layerUnderrun (s : State) (k frame line : Nat) (q : SceneLayer) : State :=
  let s := ((s.hideLayer q).count BND_UNDERRUN_COUNT).postOwner (q.key / 128) 0x8403 (q.key % 128) frame line
  if q.set.cls = 1 then (s.countLate q.key frame 5 q.set true).markLate (s.latchOf k) q.key else s

/-- LAYER_FETCH_POISON (R279, R280, R519): hidden for the rest of this frame, then its substitute colour or nothing until a flip; the
fault is the owner's. -/
def State.layerPoison (s : State) (k frame off : Nat) (q : SceneLayer) : State :=
  let s := s.reshow q.key q.handle 3 (if q.set.late = 4 ∧ ¬ s.safe then 4 else 3)
  let s := if (s.layer q.key).buf.map Prod.fst = some q.handle then s.setLayer q.key { s.layer q.key with poison := true } else s
  let s := (s.countLate q.key frame 6 q.set false).markLate (s.latchOf k) q.key
  (s.postUe (handleIndex q.handle) off).fault1 (q.key / 128) 7 k 0x02 q.handle off

/-- A fetched block that is invalid (R233): counted, and told to the owning instance once. -/
def State.noteBlock (s : State) (q : SceneLayer) (b : Nat × Nat) : State :=
  let l := q.set
  let m := s.surfBlock (handleIndex q.handle) 0 l.surfW l.surfH l.format 1 b.1 b.2
  if (blockPixel l.format 1 m.1 m.2 0 0).isSome then s
  else
    let s := s.count TEX_META_ERR_COUNT
    if (s.layer q.key).metaPosted ∨ ¬ isInst (q.key / 128) then s
    else (s.post (q.key / 128) 0x8310 0 q.handle (metaOffset 0 l.surfW l.surfH l.format 1 b.1 b.2)).setLayer q.key
      { s.layer q.key with metaPosted := true }

/-- Fetch what a layer needs first on line `y`: blocks skipped are counted; a poisoned beat takes the layer out; corrected beats and invalid
blocks are noted. -/
def State.fetchLine (s : State) (k y x0 w h frame : Nat) (above : List SceneLayer) (q : SceneLayer) (poses : Option (Pose × Pose)) : State :=
  let before := if y = 0 then [] else blocksFor q.set poses x0 w (y - 1)
  let new := (blocksFor q.set poses x0 w y).filter (fun b => !before.contains b)
  let skip := new.filter (fun b => s.skipped above q poses x0 w h b)
  let got := new.filter (fun b => !skip.contains b)
  let s := s.count BND_SKIP_COUNT skip.length
  let reads := got.flatMap (fun b => s.blockReads q b)
  match reads.findSome? (fun r => s.badBeat? (handleIndex q.handle) r.1 r.2) with
  | some b => s.layerPoison k frame (32 * b) q
  | none =>
    let s := reads.foldl (fun t r => t.noteRead (handleIndex q.handle) r.1 r.2) s
    got.foldl (fun t b => t.noteBlock q b) s

/-! ### Fill and bands -/

/-- The slot of pipe `k` that holds a layer's part. -/
def State.slotOf (s : State) (k key : Nat) : Option Nat := (s.layer key).held.slots.find? (fun v => v / 16 = k)

/-- The fill a layer's slot reports (R276): as much as it can hold where none is reported. -/
def State.fillOf (s : State) (slot : Nat) (q : SceneLayer) : Nat := (tabGet (fun _ => none) (s.layer q.key).fills slot).getD q.set.depth

/-- A slot of pipe `k` reports its fill (R33, R276): a crossing below CRIT_WM is counted, and told to the owner once a frame. -/
def State.reportFill (s : State) (k frame : Nat) (f : Nat × Nat) : State :=
  let slot := 16 * k + f.1
  match (s.pipe k).scene.layers.find? (fun q => s.slotOf k q.key = some slot) with
  | none => s
  | some q =>
    let was := s.fillOf slot q
    let s := s.setLayer q.key { s.layer q.key with fills := tabSet (fun _ => none) (s.layer q.key).fills slot (some f.2) }
    if f.2 < q.set.critWm ∧ q.set.critWm ≤ was then
      let s := (s.count BND_CRIT_COUNT).occur { event := 0x3004, unit := k, inst := q.key / 128, cls := some q.set.cls }
      if (s.layer q.key).critPosted then s
      else (s.postOwner (q.key / 128) 0x8401 (q.key % 128) frame 0).setLayer q.key { s.layer q.key with critPosted := true }
    else s

/-- The pose pipe `k` uses for a layer. -/
def State.poseIn (s : State) (k : Nat) (q : SceneLayer) : Option (Pose × Pose) :=
  if q.set.warp then warpPose q.pose (tabGet (fun _ => none) (s.layer q.key).poses k) else none

/-- WARP_BAND_START (R281 to R283, R525): a band of a warped layer takes the current pose if it is fresh, which ends a stale episode; a band that
reaches beyond the margin is counted, and told to the owner once a frame. -/
def State.startBand (s : State) (k y x0 w frame : Nat) (q : SceneLayer) : State :=
  let l := q.set
  let i := ((y : Int) - l.dstY).toNat
  if l.warp ∧ l.dstY ≤ (y : Int) ∧ (y : Int) < l.dstY + l.dstH ∧ (i % l.warpBand = 0 ∨ y = 0) then
    let s := match s.bnd.pose with
      | some p =>
        if s.now - p.time ≤ 2000000 ∧ ¬ s.safe then
          (s.setLayer q.key { s.layer q.key with poses := tabSet (fun _ => none) (s.layer q.key).poses k (some p) }).setF
            BND_MOTION_STATUS BND_MOTION_STATUS_POSE_STALE 0
        else s
      | none => s
    let poses := s.poseIn k q
    let beyond := (List.range l.warpBand).any (fun n => (List.range w).any (fun x =>
      match l.at_ (x0 + x) (y - i % l.warpBand + n) with
      | some p => beyondMargin l poses p.1 p.2
      | none => false))
    if beyond then
      let s := (s.count BND_WARP_CLAMP_COUNT).setLayer q.key { s.layer q.key with clamped := true }
      if (s.layer q.key).clampPosted then s
      else (s.postOwner (q.key / 128) 0x8405 (q.key % 128) frame 0).setLayer q.key { s.layer q.key with clampPosted := true }
    else s
  else s

/-! ### The line -/

/-- Table 10.7. -/
def ditherMatrix : List Nat := [0, 8, 2, 10, 12, 4, 14, 6, 3, 11, 1, 9, 15, 7, 13, 5]

/-- A 12-bit code reduced to `bpc` bits (R307). -/
def reduceCode (mode bpc frame x y c : Nat) : Nat :=
  let d := 12 - bpc
  let col := if mode = 2 then (x + frame % 4) % 4 else x % 4
  let m := ditherMatrix.getD (4 * (y % 4) + col) 0
  min (2 ^ bpc - 1) (if mode = 0 then (c + 2 ^ (d - 1)) / 2 ^ d else (c + m * 2 ^ d / 16) / 2 ^ d)

/-- A pixel as the FIFO stores it (R307). -/
def storedPixel (mode bpc frame x y : Nat) (codes : List Nat) : Nat :=
  let v := codes.map (fun c => reduceCode mode bpc frame x y c * 2 ^ (10 - bpc))
  v.getD 0 0 + 2 ^ 10 * v.getD 1 0 + 2 ^ 20 * v.getD 2 0

/-- The codes of line `y` of pipe `k`, the C0 plane blended over them (R265, R271). -/
def State.lineCodes (s : State) (k y x0 w : Nat) : List (List Nat) :=
  let z := (s.pipe k).scene
  let codes := (List.range w).map (fun x =>
    z.codes (z.layers.foldl (fun u q =>
      match q.set.at_ (x0 + x) y with
      | some p => if q.shown = 3 then u else blendOver q (s.layerPixel q (s.poseIn k q) p.1 p.2) u
      | none => u) z.background))
  if z.c0On then c0Blend (s.c0Line z.c0 y) codes else codes

/-- The wear map's sums of a line (R478). -/
def addZones (frame y w h : Nat) (codes : List (List Nat)) (m : Tab Nat) : Tab Nat :=
  codes.zipIdx.foldl (fun m x =>
    let i := 2304 * frame + 36 * y / h * 64 + 64 * x.2 / w
    tabSet (fun _ => 0) m i (tabGet (fun _ => 0) m i + (x.1.getD 0 0 + 2 * x.1.getD 1 0 + x.1.getD 2 0) / 4 / 16)) m

/-- A composed line goes on: to the checker, the wear map, the FIFO (unless it was sent as fill, R308) and the windows. -/
def State.putLine (s : State) (k y w h frame : Nat) (codes : List (List Nat)) : State :=
  let z := (s.pipe k).scene
  let s := if z.c0On then
      s.feedChecker k frame y (((covered (s.c0Line z.c0 y)).filterMap (fun p => codes[p.1]?)))
    else s
  let words := if s.getF (OUT_CTRL k) OUT_CTRL_BLANK = 1 then List.replicate w (s.reg (OUT_FILL k))
    else codes.zipIdx.map (fun x => storedPixel (s.getF (OUT_CTRL k) OUT_CTRL_DITHER) (s.getF (OUT_LINK k) OUT_LINK_BPC) frame x.2 y x.1)
  let o := s.outp k
  let late := o.late.contains (frame, y)
  let s := s.setOutp k { o with
    zones := addZones frame y w h codes o.zones
    fifo := if late then o.fifo else o.fifo ++ [⟨y, frame, words⟩] }
  (s.feedWindows k frame y words).setPipe k { s.pipe k with nextLine := y + 1 }

/-- Compose line `y` of the scene pipe `k` works on, unless it waits for a layer (R277). -/
def State.composeLine (s : State) (k y : Nat) : State :=
  let w := s.getF (OUT_HACTIVE k) OUT_HACTIVE_ACTIVE
  let h := s.getF (OUT_VACTIVE k) OUT_VACTIVE_ACTIVE
  let x0 := s.pipeLeft k
  let z := (s.pipe k).scene
  let s := z.layers.foldl (fun t q => if q.fetches then t.startBand k y x0 w z.frame q else t) s
  let lacking := z.layers.filter (fun q => q.fetches && decide (blocksFor q.set (s.poseIn k q) x0 w y ≠ []) &&
    (match s.slotOf k q.key with
     | some v => decide (s.fillOf v q = 0)
     | none => false))
  if lacking ≠ [] ∧ 2 < (s.outp k).fifo.length then s
  else
    let s := lacking.foldl (fun t q => t.layerUnderrun k z.frame y q) s
    let all_ := (s.pipe k).scene.layers
    let s := all_.zipIdx.foldl (fun t p =>
      if p.1.fetches then t.fetchLine k y x0 w h z.frame (all_.drop (p.2 + 1)) p.1 (t.poseIn k p.1) else t) s
    let s := (all_.filter (fun q => (List.range w).any (fun x => (q.set.at_ (x0 + x) y).isSome))).foldl (fun (t : State) q =>
      t.occur { event := 0x3003, unit := k, inst := q.key / 128, cls := some q.set.cls }) s
    s.putLine k y w h z.frame (s.lineCodes k y x0 w)

/-- A frame begins to be composed once the one before is done: the pipe takes the scene latched for it. -/
def State.takeScene (s : State) (k : Nat) : State :=
  let p := s.pipe k
  if p.busy ∧ p.nextLine < s.getF (OUT_VACTIVE k) OUT_VACTIVE_ACTIVE then s
  else
    match p.next with
    | some z => s.setPipe k { p with scene := z, next := none, busy := true, nextLine := 0 }
    | none => s.setPipe k { p with busy := false }

/-- BND_COMPOSE_LINE (R277): the slots that do not hold all they can report their fill, and the pipe composes the next line of its frame once its
output runs and its FIFO has room. -/
def execBndComposeLine (pipe : Nat) (fills : List (Nat × Nat)) (s : State) : Host.Outcome State Fault Refusal :=
  .next (if pipe < 8 ∧ s.outState pipe = 1 then
    let s := s.takeScene pipe
    let s := fills.foldl (fun t f => if f.1 < 16 then t.reportFill pipe (t.pipe pipe).scene.frame f else t) s
    let y := (s.pipe pipe).nextLine
    if (s.pipe pipe).busy ∧ y < s.getF (OUT_VACTIVE pipe) OUT_VACTIVE_ACTIVE ∧ (s.outp pipe).fifo.length < s.fifoCapacity pipe then
      s.composeLine pipe y
    else s
  else s)

end Sys2Proof.Machine
end

