-- ==== Sys2Proof/Machine/Latch.lean ====
section
/-! DEFINITION. The latch of an output, the start of its timing and the start of a frame (R291, R292, R298, R305, R307, R478). -/

namespace Sys2Proof.Machine

/-- The charges of the layers of output `k` at its new timing (R261). -/
def State.recharge (s : State) (k : Nat) : State :=
  { s with bnd := { s.bnd with layers := tabMap (fun _ => {}) s.bnd.layers (fun _ x =>
      let again := fun (l : LayerSet) (r : LayerRes) =>
        { r with fetch := (s.partsOf l).map (fun p => (p.1, s.fetchCharge l)) }
      let x := match x.cur with
        | some l => if l.output = k then { x with held := again l x.held } else x
        | none => x
      match x.pend with
      | some (l, _) => if l.output = k ∧ l.enable then { x with reserved := again l x.reserved } else x
      | none => x) } }

/-- The plane of a pipe for its next frame (R271, R358): what a latch found, while C0 is on. -/
def State.latchPlane (s : State) (frame k : Nat) : State :=
  let on := decide (s.getF (BND_C0 k) BND_C0_C0_EN = 1)
  let p := s.pipe k
  s.setPipe k { p with next := p.next.map (fun z => { z with c0 := if on then s.spritesNow k frame else [], c0On := on }) }

/-- The latch line's registers and event (R292). -/
def State.noteLatch (s : State) (frame k : Nat) : State :=
  let s := s.setReg64 (OUT_LATCH_TIME_LO k) s.now
  if s.getF (OUT_CTRL k) OUT_CTRL_FRAME_EV = 1 then s.postOut k 0x8501 0 frame s.now else s

/-- The latch of output `k` (R292): windows and their hidden layers, the Bindery's settings, tables and flips, the telltales, then what each
checker and window looks at in the coming frame. In the safe state no setting takes effect (R525). -/
def State.latch (s : State) (k : Nat) : State :=
  let frame := s.frame k + 1
  let hs := s.halves k
  let s := if s.safe then s else hs.foldl (fun t j => t.latchWindows frame j) s
  let s := if s.safe then s else hs.foldl (fun t j => (List.range 16).foldl (fun u w => u.settleEscalation j w) t) s
  let s := (s.latchBindery k frame).latchTelltales frame k
  let s := hs.foldl (fun t j => ((t.latchCheckers frame j).latchPlane frame j).latchRuns frame j) s
  hs.foldl (fun t j => t.noteLatch frame j) s

/-- OUT_LATCH (R292, R293, R298 step 1): the latch line of a running output starts. With a timing change committed no latch takes place and
the change begins. -/
def execOutLatch (out : Nat) (s : State) : Host.Outcome State Fault Refusal :=
  .next (if out < 8 ∧ s.outState out = 1 ∧ s.latchOf out = out then
    match (s.outp out).change with
    | some c => if c.step = 0 then s.setOutp out { s.outp out with change := some { c with step := 1 } } else s
    | none => s.latch out
  else s)

/-- OUT_TIMING_STARTED (R298 step 5, R299, R337, R339): the timing generator starts at the new latch line, the output is RUNNING with nothing
composed, windows that no longer fit go off, checking starts anew, and the first latch takes place. -/
def execOutTimingStarted (out : Nat) (s : State) : Host.Outcome State Fault Refusal :=
  .next (match (s.outp out).change with
    | some c =>
      if c.step = 4 ∧ out < 8 then
        let s := (s.startTiming out c).recharge out
        let s := (s.halves out).foldl (fun t j =>
          ((t.setPipe j { t.pipe j with busy := false, next := none }).fitWindows j).startChecking j) s
        ((s.halves out).foldl (fun t j => t.stateTolerance j) s).latch out
      else s
    | none => s)

/-- A frame that no latch preceded shows what the one before showed (R303). -/
def State.carryFrame (s : State) (frame k : Nat) : State :=
  let p := s.pipe k
  if p.scene.frame = frame ∨ (p.next.map Scene.frame) = some frame then s
  else
    let s := s.setPipe k { p with next := some { p.next.getD p.scene with frame := frame } }
    (s.latchCheckers frame k).latchRuns frame k

/-- What line 0 does to one half: the wear map takes the frame sent (R478), the frame number rises (R291), the marks of the old frame go, and
ADVANCE takes effect (R292). -/
def State.frameStart (s : State) (k : Nat) : State :=
  let s := s.settleWear k
  let f := (s.frame k + 1) % 2 ^ 64
  let o := s.outp k
  let s := s.setReg64 (OUT_FRAME_LO k) f
  let adv := s.getF (OUT_LATCH k) OUT_LATCH_ADVANCE
  let s := s.setF (OUT_LATCH k) OUT_LATCH_LINE (s.getF (OUT_VACTIVE k) OUT_VACTIVE_ACTIVE - adv)
  (s.setOutp k { o with
    underrunPosted := false, poisonPosted := false, dsiSent := 0, teFirst := false, teEdge := false, line0 := s.now, advance := adv
    fifo := (if o.sending then o.fifo.drop 1 else o.fifo).filter (fun l => decide (f ≤ l.frame)), sending := false
    late := o.late.filter (fun q => decide (f ≤ q.1 + 1)), replaced := o.replaced.filter (fun q => decide (f ≤ q.1 + 1)) }).carryFrame f k

/-- OUT_FRAME_START (R291, R298 step 6): line 0 begins; a timing change replies with the frame number and the achieved clock. -/
def execOutFrameStart (out : Nat) (s : State) : Host.Outcome State Fault Refusal :=
  .next (if out < 8 ∧ s.outState out = 1 ∧ s.latchOf out = out then
    let s := (s.halves out).foldl (fun t j => t.frameStart j) s
    match (s.outp out).change with
    | some c => if c.step = 5 then s.endChange out (b2n c.failed) (s.frame out) c.hz else s
    | none => s
  else s)

end Sys2Proof.Machine
end

