-- ==== Sys2Proof/Machine/Registrar.lean ====
section
/-! DEFINITION. The Registrar: storage and its rooms (R121, R122, R151), granule moves (R126 to R129), epochs (R123 to R125), allocation
and the shelfmark commands (R110 to R120, R239 to R241), regions, the reserve and Carrel banks (R152 to R154, R176). -/

namespace Sys2Proof.Machine

/-! ### Storage -/

/-- Is region `n` enabled? -/
def State.regionOn (s : State) (n : Nat) : Bool := s.getF (MEM_REGION_CFG n) MEM_REGION_CFG_ENABLED = 1

/-- The data area of a region in MiB (R149). -/
def dataMib (folio : Bool) (mib : Nat) : Nat := if folio then mib / 35 * 32 else mib

/-- The data area of a region in granules, 0 if it is not enabled. -/
def State.regionGranules (s : State) (n : Nat) : Nat :=
  if s.regionOn n then 16 * dataMib (s.folioPlace (.region n)) (s.getF (MEM_REGION_CFG n) MEM_REGION_CFG_SIZE_MIB) else 0

/-- Is a bank locked; does it hold C0 content (R176, R177)? -/
def State.bankLocked (s : State) (b : Nat) : Bool := (s.getF MEM_CARREL_LOCK MEM_CARREL_LOCK_LOCKED).testBit b
def State.bankHeld (s : State) (b : Nat) : Bool := (s.getF MEM_CARREL_LOCK MEM_CARREL_LOCK_STRG_HOLD).testBit b

/-- The granules a place can hold; a bank with C0 content is given to no object (assumption 9). -/
def State.capacity (s : State) : Place → Nat
  | .region n => s.regionGranules n
  | .bank b => if s.bankHeld b then 0 else 48

/-- The granules of an object that hold storage: all, or the resident tiles of a sparse one. -/
def Obj.stored (o : Obj) : List Nat :=
  match o.desc.sparse with
  | some l => l
  | none => List.range o.granules

/-- How many (R116, R240). -/
def Obj.used (o : Obj) : Nat := o.stored.length

/-- The granules of an object at a place. -/
def Obj.countAt (o : Obj) (p : Place) : Nat := (o.stored.filter (fun g => decide (o.place g = p))).length

/-- The live objects with their indices. -/
def State.objects (s : State) : List (Nat × Obj) := s.shm.entries.filterMap (fun e => e.2.obj.map (fun o => (e.1, o)))

/-- Storage at a place that still drains. -/
def State.drainAt (s : State) (p : Place) : Nat :=
  (s.shm.draining.map (fun d => ((d.places.filter (fun x => decide (x.1 = p))).map Prod.snd).foldl (· + ·) 0)).foldl (· + ·) 0

/-- The granules in use at a place: objects, what drains, targets of moves, the bin arena. -/
def State.usedAt (s : State) (p : Place) : Nat :=
  (s.objects.map (fun o => o.2.countAt p)).foldl (· + ·) 0 + s.drainAt p +
    (s.shm.moves.filter (fun m => decide (m.target = p))).length +
    ((s.mem.arena.filter (fun a => decide (Place.region a.1 = p))).map Prod.snd).foldl (· + ·) 0

/-- The room a place has. -/
def State.roomAt (s : State) (p : Place) : Nat := s.capacity p - s.usedAt p

/-- May an object of a class be placed there now (Table 4.9)? Storage that a command empties takes nothing it must give up. -/
def State.permits (s : State) (cls : Nat) (p : Place) : Bool :=
  match p with
  | .region n => s.regionOn n && (decide (cls ≠ 1) || s.folioPlace p) && !s.shm.leaving.any (fun q => decide (q.1 = p))
  | .bank b => !s.bankHeld b && (decide (cls = 1) || (!s.bankLocked b && !s.shm.leaving.any (fun q => decide (q.1 = p))))

/-- The address orders an object prefers, by its lowest USAGE bit (Table 4.3). -/
def orderPreference (usage : Nat) : List Nat :=
  match (List.range 10).find? (fun b => usage.testBit b) with
  | some 0 => [3, 1, 0, 2]
  | some 1 => [1, 2, 3, 0]
  | some 2 => [1, 2, 3, 0]
  | some b => if b ≤ 6 then [2, 1, 0, 3] else [0, 1, 2, 3]
  | none => [0, 1, 2, 3]

/-- The regions of an address order, ascending. -/
def State.regionsOf (s : State) (order : Nat) (folio : Bool) : List Nat :=
  (List.range 8).filter (fun n => s.regionOn n && decide (s.getF (MEM_REGION_CFG n) MEM_REGION_CFG_ORDER = order) &&
    decide (s.folioPlace (.region n) = folio))

/-- The DRAM regions an object may lie in, best first (R122, rule 3). -/
def State.dramOrder (s : State) (usage cls : Nat) : List Place :=
  (((orderPreference usage).flatMap (fun o => if cls = 1 then s.regionsOf o true else s.regionsOf o false ++ s.regionsOf o true)).map
    Place.region).filter (fun p => s.permits cls p)

/-- Spread `n` granules over places, filling each before the next; none where they do not fit. -/
def spread (room : Place → Nat) : Nat → List Place → Option (List (Place × Nat))
  | 0, _ => some []
  | _ + 1, [] => none
  | n + 1, p :: r =>
    let k := min (n + 1) (room p)
    (spread room (n + 1 - k) r).map (fun l => if k = 0 then l else (p, k) :: l)

/-- Where `n` granules go at allocation (R122, rule 4); none while there is no room. -/
def State.placeNew (s : State) (usage cls n : Nat) : Option (List (Place × Nat)) := spread s.roomAt n (s.dramOrder usage cls)

/-- Would they fit once everything that drains has drained? -/
def State.fitsLater (s : State) (usage cls n : Nat) : Bool :=
  (spread (fun p => s.roomAt p + s.drainAt p) n (s.dramOrder usage cls)).isSome

/-- The bin arena in granules. -/
def State.arenaTotal (s : State) : Nat := (s.mem.arena.map Prod.snd).foldl (· + ·) 0

/-- The memory quota pool (R151, R157). -/
def State.quotaPool (s : State) : Nat :=
  if s.getF MEM_STATUS MEM_STATUS_DRAM_FAIL = 1 then 0
  else ((List.range 8).map s.regionGranules).foldl (· + ·) 0 - s.shm.movePool - s.arenaTotal

/-- The granules the code store takes of the manager's quota: its size, or what its programs still hold after a shrink (R202, R215). -/
def State.codeGranules (s : State) : Nat :=
  max (16 * s.getF RND_CODE_STATUS RND_CODE_STATUS_CODE_MIB) (s.getF RND_CODE_STATUS RND_CODE_STATUS_USED)

/-- The quota an owner uses. -/
def State.memUsed (s : State) (owner : Nat) : Nat :=
  (if owner = 0 then s.codeGranules else 0) +
  ((s.objects.filter (fun o => decide (o.2.owner = owner))).map (fun o => o.2.used)).foldl (· + ·) 0

/-- The quota an owner may use. -/
def State.memLimit (s : State) (owner : Nat) : Nat := s.limitOf owner s.quotaPool Grant.mem

/-- The move pool in use: targets of moves, and old copies that drain after a flip (R154). -/
def State.reserveUsed (s : State) : Nat := s.shm.moves.length + (s.shm.draining.filter (fun d => d.gran.isSome)).length

/-- What is free in it (Table 4.22). -/
def State.reserveFree (s : State) : Nat := s.shm.movePool - s.reserveUsed

/-- Bytes and stored errors of granules `g` to `g + n` of an object are gone. -/
def State.wipe (s : State) (i g n : Nat) : State :=
  let s := { s with mem := { s.mem with
      data := tabDropRange s.mem.data (cellAddr i (65536 * g)) (cellAddr i (65536 * (g + n)))
      errors := tabDropRange s.mem.errors (cellAddr i (65536 * g) / 32) (cellAddr i (65536 * (g + n)) / 32) } }
  if tabGet (fun _ => 0) s.mem.spoiled i = 0 then s
  else if 262144 ≤ n then { s with mem := { s.mem with spoiled := tabSet (fun _ => 0) s.mem.spoiled i 0 } }
  else s.putBytes i (65536 * g) (List.replicate (65536 * n) 0)

/-! ### Moves (R124, R126 to R129) -/

/-- The heat of a granule over eight epochs (R122). -/
def Gran.heatSum (g : Gran) : Nat := g.heat.foldl (· + ·) 0

/-- Is a granule hot enough for the Carrel (R122, rule 2)? -/
def State.hot (s : State) (o : Obj) (g : Nat) : Bool :=
  decide (8 * 1024 * s.getF REGR_CARREL_THRESH REGR_CARREL_THRESH_KIB ≤ (o.gran g).heatSum) && decide (bits o.desc.attr 5 4 ≠ 1)

/-- How well a place suits a granule: the lower the better (R122). -/
def State.placeRank (s : State) (o : Obj) (g : Nat) (p : Place) : Nat :=
  match p with
  | .bank b => if s.hot o g then (if s.bankLocked b then 0 else 1) else 100
  | .region _ => 10 + ((s.dramOrder o.desc.usage o.desc.cls).findIdx? (fun q => decide (q = p))).getD 50

/-- The move of a granule in flight, if any. -/
def State.move? (s : State) (i g : Nat) : Option Move := s.shm.moves.find? (fun m => decide (m.index = i ∧ m.gran = g))

/-- A move begins if the reserve and the target have room (Table 4.12 step 1). -/
def State.startMove (s : State) (i g : Nat) (p : Place) (byCommand : Bool) : State :=
  if s.reserveFree = 0 ∨ s.roomAt p = 0 ∨ (s.move? i g).isSome then s
  else { s with shm := { s.shm with moves := s.shm.moves ++ [{ index := i, gran := g, target := p, byCommand := byCommand }] } }

/-- A move is cancelled (R128): the old copy stays; told of at most once for each object and epoch. -/
def State.cancelMove (s : State) (m : Move) (reason : Nat) : State :=
  let s := { s with shm := { s.shm with moves := s.shm.moves.filter (fun x => decide (x ≠ m)) } }
  let s := (s.count REGR_CANCEL_COUNT).occur { event := 0x8002, unit := 0 }
  match (s.shelf m.index).obj with
  | none => s
  | some o =>
    let s := if reason = 1 then
        s.setObj m.index (fun o => o.setGran m.gran { o.gran m.gran with flipEpoch := some s.shm.epochIndex }) else s
    if s.shm.cancelled.contains o.desc.handle then s
    else
      ({ s with shm := { s.shm with cancelled := o.desc.handle :: s.shm.cancelled } }).postMgr 0x8202 reason o.desc.handle o.owner

/-- Every move that satisfies `p` is cancelled. -/
def State.cancelMoves (s : State) (p : Move → Bool) (reason : Nat) : State :=
  (s.shm.moves.filter p).foldl (fun t m => t.cancelMove m reason) s

/-- The beats of granule `g` of an object that have stored errors. -/
def State.errorsIn (s : State) (i g : Nat) : List Nat :=
  (tabRange s.mem.errors (cellAddr i (65536 * g) / 32) (cellAddr i (65536 * (g + 1)) / 32)).map (fun p => p.1 - cellAddr i 0 / 32)

/-- GRANULE_COPY_PASS_DONE (R126, R128, R129): the first or a re-copy pass is complete. An uncorrectable source beat cancels the move; with at
most 16 dirty lines the write hold follows; otherwise one more pass, of which there are at most three. -/
def execGranuleCopyPassDone (index gran : Nat) (s : State) : Host.Outcome State Fault Refusal := if s.safe then .next s else
  .next (match s.move? index gran with
    | none => s
    | some m =>
      if m.hold then s
      else
        let s := if m.firstDone then s else s.noteRead index (65536 * gran) 65536
        if (s.errorsIn index gran).any (fun b => s.beatBad index b) then s.cancelMove m 2
        else
          let put := fun (x : Move) => { s with shm := { s.shm with moves := s.shm.moves.map (fun y => if y = m then x else y) } }
          if m.dirty.length ≤ 16 then put { m with firstDone := true, hold := true }
          else if m.passes < 3 then put { m with firstDone := true, passes := m.passes + 1, dirty := [] }
          else s.cancelMove m 1)

/-- GRANULE_FLIP (R126, R127, R129): the location switches, the copy generation rises, errors that can be corrected have been; the old storage
drains. A target that no longer suits the class ends the move (reason 6). -/
def execGranuleFlip (index gran : Nat) (s : State) : Host.Outcome State Fault Refusal := if s.safe then .next s else
  .next (match s.move? index gran, (s.shelf index).obj with
    | some m, some o =>
      if ¬ m.hold then s
      else if ¬ s.permits o.desc.cls m.target then s.cancelMove m 6
      else
        let old := o.place gran
        let s := (s.errorsIn index gran).foldl (fun t b => t.settleBeat index b) s
        let s := s.setObj index (fun o => o.setGran gran { o.gran gran with
          place := some m.target, copyGen := ((o.gran gran).copyGen + 1) % 256, flipEpoch := some s.shm.epochIndex, shadow := none })
        let s := { s with shm := { s.shm with
          moves := s.shm.moves.filter (fun x => decide (x ≠ m))
          draining := s.shm.draining ++ [Drain.mk index (some gran) o.owner [(old, 1)] 0 0] } }
        (s.count REGR_MOVE_COUNT).occur { event := 0x8001, unit := 0 }
    | _, _ => s)

/-- MOVE_READ_DRAIN (Table 4.12 step 7): the old storage returns to the reserve. -/
def execMoveReadDrain (index gran : Nat) (s : State) : Host.Outcome State Fault Refusal := if s.safe then .next s else
  .next { s with shm := { s.shm with
    draining := dropFirst (fun d => decide (d.index = index ∧ d.gran = some gran)) s.shm.draining } }

/-- MOVE_TIME_LIMIT (R128): steps 2 and 3 have taken more than 1 ms. -/
def execMoveTimeLimit (index gran : Nat) (s : State) : Host.Outcome State Fault Refusal := if s.safe then .next s else
  .next (match s.move? index gran with
    | some m => if m.hold then s else s.cancelMove m 5
    | none => s)

/-- Does a frame being composed, or one latched, show the object at an index? -/
def State.framesRead (s : State) (i : Nat) : Bool :=
  s.bnd.pipes.any (fun q => (q.2.busy && q.2.scene.layers.any (fun l => decide (handleIndex l.handle = i))) ||
    ((q.2.next.map Scene.layers).getD []).any (fun l => decide (handleIndex l.handle = i)))

/-- STORAGE_DRAIN_COMPLETE (R117): no engine references the freed storage any more; it and its DVA range are free. -/
def execStorageDrainComplete (index : Nat) (s : State) : Host.Outcome State Fault Refusal := if s.safe ∨ s.framesRead index then .next s else
  let s := if (s.shelf index).obj.isNone then s.wipe index 0 262144 else s
  .next { s with shm := { s.shm with draining := dropFirst (fun d => decide (d.index = index ∧ d.gran = none)) s.shm.draining } }

/-! ### Epochs (R123 to R125) -/

/-- Does a C1 object have a granule in DRAM outside its first address order (Table 4.24)? -/
def State.outsideFirst (s : State) (o : Obj) : Bool :=
  decide (o.desc.cls = 1) && o.stored.any (fun g =>
    match o.place g with
    | .region n => decide (some (s.getF (MEM_REGION_CFG n) MEM_REGION_CFG_ORDER) ≠ (orderPreference o.desc.usage).head?)
    | .bank _ => false)

/-- A granule at an epoch boundary: its traffic becomes the newest of eight heats. -/
def Gran.newEpoch (g : Gran) : Gran :=
  if g.traffic = 0 ∧ g.heat.all (fun h => decide (h = 0)) then { g with heat := [] }
  else { g with heat := (g.traffic :: g.heat).take 8, traffic := 0 }

/-- PLACEMENT_EPOCH (R123, R125, R456, Table 4.24): none starts while the device drains or sleeps; heat is snapshot, PAUSE takes effect, an owner is told of a C1 object that has lain outside its first
address order for eight epochs, and the policy run starts unless it is paused or down. -/
def execPlacementEpoch (s : State) : Host.Outcome State Fault Refusal :=
  if s.pwr.entry.isSome || s.dormant || s.safe then .next s else
  let s := { s with shm := { s.shm with
    epochIndex := s.shm.epochIndex + 1, cancelled := []
    entries := s.shm.entries.map (fun (e : Nat × ShelfEntry) => (e.1, { e.2 with obj := e.2.obj.map (fun (o : Obj) =>
      { o with grans := tabMap (fun _ => {}) o.grans (fun _ g => g.newEpoch), degraded := if s.outsideFirst o then o.degraded + 1 else 0 }) })) } }
  let s := (s.objects.filter (fun (o : Nat × Obj) => decide (o.2.degraded = 8) && isInst o.2.owner)).foldl (fun (t : State) (o : Nat × Obj) =>
    t.post o.2.owner 0x8204 0 o.2.desc.handle 0) s
  let paused := s.getF REGR_CTRL REGR_CTRL_PAUSE
  let s := s.setF REGR_STATUS REGR_STATUS_PAUSED paused
  .next { s with shm := { s.shm with policyRun := decide (paused = 0) && decide (s.getF REGR_STATUS REGR_STATUS_POLICY_UP = 1) && s.clerkRuns } }

/-- The place a number stands for: regions 0 to 7, banks from 16. -/
def placeOf (n : Nat) : Option Place := if n < 8 then some (.region n) else if 16 ≤ n ∧ n < 32 then some (.bank (n - 16)) else none

/-- May the Registrar make this move of its own choosing (R121, R122, R124)? -/
def State.moveAllowed (s : State) (i g : Nat) (p : Place) : Bool :=
  match (s.shelf i).obj with
  | none => false
  | some o =>
    o.stored.contains g && s.permits o.desc.cls p && decide (s.placeRank o g p < s.placeRank o g (o.place g)) &&
    (match p with
     | .bank _ => s.hot o g
     | .region _ => true) &&
    (match (o.gran g).flipEpoch with
     | some e => decide (e + s.getF REGR_CTRL REGR_CTRL_HOLD_EPOCHS < s.shm.epochIndex)
     | none => true)

/-- The order in which moves are taken: by class, then HEAT hot, then heat (R122, R124). -/
def State.moveKey (s : State) (m : Nat × Nat × Nat) : Nat :=
  match (s.shelf m.1).obj with
  | some o => o.desc.cls * 2 ^ 64 + (if bits o.desc.attr 5 4 = 2 then 0 else 2 ^ 63) + (2 ^ 62 - min (2 ^ 62) (o.gran m.2.1).heatSum)
  | none => 0

/-- May a peer mirror a granule of the object (R136)? -/
def State.mirrorAllowed (s : State) (i peer : Nat) : Bool :=
  match (s.shelf i).obj with
  | some o =>
    decide (s.getF REGR_CTRL REGR_CTRL_SPAN_EN = 1) && isInst o.owner && (s.inst o.owner).span && bit o.desc.attr 1 &&
      decide (o.desc.cls ≠ 1) && s.fab.reach.contains peer
  | none => false

/-- May a granule be shadowed in a bank (R130)? -/
def State.shadowAllowed (s : State) (i g b : Nat) : Bool :=
  match (s.shelf i).obj with
  | some o =>
    decide (s.getF REGR_CTRL REGR_CTRL_PREFETCH_EN = 1) && bit o.desc.attr 0 && decide (o.desc.period ≠ 0) && o.stored.contains g &&
      !s.bankLocked b && !s.bankHeld b
  | none => false

/-- EPOCH_DECISIONS_PUBLISHED (R122, R124, R130, R131, R136): the policy run has published its decisions: moves (index, granule, place),
allotments (owner, share of 256), shadows (index, granule, bank), mirrors (index, granule, peer). Only what the rules permit is taken up: moves
up to the budget, no owner's share below its SHADER_SHARE. -/
def execEpochDecisionsPublished (moves : List (Nat × Nat × Nat)) (allot : List (Nat × Nat)) (shadows mirrors : List (Nat × Nat × Nat)) (s : State) :
    Host.Outcome State Fault Refusal := if s.clerkRuns = false then .next s else
  .next (if s.shm.policyRun then
    let n := s.reg64 REGR_EPOCH_LO + 1
    let s := ({ s with shm := { s.shm with
      policyRun := false
      allotments := allot.map (fun (a : Nat × Nat) => (a.1, if isInst a.1 then max a.2 (s.inst a.1).grant.shader else a.2)) } }).setReg64 REGR_EPOCH_LO n
    let s := s.occur { event := 0x8003, unit := 0 }
    let ok := moves.filter (fun m => ((placeOf m.2.2).map (fun p => s.moveAllowed m.1 m.2.1 p)).getD false)
    let s := ((sortBy s.moveKey ok).take (s.getF REGR_CTRL REGR_CTRL_MOVE_BUDGET)).foldl (fun t m =>
      match placeOf m.2.2 with
      | some p => t.startMove m.1 m.2.1 p false
      | none => t) s
    let s := shadows.foldl (fun t h =>
      if h.2.2 < 16 ∧ t.shadowAllowed h.1 h.2.1 h.2.2 then
        t.setObj h.1 (fun o => o.setGran h.2.1 { o.gran h.2.1 with shadow := some h.2.2 }) else t) s
    mirrors.foldl (fun t h =>
      if t.mirrorAllowed h.1 h.2.2 then
        t.setObj h.1 (fun o => if (o.gran h.2.1).mirrors.contains h.2.2 then o
          else o.setGran h.2.1 { o.gran h.2.1 with mirrors := (o.gran h.2.1).mirrors ++ [h.2.2] })
      else t) s
  else s)

/-- EPOCH_OVERRUN (R125): the decisions are not ready within 400 µs. -/
def execEpochOverrun (s : State) : Host.Outcome State Fault Refusal :=
  .next (if s.shm.policyRun then
    (({ s with shm := { s.shm with policyRun := false } }).count REGR_OVERRUN_COUNT).postMgr 0x8201 0 (s.reg64 REGR_EPOCH_LO) 0
  else s)

/-- XDEV_WAIT_EXPIRY (R139): a command has waited XDEV_WAIT_MS for a peer and ends with no effect. -/
def execXdevWaitExpiry (pk : Pkt) (s : State) : Host.Outcome State Fault Refusal := if s.clerkRuns = false then .next s else
  .next (if s.shm.xdevWaits.contains pk ∧ (s.flightOf pk).any (fun f => !f.committed) then
    ({ s with shm := { s.shm with xdevWaits := s.shm.xdevWaits.filter (fun q => decide (q ≠ pk)) } }).complete pk .dependencyFailed 0
  else s)

/-! ### Allocation (R110 to R117, R239, R240) -/

/-- May an owner take this index: an instance one of its range, the manager one of no range? -/
def State.indexOf (s : State) (owner i : Nat) : Bool :=
  if isInst owner then decide ((s.inst owner).shelfBase ≤ i) && decide (i < (s.inst owner).shelfBase + (s.inst owner).grant.shelf)
  else !s.liveInsts.any (fun n => decide ((s.inst n).shelfBase ≤ i) && decide (i < (s.inst n).shelfBase + (s.inst n).grant.shelf))

/-- The free index of an owner that was freed longest ago (R111). -/
def State.freeIndex (s : State) (owner : Nat) : Option Nat :=
  minBy (fun i => (s.shelf i).freed * 4096 + i)
    ((List.range 4096).filter (fun i => s.indexOf owner i && (s.shelf i).obj.isNone))

/-- The DVA ranges of an owner's live objects, and of those that drain. -/
def State.liveRanges (s : State) (owner : Nat) : List (Nat × Nat) :=
  (s.objects.filter (fun o => decide (o.2.owner = owner))).map (fun o => (o.2.desc.dva, 65536 * o.2.granules))
def State.drainRanges (s : State) (owner : Nat) : List (Nat × Nat) :=
  (s.shm.draining.filter (fun d => decide (d.owner = owner) && decide (d.dvaLen ≠ 0))).map (fun d => (d.dva, d.dvaLen))

/-- Is [a, a + n) inside the space and clear of the ranges (R115)? -/
def dvaFits (rs : List (Nat × Nat)) (a n : Nat) : Bool :=
  decide (65536 ≤ a) && decide (a + n ≤ 2 ^ 38) && rs.all (fun r => decide (a + n ≤ r.1) || decide (r.1 + r.2 ≤ a))

/-- The lowest address at which `n` bytes fit. -/
def dvaLowest (rs : List (Nat × Nat)) (n : Nat) : Option Nat :=
  minBy id ((65536 :: rs.map (fun r => r.1 + r.2)).filter (fun a => dvaFits rs a n))

/-- The DVA a new object takes: the one it asks for; else one the device chooses (R116), which the spec leaves open. -/
def State.chooseDva (s : State) (owner n : Nat) (fixed : Option Nat) : Option Nat × State :=
  let rs := s.liveRanges owner ++ s.drainRanges owner
  match fixed with
  | some a => (if dvaFits rs a n then some a else none, s)
  | none =>
    let f := s.fresh
    let a := 65536 * (f.1 % 2 ^ 22)
    if dvaFits rs a n then (some a, f.2) else (dvaLowest rs n, f.2)

/-- Is there an address once everything that drains has drained? -/
def State.dvaLater (s : State) (owner n : Nat) (fixed : Option Nat) : Bool :=
  match fixed with
  | some a => dvaFits (s.liveRanges owner) a n
  | none => (dvaLowest (s.liveRanges owner) n).isSome

/-- The DVA range asked for, with FIXED_DVA (Table 4.6). -/
def fixedDva (p : List Byte) : Option Nat := if bit (par p 27 1) 2 then some (par p 36 8) else none

/-- Range of parameter 7 of Table 4.6. -/
def dvaParamOk (p : List Byte) : Bool :=
  match fixedDva p with
  | some a => decide (a % 65536 = 0) && decide (65536 ≤ a) && decide (a + 65536 * ceilDiv (par p 16 8) 65536 ≤ 2 ^ 38)
  | none => decide (par p 36 8 = 0)

/-- An object enters the table at a free index (R111, R113). -/
def State.newObject (s : State) (owner i dva : Nat) (p : List Byte) (runs : List (Place × Nat)) (sparse : Option (List Nat)) (fb : Option (Nat × Nat))
    (deadline period : Nat) : State :=
  let s := s.wipe i 0 262144
  let e := s.shelf i
  let d : ObjDesc := { handle := mkHandle i e.gen, usage := par p 24 2, cls := par p 26 1, attr := setBits (par p 27 1) 2 2 0,
                       size := par p 16 8, dva := dva, deadline := deadline, period := period, sparse := sparse }
  let s := s.setShelf i { e with obj := some { owner := owner, desc := d, born := s.shm.births, runs := runs, feedback := fb } }
  { s with shm := { s.shm with births := s.shm.births + 1 } }

/-- SHM_ALLOC (0x0201, Table 4.6). -/
def cmdShmAlloc : Cmd := ⟨0x0201, .tenants, 4, none,
  [⟨16, 8, .rng 1 17179869184⟩, ⟨24, 2, .maskNz 0x3FF⟩, ⟨26, 1, .rng 0 3⟩, ⟨27, 1, .mask 0x37⟩, ⟨28, 4, .rng 0 1000000⟩,
   ⟨32, 4, .rng 0 1000000⟩, ⟨36, 8, .any⟩, ⟨44, 4, .zero⟩]⟩

/-- What SHM_ALLOC adds to the shared validation. -/
def hooksShmAlloc (pk : Pkt) (s : State) : Hooks :=
  let owner := s.ownerOf pk.fn
  { dyn := fun p => [(4, decide (bits (par p 27 1) 5 4 ≠ 3)), (7, dvaParamOk p)]
    pre := fun p => [⟨par p 26 1 ≠ 0 ∧ (par p 26 1 ≠ 1 ∨ s.c1Right owner = true), .notPermitted, 3⟩]
    post := fun p =>
      let n := ceilDiv (par p 16 8) 65536
      [⟨(s.freeIndex owner).isSome, .noResource, 0⟩, ⟨s.memUsed owner + n ≤ s.memLimit owner, .noResource, 1⟩,
       ⟨par p 26 1 ≠ 1 ∨ s.fitsLater (par p 24 2) 1 n = true, .noResource, 3⟩,
       ⟨s.dvaLater owner (65536 * n) (fixedDva p), .noResource, 7⟩] }

/-- The effect of SHM_ALLOC once it is admitted. -/
def effShmAlloc (pk : Pkt) (p : List Byte) (t : State) : State :=
  let owner := t.ownerOf pk.fn
  let n := ceilDiv (par p 16 8) 65536
  match t.freeIndex owner, t.placeNew (par p 24 2) (par p 26 1) n, t.chooseDva owner (65536 * n) (fixedDva p) with
  | some i, some runs, (some a, t') =>
    (t'.newObject owner i a p runs none none (par p 28 4) (par p 32 4)).complete pk .ok 0 (mkHandle i (t'.shelf i).gen) a
  | _, _, _ => t

/-- SHM_ALLOC (R116): waits for storage or DVA space that drains; the index, quota, storage and range are taken at commit. -/
def execShmAlloc (pk : Pkt) (s : State) : Host.Outcome State Fault Refusal :=
  .next (runPkt cmdShmAlloc pk s (hooksShmAlloc pk s) (effShmAlloc pk))

/-- The places granules hold, with how many. -/
def placesOf (o : Obj) (gs : List Nat) : List (Place × Nat) :=
  gs.foldl (fun l g => if l.any (fun x => decide (x.1 = o.place g)) then l.map (fun x => if x.1 = o.place g then (x.1, x.2 + 1) else x)
    else l ++ [(o.place g, 1)]) []

/-- An object is freed (R111, R117): its handle goes stale, its moves are cancelled, its storage and range drain; frames already latched still read
it until they have been composed. -/
def State.freeObject (s : State) (i : Nat) : State :=
  match (s.shelf i).obj with
  | none => s
  | some o =>
    let s := s.cancelMoves (fun m => decide (m.index = i)) 3
    let s := s.setShelf i { gen := nextGen (s.shelf i).gen, freed := s.shm.frees + 1, obj := none }
    { s with shm := { s.shm with
      frees := s.shm.frees + 1
      draining := s.shm.draining ++ [Drain.mk i none o.owner (placesOf o o.stored) o.desc.dva (65536 * o.granules)] } }

/-- Does any peer mirror the object? -/
def Obj.mirrored (o : Obj) : Bool := o.grans.any (fun g => decide (g.2.mirrors ≠ []))

/-- A command waits for a peer to release mirrors (R139). -/
def State.waitPeer (s : State) (pk : Pkt) : State :=
  if s.shm.xdevWaits.contains pk then s else { s with shm := { s.shm with xdevWaits := s.shm.xdevWaits ++ [pk] } }

/-- A command that has waited completes: nothing waits for it any more. -/
def State.finish (s : State) (pk : Pkt) (st : Status) (detail : Nat := 0) (r0 : Nat := 0) (r1 : Nat := 0) : State :=
  (s.forgetRegistrar pk).complete pk st detail r0 r1

/-- SHM_FREE (0x0202, R117). -/
def cmdShmFree : Cmd := ⟨0x0202, .tenants, 1, none, [⟨16, 4, .write⟩, ⟨20, 4, .zero⟩]⟩

/-- Does a live sparse object name it as its feedback object (R241)? -/
def State.feedbackFor (s : State) (h : Nat) : Bool := s.objects.any (fun o => decide (o.2.feedback.map Prod.fst = some h))

/-- What SHM_FREE adds to the shared validation. -/
def hooksShmFree (pk : Pkt) (s : State) : Hooks :=
  let owner := s.ownerOf pk.fn
  { post := fun p => [⟨!s.layerUses owner (par p 16 4), .busy, 1⟩, ⟨!s.feedbackFor (par p 16 4), .busy, 2⟩] }

/-- The effect of SHM_FREE once it is admitted. -/
def effShmFree (pk : Pkt) (p : List Byte) (t : State) : State :=
  let h := par p 16 4
  if t.stillUsed pk h then t
  else if ((t.obj? h).map Obj.mirrored).getD false then t.waitPeer pk
  else (t.freeObject (handleIndex h)).finish pk .ok

/-- SHM_FREE (R117, R139, R241): after every earlier command of the sender that uses the object, and once its mirrors are released. -/
def execShmFree (pk : Pkt) (s : State) : Host.Outcome State Fault Refusal :=
  .next (runPkt cmdShmFree pk s (hooksShmFree pk s) (effShmFree pk))

/-- SHM_ALLOC_SPARSE (0x0207, Table 8.6). -/
def cmdShmAllocSparse : Cmd := ⟨0x0207, .tenants, 4, none,
  [⟨16, 8, .mult 65536 65536 17179869184⟩, ⟨24, 2, .mask 0x218⟩, ⟨26, 1, .rng 2 3⟩, ⟨27, 1, .mask 0x35⟩, ⟨28, 4, .readOpt⟩, ⟨32, 4, .any⟩,
   ⟨36, 8, .any⟩, ⟨44, 4, .zero⟩]⟩

/-- What SHM_ALLOC_SPARSE adds to the shared validation. -/
def hooksShmAllocSparse (pk : Pkt) (s : State) : Hooks :=
  let owner := s.ownerOf pk.fn
  { dyn := fun p =>
      [(2, bit (par p 24 2) 3), (4, decide (bits (par p 27 1) 5 4 ≠ 3)),
       (6, if par p 28 4 = 0 then decide (par p 32 4 = 0)
           else decide (par p 32 4 % 4 = 0) &&
             decide (par p 32 4 + 4 * ceilDiv (par p 16 8 / 65536) 32 ≤ s.objSize (par p 28 4))),
       (7, dvaParamOk p)]
    pre := fun p => if par p 28 4 = 0 then [] else [usageChk s 5 (par p 28 4) 4]
    post := fun p =>
      [⟨(s.freeIndex owner).isSome, .noResource, 0⟩, ⟨s.dvaLater owner (par p 16 8) (fixedDva p), .noResource, 7⟩] }

/-- The effect of SHM_ALLOC_SPARSE once it is admitted. -/
def effShmAllocSparse (pk : Pkt) (p : List Byte) (t : State) : State :=
  let owner := t.ownerOf pk.fn
  match t.freeIndex owner, t.chooseDva owner (par p 16 8) (fixedDva p) with
  | some i, (some a, t') =>
    (t'.newObject owner i a p [] (some []) (if par p 28 4 = 0 then none else some (par p 28 4, par p 32 4)) 0 0).complete pk .ok 0
      (mkHandle i (t'.shelf i).gen) a
  | _, _ => t

/-- SHM_ALLOC_SPARSE (R239): an index and a DVA range, no tile resident. -/
def execShmAllocSparse (pk : Pkt) (s : State) : Host.Outcome State Fault Refusal :=
  .next (runPkt cmdShmAllocSparse pk s (hooksShmAllocSparse pk s) (effShmAllocSparse pk))

/-- SHM_SET_RESIDENCY (0x0208, Table 8.7). -/
def cmdShmSetResidency : Cmd := ⟨0x0208, .tenants, 3, none,
  [⟨16, 4, .write⟩, ⟨20, 1, .rng 0 1⟩, ⟨21, 3, .zero⟩, ⟨24, 4, .any⟩, ⟨28, 4, .rng 1 65536⟩, ⟨32, 8, .zero⟩]⟩

/-- The resident tiles of the object a handle names; none if it is not sparse. -/
def State.residentOf (s : State) (h : Nat) : Option (List Nat) := (s.obj? h).bind (fun o => o.desc.sparse)

/-- The tiles of a range whose state a command changes. -/
def tilesChanged (resident : List Nat) (p : List Byte) : List Nat :=
  ((List.range (par p 28 4)).map (fun k => par p 24 4 + k)).filter (fun g => decide (resident.contains g = decide (par p 20 1 = 0)))

/-- New tiles take the places found for them, in ascending order. -/
def giveTiles : List Nat → List (Place × Nat) → Obj → Obj
  | g :: gs, runs, o =>
    match runs with
    | (p, n) :: r =>
      if n ≤ 1 then giveTiles gs r (o.setGran g { place := some p })
      else giveTiles gs ((p, n - 1) :: r) (o.setGran g { place := some p })
    | [] => o
  | [], _, o => o

/-- What SHM_SET_RESIDENCY adds to the shared validation. -/
def hooksShmSetResidency (pk : Pkt) (s : State) : Hooks :=
  let owner := s.ownerOf pk.fn
  { dyn := fun p =>
      let g := s.objSize (par p 16 4) / 65536
      [(4, decide (par p 24 4 < g)), (5, decide (par p 24 4 + par p 28 4 ≤ g))]
    pre := fun p => [⟨(s.residentOf (par p 16 4)).isSome, .notPermitted, 1⟩]
    post := fun p =>
      let n := (tilesChanged ((s.residentOf (par p 16 4)).getD []) p).length
      [⟨par p 20 1 = 0 ∨ s.memUsed owner + n ≤ s.memLimit owner, .noResource, 5⟩] }

/-- The effect of SHM_SET_RESIDENCY once it is admitted. -/
def effShmSetResidency (pk : Pkt) (p : List Byte) (t : State) : State :=
  let h := par p 16 4
  let i := handleIndex h
  let had := (t.residentOf h).getD []
  let ch := tilesChanged had p
  match t.obj? h with
  | none => t
  | some o =>
    if par p 20 1 = 1 then
      match t.placeNew o.desc.usage o.desc.cls ch.length with
      | some runs =>
        let now_ := sortBy id (had ++ ch)
        (t.setObj i (fun o => giveTiles ch runs { o with desc := { o.desc with sparse := some now_ } })).complete pk .ok 0 ch.length now_.length
      | none => t
    else
      let t := t.cancelMoves (fun m => decide (m.index = i) && ch.contains m.gran) 3
      let left := had.filter (fun g => !ch.contains g)
      let t := { t with shm := { t.shm with draining := if ch = [] then t.shm.draining else t.shm.draining ++ [Drain.mk i none o.owner (placesOf o ch) 0 0] } }
      let t := t.setObj i (fun o => { o with
        desc := { o.desc with sparse := some left }, grans := o.grans.filter (fun g => !ch.contains g.1) })
      (ch.foldl (fun u g => u.wipe i g 1) t).complete pk .ok 0 ch.length left.length

/-- SHM_SET_RESIDENCY (R240). -/
def execShmSetResidency (pk : Pkt) (s : State) : Host.Outcome State Fault Refusal :=
  .next (runPkt cmdShmSetResidency pk s (hooksShmSetResidency pk s) (effShmSetResidency pk))

/-! ### Hints, transfers, queries (R118 to R120) -/

/-- The places a granule may be moved to by a command, best first: DRAM in preference order, then unlocked banks for C2 and C3, any for C1. -/
def State.refuge (s : State) (o : Obj) (cls : Nat) (avoid : Place) : Option Place :=
  ((s.dramOrder o.desc.usage cls) ++ ((List.range 16).map Place.bank).filter (fun p => s.permits cls p)).find? (fun p =>
    decide (p ≠ avoid) && decide (0 < s.roomAt p))

/-- Moves that a command requires (R118, R153, R176): each listed granule moves to a place for `cls` as far as the reserve allows; false once one has
nowhere to go. -/
def State.clearOut (s : State) (cls : Option Nat) (avoid : Place) (gs : List (Nat × Nat)) : State × Bool :=
  gs.foldl (fun t g =>
    if (t.1.move? g.1 g.2).isSome then t
    else match (t.1.shelf g.1).obj with
      | none => t
      | some o =>
        match t.1.refuge o (cls.getD o.desc.cls) avoid with
        | some p => (t.1.startMove g.1 g.2 p true, t.2)
        | none => (t.1, false)) (s, true)

/-- SHM_HINT (0x0203, Table 4.7). -/
def cmdShmHint : Cmd := ⟨0x0203, .tenants, 2, none,
  [⟨16, 4, .write⟩, ⟨20, 1, .maskNz 15⟩, ⟨21, 1, .any⟩, ⟨22, 1, .any⟩, ⟨23, 1, .zero⟩, ⟨24, 4, .rng 0 1000000⟩, ⟨28, 4, .rng 0 1000000⟩]⟩

/-- The fields a hint selects are changed; a class change ends moves to storage it no longer permits (reason 6) and drops shadows (R130). -/
def State.applyHint (s : State) (i : Nat) (p : List Byte) : State :=
  let m := par p 20 1
  let s := s.setObj i (fun o => { o with
    desc := { o.desc with
      cls := if bit m 0 then par p 21 1 else o.desc.cls
      attr := if bit m 1 then par p 22 1 else o.desc.attr
      deadline := if bit m 2 then par p 24 4 else o.desc.deadline
      period := if bit m 3 then par p 28 4 else o.desc.period }
    grans := if bit m 0 then tabMap (fun _ => {}) o.grans (fun _ g => { g with shadow := none }) else o.grans })
  if bit m 0 then s.cancelMoves (fun x => decide (x.index = i) && !s.permits (par p 21 1) x.target) 6 else s

/-- What SHM_HINT adds to the shared validation. -/
def hooksShmHint (pk : Pkt) (s : State) : Hooks :=
  let owner := s.ownerOf pk.fn
  { dyn := fun p =>
      let m := par p 20 1
      [(3, if bit m 0 then decide (1 ≤ par p 21 1) && decide (par p 21 1 ≤ 3) else decide (par p 21 1 = 0)),
       (4, if bit m 1 then decide (par p 22 1 &&& 0x33 = par p 22 1) && decide (bits (par p 22 1) 5 4 ≠ 3) else decide (par p 22 1 = 0)),
       (6, bit m 2 || decide (par p 24 4 = 0)), (7, bit m 3 || decide (par p 28 4 = 0))]
    pre := fun p => [⟨!bit (par p 20 1) 0 || decide (par p 21 1 ≠ 1) || s.c1Right owner, .notPermitted, 3⟩]
    post := fun p =>
      [⟨!(bit (par p 20 1) 0 && decide (par p 21 1 ≠ 1) && ((s.obj? (par p 16 4)).any (fun o => decide (o.desc.cls = 1))) &&
          s.c1LayerNames owner (par p 16 4)), .busy, 1⟩] }

/-- The effect of SHM_HINT once it is admitted. -/
def effShmHint (pk : Pkt) (p : List Byte) (t : State) : State :=
  let h := par p 16 4
  match t.obj? h with
  | none => t
  | some o =>
    if bit (par p 20 1) 1 ∧ ¬ bit (par p 22 1) 1 ∧ o.mirrored then t.waitPeer pk
    else
      let bare := if bit (par p 20 1) 0 ∧ par p 21 1 = 1 then o.stored.filter (fun g => !t.folioPlace (o.place g)) else []
      if bare = [] then (t.applyHint (handleIndex h) p).finish pk .ok
      else
        let r := (t.cancelMoves (fun m => decide (m.index = handleIndex h) && bare.contains m.gran && !t.permits 1 m.target) 6).clearOut
          (some 1) (.bank 16) (bare.map (fun g => (handleIndex h, g)))
        if r.2 then r.1 else r.1.finish pk .noResource 3

/-- SHM_HINT (R118): a raise to C1 waits until every granule lies in protected storage, SPAN_OK clears once the mirrors are released. -/
def execShmHint (pk : Pkt) (s : State) : Host.Outcome State Fault Refusal :=
  .next (runPkt cmdShmHint pk s (hooksShmHint pk s) (effShmHint pk))

/-- SHM_UPLOAD and SHM_DOWNLOAD (0x0204, 0x0205, Table 4.8). -/
def transferParams (k : PKind) : List Param :=
  [⟨16, 4, k⟩, ⟨20, 4, .zero⟩, ⟨24, 8, .mult 4 0 17179869184⟩, ⟨32, 8, .mult 4 4 67108864⟩, ⟨40, 8, .mult 4 0 0xFFFFFFFFFFFFFFFF⟩]
def cmdShmUpload : Cmd := ⟨0x0204, .tenants, 4, none, transferParams .write⟩
def cmdShmDownload : Cmd := ⟨0x0205, .tenants, 4, none, transferParams .read⟩

/-- OFFSET below SIZE, the range inside the object. -/
def transferDyn (s : State) (p : List Byte) : List (Nat × Bool) :=
  let n := s.objSize (par p 16 4)
  [(3, decide (par p 24 8 < n)), (4, decide (par p 24 8 + par p 32 8 ≤ n))]

/-- A range that touches a tile that is not resident (R241). -/
def transferPre (s : State) (p : List Byte) : List Chk :=
  [⟨match s.residentOf (par p 16 4) with
    | some l => (granRange (par p 24 8) (par p 32 8)).all (fun g => l.contains g)
    | none => true, .notPermitted, 3⟩]

/-- What SHM_UPLOAD adds to the shared validation. -/
def hooksShmUpload (s : State) : Hooks :=
  { dyn := transferDyn s, pre := transferPre s }

/-- The effect of SHM_UPLOAD once it is admitted. -/
def effShmUpload (pk : Pkt) (host : Option (List Byte)) (p : List Byte) (t : State) : State :=
  let i := handleIndex (par p 16 4)
  let off := par p 24 8
  let n := par p 32 8
  if t.linkUp pk.fn = false ∨ t.reserveFree < (granRange off n).length ∧ (granRange off n).length ≤ t.shm.movePool then t
  else match host with
    | none => t.complete pk .faulted 5
    | some bs =>
      match t.partBad? i off n with
      | some b => ((t.postUe i (32 * b)).fault1 (t.ownerOf pk.fn) 1 (t.portOf pk.fn) 0x02 (par p 16 4) (32 * b)).complete pk .faulted 0
      | none =>
        let t := t.store i off ((bs ++ List.replicate (n - bs.length) 0).take n)
        let t := t.setObj i (fun o => (granRange off n).foldl (fun o g =>
          o.setGran g { o.gran g with copyGen := ((o.gran g).copyGen + 1) % 256 }) o)
        t.complete pk .ok

/-- SHM_UPLOAD (R119, R170): `host` is what the host buffer holds, none for a bus error. The granules it touches are staged in the reserve, for
which it waits, and flip together. A partly covered beat that is uncorrectable ends it as a fault of the sender (Table 5.9). -/
def execShmUpload (pk : Pkt) (host : Option (List Byte)) (s : State) : Host.Outcome State Fault Refusal :=
  .next (runPkt cmdShmUpload pk s (hooksShmUpload s) (effShmUpload pk host))

/-- What SHM_DOWNLOAD adds to the shared validation. -/
def hooksShmDownload (s : State) : Hooks :=
  { dyn := transferDyn s, pre := transferPre s }

/-- The effect of SHM_DOWNLOAD once it is admitted. -/
def effShmDownload (pk : Pkt) (busError : Bool) (p : List Byte) (t : State) : State :=
  let i := handleIndex (par p 16 4)
  let off := par p 24 8
  let n := par p 32 8
  let bad := fun (u : State) => u.emit (.undefinedBuffer pk.fn (par p 40 8) n)
  if t.linkUp pk.fn = false then t
  else if busError then (bad t).complete pk .faulted 5
  else match t.badBeat? i off n with
    | some b =>
      (((bad t).postUe i (32 * b)).complete pk .integrityFail 0).fault1 (t.ownerOf pk.fn) 1 (t.portOf pk.fn) 0x02 (par p 16 4) (32 * b)
    | none =>
      let bs := t.objBytes i off n
      ((t.noteRead i off n).emit (.buffer pk.fn (par p 40 8) bs)).complete pk .ok

/-- SHM_DOWNLOAD (R119, Table 5.9). -/
def execShmDownload (pk : Pkt) (busError : Bool) (s : State) : Host.Outcome State Fault Refusal :=
  .next (runPkt cmdShmDownload pk s (hooksShmDownload s) (effShmDownload pk busError))

/-- SHM_QUERY (0x0206, R120). -/
def cmdShmQuery : Cmd := ⟨0x0206, .tenants, 1, none, [⟨16, 4, .anyHandle⟩, ⟨20, 4, .zero⟩]⟩

/-- Table 4.10. -/
def State.whereWord (s : State) (i : Nat) (o : Obj) : Nat :=
  let n := fun (f : Nat → Bool) => (o.stored.filter f).length
  let inBank := fun (g : Nat) => match o.place g with
    | .bank _ => true
    | .region _ => false
  n (fun g => !inBank g) * 2 ^ 44 + n inBank * 2 ^ 24 + n (fun g => decide ((o.gran g).mirrors ≠ [])) * 16 +
    b2n (o.stored.any (fun g => !(o.gran g).written)) * 4 + b2n (o.stored.all (fun g => s.folioPlace (o.place g))) * 2 +
    b2n (s.shm.moves.any (fun m => decide (m.index = i)))

/-- What SHM_QUERY adds to the shared validation. -/
def hooksShmQuery (pk : Pkt) (s : State) : Hooks :=
  { pre := fun p => [⟨s.ownerOf pk.fn = 0 ∨ (s.obj? (par p 16 4)).map Obj.owner = some (s.ownerOf pk.fn), .notPermitted, 1⟩] }

/-- The effect of SHM_QUERY once it is admitted. -/
def effShmQuery (pk : Pkt) (p : List Byte) (t : State) : State :=
  match t.obj? (par p 16 4) with
  | some o => t.complete pk .ok 0 o.desc.size (t.whereWord (handleIndex (par p 16 4)) o)
  | none => t

/-- SHM_QUERY (R112, R120). -/
def execShmQuery (pk : Pkt) (s : State) : Host.Outcome State Fault Refusal :=
  .next (runPkt cmdShmQuery pk s (hooksShmQuery pk s) (effShmQuery pk))

/-! ### Regions, the reserve and banks (R152 to R154, R176) -/

/-- MEM_SET_REGION (0x0210, Table 5.4). -/
def cmdMemSetRegion : Cmd := ⟨0x0210, .manager, 2, none,
  [⟨16, 1, .rng 0 7⟩, ⟨17, 1, .rng 0 3⟩, ⟨18, 1, .mask 3⟩, ⟨19, 1, .zero⟩, ⟨20, 4, .any⟩, ⟨24, 4, .any⟩, ⟨28, 4, .zero⟩]⟩

/-- The granules of live objects at a place that satisfy `f` of their object. -/
def State.granulesAt (s : State) (p : Place) (f : Obj → Bool) : List (Nat × Nat) :=
  (s.objects.filter (fun o => f o.2)).flatMap (fun o => (o.2.stored.filter (fun g => decide (o.2.place g = p))).map (fun g => (o.1, g)))

/-- Does [base, base + size) MiB overlap an enabled region other than `n`? -/
def State.regionOverlap (s : State) (n base size : Nat) : Bool :=
  (List.range 8).any (fun k => decide (k ≠ n) && s.regionOn k &&
    decide (base < s.reg (MEM_REGION_BASE k) + s.getF (MEM_REGION_CFG k) MEM_REGION_CFG_SIZE_MIB) && decide (s.reg (MEM_REGION_BASE k) < base + size))

/-- The registers of a region. -/
def State.putRegion (s : State) (n : Nat) (on folio : Bool) (order base size : Nat) : State :=
  (s.setReg (MEM_REGION_BASE n) base).setReg (MEM_REGION_CFG n) (b2n on * 2 ^ 31 + b2n folio * 2 ^ 30 + order * 2 ^ 28 + size)

/-- A withdrawal of a region (R153): its granules and the arena's move out; it commits when the region is empty. -/
def State.withdrawRegion (s : State) (pk : Pkt) (n : Nat) : State :=
  let p := Place.region n
  let s := if s.shm.leaving.contains (p, pk) then s
    else ({ s with shm := { s.shm with leaving := s.shm.leaving ++ [(p, pk)] } }).cancelMoves (fun m => decide (m.target = p)) 4
  let arena := ((s.mem.arena.filter (fun a => decide (a.1 = n))).map Prod.snd).foldl (· + ·) 0
  let rest := s.mem.arena.filter (fun a => decide (a.1 ≠ n))
  match spread s.roomAt arena ((s.dramOrder 32 2).filter (fun q => decide (q ≠ p))) with
  | none => s.finish pk .noResource 3
  | some runs =>
    let gone := runs.map (fun r => (match r.1 with
      | .region k => k
      | .bank _ => 0, r.2))
    let s := if arena = 0 then s else { s with mem := { s.mem with arena := rest ++ gone } }
    let gs := s.granulesAt p (fun _ => true)
    if gs = [] ∧ s.drainAt p = 0 then (s.putRegion n false false 0 0 0).finish pk .ok
    else
      let r := s.clearOut none p gs
      if r.2 then r.1 else r.1.finish pk .noResource 3

/-- What MEM_SET_REGION adds to the shared validation. -/
def hooksMemSetRegion (s : State) : Hooks :=
  { dyn := fun p =>
      let on := bit (par p 18 1) 0
      let folio := bit (par p 18 1) 1
      let base := par p 20 4
      let size := par p 24 4
      [(2, on || decide (par p 17 1 = 0)), (3, on || decide (par p 18 1 = 0)),
       (5, if on then decide (base < s.mem.installedMib) else decide (base = 0)),
       (6, if on then decide (1 ≤ size) && (!folio || decide (size % 35 = 0)) && decide (base + size ≤ s.mem.installedMib) else decide (size = 0))]
    post := fun p =>
      let n := par p 16 1
      if bit (par p 18 1) 0 then
        [⟨s.getF MEM_STATUS MEM_STATUS_DRAM_FAIL = 0, .faulted, 0⟩, ⟨!s.regionOn n, .notPermitted, 1⟩,
         ⟨!s.regionOverlap n (par p 20 4) (par p 24 4), .noResource, 5⟩]
      else
        [⟨s.getF MEM_STATUS MEM_STATUS_DRAM_FAIL = 0, .faulted, 0⟩,
         ⟨s.granted Grant.mem + s.regionGranules n ≤ s.quotaPool ∨ s.regionOn n = false, .noResource, 3⟩] }

/-- The effect of MEM_SET_REGION once it is admitted. -/
def effMemSetRegion (pk : Pkt) (p : List Byte) (t : State) : State :=
  let n := par p 16 1
  if bit (par p 18 1) 0 then
    (t.putRegion n true (bit (par p 18 1) 1) (par p 17 1) (par p 20 4) (par p 24 4)).complete pk .ok
  else if t.regionOn n then t.withdrawRegion pk n
  else t.complete pk .ok

/-- MEM_SET_REGION (R152, R153). -/
def execMemSetRegion (pk : Pkt) (s : State) : Host.Outcome State Fault Refusal :=
  .next (runPkt cmdMemSetRegion pk s (hooksMemSetRegion s) (effMemSetRegion pk))

/-- MEM_SET_RESERVE (0x0211, R154). -/
def cmdMemSetReserve : Cmd := ⟨0x0211, .manager, 1, none, [⟨16, 4, .rng 256 65536⟩, ⟨20, 4, .zero⟩]⟩

/-- What MEM_SET_RESERVE adds to the shared validation. -/
def hooksMemSetReserve (s : State) : Hooks :=
  { post := fun p =>
      [⟨par p 16 4 ≤ s.shm.movePool + (s.quotaPool - s.granted Grant.mem), .noResource, 1⟩, ⟨s.reserveUsed ≤ par p 16 4, .busy, 1⟩] }

/-- The effect of MEM_SET_RESERVE once it is admitted. -/
def effMemSetReserve (pk : Pkt) (p : List Byte) (t : State) : State :=
  ({ t with shm := { t.shm with movePool := par p 16 4 } }).complete pk .ok

/-- MEM_SET_RESERVE (R154). -/
def execMemSetReserve (pk : Pkt) (s : State) : Host.Outcome State Fault Refusal :=
  .next (runPkt cmdMemSetReserve pk s (hooksMemSetReserve s) (effMemSetReserve pk))

/-- MEM_LOCK_BANK and MEM_UNLOCK_BANK (0x0212, 0x0213, R176). -/
def cmdMemLockBank : Cmd := ⟨0x0212, .manager, 1, none, [⟨16, 1, .rng 0 15⟩, ⟨17, 7, .zero⟩]⟩
def cmdMemUnlockBank : Cmd := ⟨0x0213, .manager, 1, none, [⟨16, 1, .rng 0 15⟩, ⟨17, 7, .zero⟩]⟩

/-- Shadows in a bank are dropped (R130). -/
def State.dropShadows (s : State) (b : Nat) : State :=
  { s with shm := { s.shm with entries := s.shm.entries.map (fun (e : Nat × ShelfEntry) => (e.1, { e.2 with obj := e.2.obj.map (fun (o : Obj) =>
      { o with grans := tabMap (fun _ => {}) o.grans (fun _ g => if g.shadow = some b then { g with shadow := none } else g) }) })) } }

/-- The effect of MEM_LOCK_BANK once it is admitted. -/
def effMemLockBank (pk : Pkt) (p : List Byte) (t : State) : State :=
  let b := par p 16 1
  let pl := Place.bank b
  if t.bankLocked b then t.complete pk .ok
  else
    let t := if t.shm.leaving.contains (pl, pk) then t
      else ({ t with shm := { t.shm with leaving := t.shm.leaving ++ [(pl, pk)] } }).dropShadows b
    let t := t.cancelMoves (fun m => decide (m.target = pl) && ((t.shelf m.index).obj.any (fun o => decide (o.desc.cls ≠ 1)))) 4
    let gs := t.granulesAt pl (fun o => decide (o.desc.cls ≠ 1))
    if gs = [] then (t.setBit MEM_CARREL_LOCK b true).finish pk .ok
    else
      let r := t.clearOut none pl gs
      if r.2 then r.1 else r.1.finish pk .noResource 1

/-- MEM_LOCK_BANK (R176): the bank's C2 and C3 granules move out and its shadows are dropped; it commits when none is left. -/
def execMemLockBank (pk : Pkt) (s : State) : Host.Outcome State Fault Refusal :=
  .next (runPkt cmdMemLockBank pk s {} (effMemLockBank pk))

/-- What MEM_UNLOCK_BANK adds to the shared validation. -/
def hooksMemUnlockBank (s : State) : Hooks :=
  { pre := fun p => [⟨!s.bankHeld (par p 16 1), .notPermitted, 1⟩] }

/-- The effect of MEM_UNLOCK_BANK once it is admitted. -/
def effMemUnlockBank (pk : Pkt) (p : List Byte) (t : State) : State :=
  (t.setBit MEM_CARREL_LOCK (par p 16 1) false).complete pk .ok

/-- MEM_UNLOCK_BANK (R176). -/
def execMemUnlockBank (pk : Pkt) (s : State) : Host.Outcome State Fault Refusal :=
  .next (runPkt cmdMemUnlockBank pk s (hooksMemUnlockBank s) (effMemUnlockBank pk))

end Sys2Proof.Machine
end

