-- ==== Sys2Proof/Machine/Memory.lean ====
section
/-! DEFINITION. The DRAM channels: start-up training (R156, R157), retraining (R158 to R160), self-refresh (R161 to R163), MR4 (R164), scrubbing
(R173) and injection (R174); and the tolerances the arbiters hold (R192, R193). -/

namespace Sys2Proof.Machine

/-! ### Tolerances -/

/-- The tolerance of output `k` as the arbiters hold it now (R193): none while its messages are lost, else lowered by one for every 64 ns. -/
def State.tolNow (s : State) (k : Nat) : Nat :=
  let t := s.esc.tol.getD k (0xFFFF, 0)
  if (s.getF ESC_TOL_STATUS ESC_TOL_STATUS_LOST).testBit k then 0
  else if t.1 = 0xFFFF then 0xFFFF
  else t.1 - (s.now - t.2) / 64

/-- The minimum of the eight, in 64 ns units (R31). -/
def State.tolMin (s : State) : Nat := ((List.range 8).map s.tolNow).foldl min 0xFFFF

/-- The output that states it, the lowest on a tie (Table 5.13). -/
def State.tolSource (s : State) : Nat := ((List.range 8).find? (fun k => s.tolNow k = s.tolMin)).getD 0

/-- MEM_TOL_MIN as read (R193). -/
def State.showTolMin (s : State) : Nat := s.tolSource * 65536 + s.tolMin

/-- May a state or step of `ns` to exit be entered (R31): the exit and the guard of 2 µs within the minimum? -/
def State.tolAllows (s : State) (ns : Nat) : Bool := s.tolMin = 0xFFFF || decide (ns + 2000 ≤ 64 * s.tolMin)

/-- The state of a channel (Table 5.21): 0 ACTIVE, 1 SELF_REFRESH, 2 RETRAIN, 3 FAILED. -/
def State.chState (s : State) (c : Nat) : Nat := s.getF (MEM_CH_STATE c) MEM_CH_STATE_STATE

/-- Withdrawals of the permit answer once every channel has left self-refresh (R459). -/
def State.settlePermit (s : State) : State :=
  if (List.range 16).any (fun c => decide (s.chState c = 1)) then s
  else (s.mem.permitWaits).foldl (fun (t : State) pk => t.complete pk .ok) { s with mem := { s.mem with permitWaits := [] } }

/-- A channel leaves self-refresh (R162): MR4 is read on the way. -/
def State.leaveRefresh (s : State) (c mr4 : Nat) : State :=
  if s.chState c = 1 then
    (((s.setF (MEM_CH_STATE c) MEM_CH_STATE_STATE 0).setF (MEM_CH_STATE c) MEM_CH_STATE_MR4_RATE mr4).setBit MEM_STATUS c false).settlePermit
  else s

/-- A retrain step ends without a result. -/
def State.abandonStep (s : State) : State :=
  let c := s.getF MEM_STATUS MEM_STATUS_RETRAIN_CH
  if c < 16 then (s.setF (MEM_CH_STATE c) MEM_CH_STATE_STATE 0).setF MEM_STATUS MEM_STATUS_RETRAIN_CH 31 else s

/-- TOL_MESSAGE (R192): the output sends its tolerance as R29 gives it now; the message ends the condition of R193. -/
def execTolMessage (out : Nat) (s : State) : Host.Outcome State Fault Refusal :=
  .next (if out < 8 then
    let s := s.stateTolerance out
    ({ s with esc := { s.esc with tol := s.esc.tol.set out (s.reg (OUT_TOL out) % 65536, s.now) } }).setF ESC_TOL_STATUS ESC_TOL_STATUS_LOST
      (setBits (s.getF ESC_TOL_STATUS ESC_TOL_STATUS_LOST) out out 0)
  else s)

/-- TOL_LOST (R193): no message for 64 µs. The output's tolerance counts as 0, so what runs under a tolerance exits at once: self-refresh (not
that of DORMANT, which a command holds) and a retrain step, which leaves no result. -/
def execTolLost (out : Nat) (s : State) : Host.Outcome State Fault Refusal :=
  .next (if out < 8 ∧ ¬ bit (s.reg ESC_TOL_STATUS) out then
    let s := ((s.setBit ESC_TOL_STATUS out true).setBit ESC_TOL_STATUS (8 + out) true).postMgr 0x8221 out 0 0
    let s := s.abandonStep
    if s.dormant then s
    else (List.range 16).foldl (fun (t : State) c => t.leaveRefresh c (t.getF (MEM_CH_STATE c) MEM_CH_STATE_MR4_RATE)) s
  else s)

/-! ### Self-refresh -/

/-- Is anything pending at a target? -/
def State.targetBusy (s : State) (n : Nat) : Bool := decide ((tabGet (fun _ => ({} : Target)) s.esc.targets n).queue ≠ [])

/-- SELF_REFRESH_ENTRY (R161): the channel has been idle for ENTRY_IDLE, the permit is held and the tolerance allows an exit of 4 µs. -/
def execSelfRefreshEntry (ch : Nat) (s : State) : Host.Outcome State Fault Refusal :=
  .next (if ch < 16 ∧ s.chState ch = 0 ∧ s.getF MEM_STATUS MEM_STATUS_PERMIT = 1 ∧ s.tolAllows 4000 = true ∧ ¬ s.targetBusy ch then
    ((s.setF (MEM_CH_STATE ch) MEM_CH_STATE_STATE 1).setBit MEM_STATUS ch true).count (MEM_CH_SR_ENTRIES ch)
  else s)

/-- SELF_REFRESH_EXIT (R162): on a request for the channel, the tolerance falling to 6 µs, or the permit withdrawn. In DORMANT the channels are
held by command (R163). -/
def execSelfRefreshExit (ch : Nat) (request : Bool) (mr4 : Nat) (s : State) : Host.Outcome State Fault Refusal :=
  .next (if ch < 16 ∧ s.chState ch = 1 ∧ ¬ s.dormant ∧
      (request || s.targetBusy ch || decide (64 * s.tolMin ≤ 6000) || decide (s.getF MEM_STATUS MEM_STATUS_PERMIT = 0)) = true then
    s.leaveRefresh ch mr4
  else s)

/-- MR4_POLL (R164): while the channel is active its MR4 is read, and the refresh interval follows it; above the rated range the manager is told. -/
def execMr4Poll (ch mr4 : Nat) (hot : Bool) (s : State) : Host.Outcome State Fault Refusal :=
  .next (if ch < 16 ∧ (s.chState ch = 0 ∨ s.chState ch = 2) then
    let s := s.setF (MEM_CH_STATE ch) MEM_CH_STATE_MR4_RATE mr4
    if hot then s.postMgr 0x8215 ch mr4 0 else s
  else s)

/-! ### Training -/

/-- A lane, 2 × channel + lane. -/
def State.lane (s : State) (l : Nat) : Lane := tabGet (fun _ => {}) s.mem.lanes l
def State.setLane (s : State) (l : Nat) (x : Lane) : State := { s with mem := { s.mem with lanes := tabSet (fun _ => {}) s.mem.lanes l x } }

/-- At most `n` steps from `a` toward `b`. -/
def stepToward (n a b : Nat) : Nat := if a ≤ b then min b (a + n) else max b (a - n)

/-- Steps 3 and 4 of Table 5.6 (R159): the eye is measured; the centre moves by at most 2 taps and 1 Vref step, or stays if the eye is below
EYE_MIN; a narrow eye is told of. -/
def State.endStep (s : State) (lane : Nat) (e : Eye) : State :=
  let c := lane / 2
  let a := MEM_CH_LANE_EYE c (lane % 2)
  let lo := s.getF MEM_RETRAIN_CTRL MEM_RETRAIN_CTRL_EYE_MIN
  let s := (s.setF a MEM_CH_LANE_EYE_WIDTH e.width).setF a MEM_CH_LANE_EYE_HEIGHT e.height
  let s := if e.width < lo then s.postMgr 0x8212 1 e.width lane
    else
      let s := (s.setF a MEM_CH_LANE_EYE_DELAY (stepToward 2 (s.getF a MEM_CH_LANE_EYE_DELAY) e.delay)).setF a MEM_CH_LANE_EYE_VREF
        (stepToward 1 (s.getF a MEM_CH_LANE_EYE_VREF) e.vref)
      if e.width < s.getF MEM_RETRAIN_CTRL MEM_RETRAIN_CTRL_EYE_WARN then s.postMgr 0x8212 0 e.width lane else s
  let x := s.lane lane
  let s := s.setLane lane { x with
    starved := false, steps := x.steps + 1, minWidth := min x.minWidth e.width, maxWidth := max x.maxWidth e.width
    lowEvents := x.lowEvents + b2n (decide (e.width < s.getF MEM_RETRAIN_CTRL MEM_RETRAIN_CTRL_EYE_WARN)) }
  s.abandonStep

/-- RETRAIN_STEP (R158, R159): applied once, a due lane's step is granted if none runs on the device and its 3 µs and the guard are within the
tolerance; applied again, it ends with what it measured. -/
def execRetrainStep (lane : Nat) (eye : Eye) (s : State) : Host.Outcome State Fault Refusal :=
  let c := lane / 2
  .next (if 32 ≤ lane then s
  else if s.getF MEM_STATUS MEM_STATUS_RETRAIN_CH = c then s.endStep lane eye
  else if s.getF MEM_STATUS MEM_STATUS_RETRAIN_CH = 31 ∧ s.chState c = 0 ∧ s.getF MEM_RETRAIN_CTRL MEM_RETRAIN_CTRL_EN = 1 ∧
      s.tolAllows 3000 = true then
    (s.setF (MEM_CH_STATE c) MEM_CH_STATE_STATE 2).setF MEM_STATUS MEM_STATUS_RETRAIN_CH c
  else s)

/-- RETRAIN_STARVED (R160): the lane has been due for 10 × PERIOD while its channel was active; raised once. -/
def execRetrainStarved (lane : Nat) (s : State) : Host.Outcome State Fault Refusal :=
  .next (if lane < 32 ∧ s.chState (lane / 2) = 0 ∧ s.getF MEM_RETRAIN_CTRL MEM_RETRAIN_CTRL_EN = 1 ∧ ¬ (s.lane lane).starved then
    (s.setLane lane { s.lane lane with starved := true }).postMgr 0x8213 lane 0 0
  else s)

/-- MiB per channel of a density code (Table 5.12), 0 for one outside Table 5.1. -/
def densityMib (code : Nat) : Nat := [0, 1024, 1536, 2048, 3072, 4096].getD code 0

/-- The lanes of channel `c` whose training failed, after the retry: those found to fail, and those with an eye below EYE_MIN (R157). -/
def State.failedLanes (s : State) (eyes : List Eye) (failed : List (Nat × Nat)) (c : Nat) : Nat :=
  let narrow := fun (l : Nat) => decide ((eyes.getD (2 * c + l) ⟨0, 0, 0, 0⟩).width < s.getF MEM_RETRAIN_CTRL MEM_RETRAIN_CTRL_EYE_MIN)
  (((failed.find? (fun f => f.1 = c)).map Prod.snd).getD 0) ||| (b2n (narrow 0) + 2 * b2n (narrow 1))

/-- Does channel `c` fail: a step or an eye (R157), or its density (R145)? -/
def State.channelFails (s : State) (densities : List Nat) (eyes : List Eye) (failed : List (Nat × Nat)) (c : Nat) : Bool :=
  failed.any (fun f => decide (f.1 = c)) || decide (s.failedLanes eyes failed c ≠ 0) ||
    decide (densities.getD c 0 ≠ densities.getD 0 0) || decide (densityMib (densities.getD c 0) = 0)

/-- Start-up training (R145, R156, R157): densities, eyes and states of all channels; a failed channel sets DRAM_FAIL, is told of and recorded. -/
def State.trainDram (s : State) (densities : List Nat) (eyes : List Eye) (failed : List (Nat × Nat)) : State :=
  let s := (s.setF MEM_CONFIG MEM_CONFIG_DENSITY (densities.getD 0 0)).setF MEM_STATUS MEM_STATUS_DRAM_FAIL 0
  let s := { s with mem := { s.mem with installedMib := 16 * densityMib (densities.getD 0 0) } }
  (List.range 16).foldl (fun (t : State) c =>
    let t := (List.range 2).foldl (fun (u : State) l =>
      let e := eyes.getD (2 * c + l) ⟨0, 0, 0, 0⟩
      u.setReg (MEM_CH_LANE_EYE c l) (e.width % 256 * 2 ^ 24 + e.height % 256 * 2 ^ 16 + e.delay % 256 * 2 ^ 8 + e.vref % 256)) t
    if t.channelFails densities eyes failed c then
      let t := (t.setF (MEM_CH_STATE c) MEM_CH_STATE_STATE 3).setF MEM_STATUS MEM_STATUS_DRAM_FAIL 1
      (t.postMgr 0x8216 c (t.failedLanes eyes failed c) 0).powerEvent 2 0xFF 0
    else t.setF (MEM_CH_STATE c) MEM_CH_STATE_STATE 0) s

/-! ### Scrub and injection -/

/-- The beats one scrub pass reads: every Folio-on data area and every bank (R173). -/
def State.scrubTotal (s : State) : Nat :=
  2048 * (((List.range 8).filter (fun n => s.folioPlace (.region n))).map s.regionGranules).foldl (· + ·) 0 + 16 * 48 * 2048

/-- MEM_SCRUB_STATUS.PROGRESS. -/
def State.scrubPercent (s : State) : Nat := min 100 (100 * s.mem.scrubbed / s.scrubTotal)

/-- A scrub pass begins. -/
def State.beginScrub (s : State) : State := { s with mem := { s.mem with scrubbed := 0 } }

/-- SCRUB_PERIOD_END (R173): an unfinished pass is LATE and told of; a new pass begins. -/
def execScrubPeriodEnd (s : State) : Host.Outcome State Fault Refusal :=
  .next (if s.getF MEM_SCRUB_CTRL MEM_SCRUB_CTRL_EN = 1 then
    (if s.mem.scrubbed < s.scrubTotal then (s.setF MEM_SCRUB_STATUS MEM_SCRUB_STATUS_LATE 1).postMgr 0x8214 0 0 0 else s).beginScrub
  else s)

/-- A write of MEM_FOLIO_INJECT (R174, Table 5.18): fields in range; one that sets ARM names no bank that holds C0 content and no XOR of zero. -/
def State.writeInject (s : State) (w v : Nat) : State :=
  s.regWrite w MEM_FOLIO_INJECT 0 v (fun t =>
    if 2 ≤ bits v 30 29 ∨ bits v 28 27 = 0 ∨
        (bit v 31 ∧ (bits v 7 0 = 0 ∨ (bits v 30 29 = 1 ∧ t.bankHeld (bits v 19 16)))) then t.badWrite w MEM_FOLIO_INJECT
    else t.setReg MEM_FOLIO_INJECT (v &&& 0xF80F00FF))

/-- FOLIO_INJECT_ARM (R174). -/
def execFolioInjectArm (writer value : Nat) (s : State) : Host.Outcome State Fault Refusal := .next (s.writeInject writer value)

/-- DRAM_TRAINING (R156): all channels train once the DRAM supplies are stable, before which MEM_CONFIG.DENSITY is 0. -/
def execDramTraining (densities : List Nat) (eyes : List Eye) (failed : List (Nat × Nat)) (s : State) : Host.Outcome State Fault Refusal :=
  .next (if s.getF MEM_CONFIG MEM_CONFIG_DENSITY = 0 then s.trainDram densities eyes failed else s)

end Sys2Proof.Machine
end

