-- ==== Sys2Proof/Machine/Render.lean ====
section
/-! DEFINITION. The render engine (R196 to R227): programs and the code store, passes and dispatches, the bin arena, the blocks a resolve writes
(R232), expansion of storage images (R235), and what the texture and traversal units report (R241, R244). -/

namespace Sys2Proof.Machine

/-! ### Resolving a block (R231, R232) -/

/-- The number of bits of a value. -/
def bitLength (n : Nat) : Nat := if n = 0 then 0 else n.log2 + 1

/-- Is pixel `k` of block (bx, by) inside the surface? -/
def insideSurface (w h bx y k : Nat) : Bool := decide (8 * bx + k % 8 < w) && decide (8 * y + k / 8 < h)

/-- The channels of a sample of a pixel of a block to write. -/
def outPixel (samples : Nat) (px : List (List Nat)) (k smp : Nat) : List Nat := px.getD (k * samples + smp) []

/-- The numbers of the pixels of a block inside the surface. -/
def insidePixels (w h bx y : Nat) : List Nat := (List.range 64).filter (insideSurface w h bx y)

/-- One channel of one sample of a compressed block: BASE, W and 64 offsets, as a value and its bits (R231, R232). -/
def codePlane (width : Nat) (inside : Nat → Bool) (v : Nat → Nat) : Nat × Nat :=
  let vals := ((List.range 64).filter inside).map v
  let lo := vals.foldl min (vals.headD 0)
  let w := bitLength (vals.foldl max 0 - lo)
  let offs := (List.range 64).map (fun k => if inside k then v k - lo else 0)
  (lo + 2 ^ width * w + 2 ^ (width + 6) * (offs.zipIdx.map (fun x => x.1 * 2 ^ (w * x.2))).foldl (· + ·) 0, width + 6 + 64 * w)

/-- The bitstream of a compressed block: its value and its length in bits. -/
def codeStream (f samples w h : Nat) (b : BlockOut) : Nat × Nat :=
  ((List.range samples).flatMap (fun smp => (fmtWidths f).zipIdx.map (fun c => (smp, c.1, c.2)))).foldl (fun (acc : Nat × Nat) c =>
    let p := codePlane c.2.1 (insideSurface w h b.bx b.y) (fun k => (outPixel samples b.px k c.1).getD c.2.2 0)
    (acc.1 + 2 ^ acc.2 * p.1, acc.2 + p.2)) (0, 0)

/-- The metadata byte and the slot's bytes that a resolve writes for a block (R230 to R232). -/
def encodeBlock (f samples w h : Nat) (b : BlockOut) : Nat × List Byte :=
  let ins := insidePixels w h b.bx b.y
  let all := ins.flatMap (fun k => (List.range samples).map (fun smp => outPixel samples b.px k smp))
  let opq := b2n (all.all (fun c => opaquePixel f c)) * 16
  let cls := fmtClass f * 64
  let first := all.headD []
  let st := codeStream f samples w h b
  let sectors := ceilDiv st.2 256
  if all.all (fun c => decide (c = first)) then
    (cls + b2n b.cleared * 32 + opq, leBytes (fmtBytes f) (pack (fmtWidths f) first))
  else if sectors ≤ 14 ∧ sectors < 2 * fmtBytes f * samples then (cls + opq + sectors, leBytes (32 * sectors) st.1)
  else
    (cls + opq + 15, (List.range 64).flatMap (fun k => (List.range samples).flatMap (fun smp =>
      leBytes (fmtBytes f) (if insideSurface w h b.bx b.y k then pack (fmtWidths f) (outPixel samples b.px k smp) else 0))))

/-- A block is resolved into a surface that begins at byte 0 of an object, and counted by its kind (Table 8.17). -/
def State.resolveBlock (s : State) (h f samples w ht : Nat) (b : BlockOut) : State :=
  if (s.obj? h).isNone ∨ blocksW w ≤ b.bx ∨ blocksW ht ≤ b.y then s
  else
    let i := handleIndex h
    let e := encodeBlock f samples w ht b
    let s := (s.store i (slotOffset 0 w ht f samples b.bx b.y) e.2).store i (metaOffset 0 w ht f samples b.bx b.y) [BitVec.ofNat 8 e.1]
    s.count (if bits e.1 3 0 = 0 then TEX_BLOCK_CONST_COUNT else if bits e.1 3 0 = 15 then TEX_BLOCK_RAW_COUNT else TEX_BLOCK_COMP_COUNT)

/-! ### Programs (R199 to R204) -/

/-- A shader reference at a packet offset (Table 7.3): module, offset, length, entry, stage. -/
structure ShaderRef where
  module_ : Nat
  off : Nat
  len : Nat
  entry : Nat
  stage : Nat
  rsv : Nat
  deriving DecidableEq, Repr

def shaderAt (p : List Byte) (o : Nat) : ShaderRef :=
  ⟨par p o 4, par p (o + 4) 4, par p (o + 8) 4, par p (o + 12) 1, par p (o + 13) 1, par p (o + 14) 2⟩

/-- Are its fields in range, for a stage (Table 7.3)? -/
def State.shaderOk (s : State) (r : ShaderRef) (stage : Nat) : Bool :=
  decide (r.off % 4 = 0) && decide (r.len % 4 = 0) && decide (20 ≤ r.len) && decide (r.len ≤ 4194304) &&
    decide (r.off + r.len ≤ s.objSize r.module_) && decide (r.stage = stage) && decide (r.rsv = 0)

/-- The key of a program (R200). -/
def State.progKey (s : State) (r : ShaderRef) (sig : List Nat) : List Byte × List Nat :=
  (Config.sha384 (s.objBytes (handleIndex r.module_) r.off r.len), [r.entry, r.stage] ++ sig)

/-- Is a program referenced by committed work (R202)? -/
def State.progBusy (s : State) (g : Prog) : Bool :=
  s.rnd.works.any (fun w => w.committed && decide (w.owner = g.owner) && w.progs.contains (g.digest, g.sig))

/-- Bytes of code in the store. -/
def State.codeBytes (s : State) : Nat := (s.rnd.progs.map Prog.code).foldl (· + ·) 0

/-- RND_CODE_STATUS.USED follows the store. -/
def State.noteCode (s : State) : State := s.setF RND_CODE_STATUS RND_CODE_STATUS_USED (ceilDiv s.codeBytes 65536)

/-- One program is evicted: the least recently used of those that may be. -/
def State.evictOne (s : State) (p : Prog → Bool) : Option State :=
  (minBy Prog.used (s.rnd.progs.filter (fun g => p g && !s.progBusy g))).map (fun g =>
    (({ s with rnd := { s.rnd with progs := s.rnd.progs.filter (fun x => decide (x ≠ g)) } }).count RND_EVICT_COUNT).noteCode)

/-- Programs are evicted until `code` more bytes fit, and for the limit of 1,024 the instance's own first (R202); none where nothing more can be. -/
def State.evictFor (owner code : Nat) : Nat → State → Option State
  | 0, _ => none
  | n + 1, s =>
    if 1024 ≤ (s.rnd.progs.filter (fun g => decide (g.owner = owner))).length then
      (s.evictOne (fun g => decide (g.owner = owner))).bind (State.evictFor owner code n)
    else if s.getF RND_CODE_STATUS RND_CODE_STATUS_CODE_MIB * 2 ^ 20 < s.codeBytes + code then
      (s.evictOne (fun _ => true)).bind (State.evictFor owner code n)
    else some s

/-- After a shrink or the end of work, what no longer fits the store and nothing references is evicted (R215). -/
def State.trimCode : Nat → State → State
  | 0, s => s
  | n + 1, s =>
    if s.getF RND_CODE_STATUS RND_CODE_STATUS_CODE_MIB * 2 ^ 20 < s.codeBytes then
      match s.evictOne (fun _ => true) with
      | some t => trimCode n t
      | none => s
    else s

/-- A failure of Table 7.5: status, RESULT0, RESULT1, and whether the code store was full. -/
structure RndFail where
  st : Status
  reason : Nat
  loc : Nat

/-- A program is taken from the cache or compiled into it (R200 to R204): the compiled form, the state, whether it was cached. -/
def State.program (s : State) (owner : Nat) (r : ShaderRef) (sig : List Nat) : State × Except RndFail (Config.Compiled × Bool × Nat) :=
  let bs := s.objBytes (handleIndex r.module_) r.off r.len
  let key := s.progKey r sig
  let c := Config.compile bs (key.2 ++ [s.fw.damath])
  let s := { s with rnd := { s.rnd with stamp := s.rnd.stamp + 1 } }
  if s.rnd.progs.any (fun g => decide (g.owner = owner ∧ g.digest = key.1 ∧ g.sig = key.2)) then
    (({ s with rnd := { s.rnd with progs := s.rnd.progs.map (fun (g : Prog) =>
        if g.owner = owner ∧ g.digest = key.1 ∧ g.sig = key.2 then { g with used := s.rnd.stamp } else g) } }).count RND_CACHE_HIT_COUNT,
      .ok (c, true, leNat (key.1.take 8)))
  else match c.fail with
  | some f => (s, .error ⟨if f.1 then .versionMismatch else .outOfRange, f.2.1, f.2.2⟩)
  | none =>
    if 16384 < c.privateBytes then (s, .error ⟨.noResource, 1, c.privateBytes⟩)
    else if 65536 < c.groupBytes then (s, .error ⟨.noResource, 2, c.groupBytes⟩)
    else if 2 ^ 20 < c.code then (s, .error ⟨.noResource, 3, c.code⟩)
    else match State.evictFor owner c.code (s.rnd.progs.length + 1) s with
      | none => (s.postMgr 0x8304 owner 0 0, .error ⟨.noResource, 4, 0⟩)
      | some t =>
        let t := { t with rnd := { t.rnd with progs := t.rnd.progs ++ [Prog.mk owner key.1 key.2 c.code t.rnd.stamp] } }
        ((t.count RND_COMPILE_COUNT).noteCode, .ok (c, false, leNat (key.1.take 8)))

/-- RND_COMPILE (0x0301, Table 7.4). -/
def cmdRndCompile : Cmd := ⟨0x0301, .tenants, 4, none, [⟨16, 16, .any⟩, ⟨32, 8, .any⟩, ⟨40, 1, .any⟩, ⟨41, 7, .zero⟩]⟩

/-- What RND_COMPILE adds to the shared validation. -/
def hooksRndCompile (s : State) : Hooks :=
  { handles := fun p => [(1, (shaderAt p 16).module_, false)]
    dyn := fun p =>
      let r := shaderAt p 16
      let fm := (List.range 8).map (fun k => par p (32 + k) 1)
      [(1, decide (r.stage ≤ 2) && s.shaderOk r r.stage),
       (2, if r.stage = 1 then fm.all (fun f => decide (f = 0) || isColorFmt f) else decide (par p 32 8 = 0)),
       (3, if r.stage = 1 then decide (par p 40 1 = 1) || decide (par p 40 1 = 4) else decide (par p 40 1 = 0))]
    pre := fun p => [usageChk s 1 (shaderAt p 16).module_ 7]
    post := fun p =>
      let r := shaderAt p 16
      [⟨(s.badBeat? (handleIndex r.module_) r.off r.len).isNone, .integrityFail, 0xFF04⟩]
    reads := fun p => [((shaderAt p 16).module_, (shaderAt p 16).off, (shaderAt p 16).len)] }

/-- The effect of RND_COMPILE once it is admitted. -/
def effRndCompile (pk : Pkt) (p : List Byte) (t : State) : State :=
  let owner := t.ownerOf pk.fn
  let r := shaderAt p 16
  let t := t.noteRead (handleIndex r.module_) r.off r.len
  let sig := if r.stage = 1 then (List.range 8).map (fun k => par p (32 + k) 1) ++ [par p 40 1] else []
  match t.program owner r sig with
  | (u, .error e) => u.complete pk e.st 1 e.reason e.loc
  | (u, .ok (c, had, d)) => u.complete pk .ok 0 d (c.code + b2n had * 2 ^ 32)

/-- RND_COMPILE (R203, R204). -/
def execRndCompile (pk : Pkt) (s : State) : Host.Outcome State Fault Refusal :=
  .next (runPkt cmdRndCompile pk s (hooksRndCompile s) (effRndCompile pk))

/-! ### Binding tables (R205, R236, R237) -/

/-- An entry of a binding table. -/
def State.bindEntry (s : State) (table e : Nat) : List Byte := s.objBytes (handleIndex table) (32 * e) 32

/-- The offsets of the surfaces of an image (R236): one for each layer and level, with its size; and the bytes of all. -/
def imageLayout (f w h mips layers step : Nat) : List (Nat × Nat × Nat) × Nat :=
  ((List.range layers).flatMap (fun _ => List.range mips)).foldl (fun (acc : List (Nat × Nat × Nat) × Nat) m =>
    let lw := max 1 (w / 2 ^ m)
    let lh := max 1 (h / 2 ^ m)
    let o := ceilDiv acc.2 step * step
    (acc.1 ++ [(o, lw, lh)], o + surfaceSize lw lh f 1)) ([], 0)

/-- An image binding's format, size, levels, layers, and the step between its surfaces. -/
def State.imageOf (s : State) (b : List Byte) : List (Nat × Nat × Nat) × Nat :=
  imageLayout (leNat (slice b 5 1)) (leNat (slice b 8 2)) (leNat (slice b 10 2)) (leNat (slice b 12 1)) (leNat (slice b 13 1))
    (if ((s.obj? (leNat (b.take 4))).bind (fun o => o.desc.sparse)).isSome then 65536 else 256)

/-- Is an image entry in range and inside its object (R236)? -/
def State.imageOk (s : State) (b : List Byte) : Bool :=
  let f := leNat (slice b 5 1)
  let w := leNat (slice b 8 2)
  let h := leNat (slice b 10 2)
  let mips := leNat (slice b 12 1)
  (isColorFmt f || isDepthFmt f) && decide (1 ≤ w) && decide (w ≤ 16384) && decide (1 ≤ h) && decide (h ≤ 16384) && decide (1 ≤ mips) &&
    decide (mips ≤ bitLength (max w h)) && decide (1 ≤ leNat (slice b 13 1)) && decide (leNat (slice b 14 2) = 0) &&
    decide (leNat (slice b 16 8) = 0) && decide ((s.imageOf b).2 ≤ s.objSize (leNat (b.take 4)))

/-- Is a sampler state in range (Table 8.4)? -/
def samplerOk (b : List Byte) : Bool :=
  let c := fun k => leNat (slice b (24 + k) 1)
  decide (bits (c 0) 3 2 ≠ 3) && decide (bits (c 0) 7 4 = 0) && decide (bits (c 1) 7 6 ≠ 3) && decide (1 ≤ c 2) && decide (c 2 ≤ 16) &&
    decide (c 3 ≤ 8) && decide (c 5 ≤ c 6) && decide (c 7 = 0)

/-- Is an entry well formed for its kind (Table 7.6)? -/
def State.entryOk (s : State) (b : List Byte) : Bool :=
  let kind := leNat (slice b 4 1)
  let flags := leNat (slice b 6 2)
  let buffer := decide (leNat (slice b 5 1) = 0) && decide (leNat (slice b 8 8) % 16 = 0) &&
    decide (leNat (slice b 8 8) + leNat (slice b 16 8) ≤ s.objSize (leNat (b.take 4)))
  decide (flags ≤ 1) && (decide (flags = 0) || decide (kind = 2) || decide (kind = 4)) &&
    (if kind = 5 then samplerOk b else decide (leNat (slice b 24 8) = 0)) &&
    (if kind = 1 ∨ kind = 2 ∨ kind = 6 then buffer else if kind = 3 ∨ kind = 4 then s.imageOk b else decide (kind = 5))

/-- Does the object have the USAGE the kind needs (R205)? -/
def State.entryUsage (s : State) (b : List Byte) : Bool :=
  let u := fun k => (s.objUsage (leNat (b.take 4))).testBit k
  let w := leNat (slice b 6 2) = 1
  match leNat (slice b 4 1) with
  | 1 => u 4 || u 5 || u 7
  | 2 => if w then u 4 else u 4 || u 5 || u 7
  | 3 => u 3
  | 4 => u 4
  | 5 => true
  | _ => u 6

/-- The first fault of the binding a program declares at an entry: status, RESULT0, RESULT1 (R205, Table 7.5). -/
def State.bindFault (s : State) (owner table : Nat) (targets : List Nat) (d : Nat × Nat × Bool) : Option RndFail :=
  let e := d.1
  let b := s.bindEntry table e
  let h := leNat (b.take 4)
  let kind := leNat (slice b 4 1)
  if table = 0 ∨ s.objSize table < 32 * e + 32 ∨ (h = 0 ∧ kind ≠ 5) ∨ kind ≠ d.2.1 ∨ (d.2.2 ∧ leNat (slice b 6 2) ≠ 1) then some ⟨.outOfRange, 7, e⟩
  else if kind ≠ 5 ∧ (s.obj? h).isNone then some ⟨.staleGeneration, 0, e⟩
  else if kind ≠ 5 ∧ (s.obj? h).map Obj.owner ≠ some owner then some ⟨.notPermitted, 0, e⟩
  else if ¬ s.entryUsage b then some ⟨.notPermitted, 0, e⟩
  else if ¬ s.entryOk b ∨ (kind ≠ 5 ∧ targets.contains h) then some ⟨.outOfRange, 7, e⟩
  else none

/-- The entries of a binding table that name objects: handle, kind, whether WRITABLE. -/
def State.boundObjects (s : State) (table : Nat) : List (Nat × Nat × Bool) :=
  if (s.obj? table).isNone then []
  else ((List.range (min 256 (s.objSize table / 32))).map (fun e => s.bindEntry table e)).filterMap (fun b =>
    if leNat (b.take 4) = 0 ∨ leNat (slice b 4 1) = 5 then none
    else some (leNat (b.take 4), leNat (slice b 4 1), decide (leNat (slice b 6 2) % 2 = 1)))

/-! ### Storage images (R235) -/

/-- A block of a surface becomes raw: SIZE 15, OPAQUE and CLEARED clear, CLASS kept; an invalid block becomes zero. Sparse objects: resident
blocks only. -/
def State.expandBlock (s : State) (h f base w ht bx y : Nat) : State :=
  let i := handleIndex h
  let so := slotOffset base w ht f 1 bx y
  let mo := metaOffset base w ht f 1 bx y
  let b := s.surfBlock i base w ht f 1 bx y
  let there := match (s.obj? h).bind (fun o => o.desc.sparse) with
    | some l => l.contains (so / 65536) && l.contains (mo / 65536)
    | none => true
  if (!there || (decide (bits b.1 3 0 = 15) && metaValid f 1 b.1)) = true then s
  else
    let px := (List.range 64).flatMap (fun k =>
      leBytes (fmtBytes f) (pack (fmtWidths f) ((blockPixel f 1 b.1 b.2 k 0).getD ((fmtWidths f).map (fun _ => 0)))))
    ((s.store i so px).store i mo [BitVec.ofNat 8 (bits b.1 7 6 * 64 + 15)]).count TEX_EXPAND_COUNT

/-- STORAGE_IMAGE_EXPAND (R235): every image bound for writing. -/
def State.expandImages (s : State) (table : Nat) (binds : List (Nat × Nat × Bool)) : State :=
  (binds.filter (fun d => decide (d.2.1 = 4))).foldl (fun (t : State) d =>
    let b := t.bindEntry table d.1
    if leNat (slice b 6 2) ≠ 1 then t
    else
      let h := leNat (b.take 4)
      let f := leNat (slice b 5 1)
      (t.imageOf b).1.foldl (fun (u : State) x =>
        ((List.range (blocksW x.2.2)).flatMap (fun y => (List.range (blocksW x.2.1)).map (fun bx => (bx, y)))).foldl
          (fun (v : State) q => v.expandBlock h f x.1 x.2.1 x.2.2 q.1 q.2) u) t) s

/-! ### The arena (R213 to R215) -/

/-- Chunks held by segments. -/
def State.chunksHeld (s : State) : Nat := (s.rnd.works.map Work.chunks).foldl (· + ·) 0
def State.chunksFree (s : State) : Nat := s.arenaTotal - s.chunksHeld

/-- The registers of the arena follow it. -/
def State.noteArena (s : State) : State :=
  (s.setF RND_ARENA_SIZE RND_ARENA_SIZE_CHUNKS s.arenaTotal).setF RND_ARENA_FREE RND_ARENA_FREE_CHUNKS s.chunksFree

/-- RND_ACTIVE follows the committed work. -/
def State.noteWork (s : State) : State :=
  let n := fun (op : Nat) => (s.rnd.works.filter (fun w => w.committed && decide (w.op = op))).length
  s.setReg RND_ACTIVE (n 0x0320 % 65536 * 65536 + n 0x0310 % 65536)

/-- The list of runs without `n` granules from its end. -/
def dropRuns : Nat → List (Nat × Nat) → List (Nat × Nat)
  | 0, l => l
  | n, l => ((l.reverse.foldl (fun (acc : List (Nat × Nat) × Nat) r =>
      let k := min acc.2 r.2
      (if r.2 = k then acc.1 else (r.1, r.2 - k) :: acc.1, acc.2 - k)) ([], n))).1

/-- Chunks beyond the size asked for return to the quota pool once they are free (R215). -/
def State.trimArena (s : State) : State :=
  let drop := min s.chunksFree (s.arenaTotal - 16 * s.rnd.goalMib)
  ({ s with mem := { s.mem with arena := dropRuns drop s.mem.arena } }).noteArena

/-- May a segment of this class that holds `held` chunks take one more (R214)? -/
def State.mayTake (s : State) (cls held : Nat) : Bool :=
  decide (held < 16 * s.getF RND_ARENA_LIMITS RND_ARENA_LIMITS_PASS_MAX_MIB) && decide (0 < s.chunksFree) &&
    (decide (cls = 1) || decide (16 * s.getF RND_ARENA_LIMITS RND_ARENA_LIMITS_C1_RESERVE_MIB < s.chunksFree))

/-- Work changed. -/
def State.setWork (s : State) (pk : Pkt) (g : Work → Work) : State :=
  { s with rnd := { s.rnd with works := s.rnd.works.map (fun w => if w.pk = pk then g w else w) } }
def State.work? (s : State) (pk : Pkt) : Option Work := s.rnd.works.find? (fun w => decide (w.pk = pk))

/-- Is any cluster up (R224)? -/
def State.clusterUp (s : State) : Bool := [9, 10, 11, 12, 13, 14].any s.domainUp

/-- Committed work that waits with no cluster up is told of, once (R224). -/
def State.noteCluster (s : State) : State :=
  if s.clusterUp then { s with rnd := { s.rnd with noCluster := false } }
  else if s.rnd.noCluster ∨ ¬ s.rnd.works.any Work.committed then s
  else ({ s with rnd := { s.rnd with noCluster := true } }).postMgr 0x8305 0 0 0

/-- Work commits (R211, R221): its writable images are expanded before anything runs. -/
def State.beginWork (s : State) (pk : Pkt) : State :=
  match s.work? pk with
  | none => s
  | some w =>
    let table := if w.op = 0x0310 then par w.params 24 4 else par w.params 32 4
    let s := ((s.commit pk).setWork pk (fun w => { w with committed := true, start := s.now, waiting := none })).expandImages table
      ((List.range (min 256 (s.objSize table / 32))).map (fun e => (e, leNat (slice (s.bindEntry table e) 4 1), true)))
    s.noteWork.noteCluster

/-- A segment that holds no chunk takes its first, or waits (R214). -/
def State.firstChunk (s : State) (pk : Pkt) : State :=
  match s.work? pk with
  | none => s
  | some w =>
    if s.mayTake w.cls 0 then
      let s := (s.setWork pk (fun w => { w with chunks := 1, segs := w.segs + 1, waiting := none })).noteArena
      if w.committed then s else s.beginWork pk
    else if w.waiting.isSome then s
    else (({ s with rnd := { s.rnd with stamp := s.rnd.stamp + 1 } }).setWork pk (fun w => { w with waiting := some s.rnd.stamp })).count
      RND_ARENA_WAIT_COUNT

/-- ARENA_CHUNK_FREED (R214): free chunks go to waiting segments, C1 first, then in order of arrival. -/
def execArenaChunkFreed (s : State) : Host.Outcome State Fault Refusal := if s.safe then .next s else
  let ws := sortBy (fun (w : Work) => (if w.cls = 1 then 0 else 2 ^ 64) + w.waiting.getD 0) (s.rnd.works.filter (fun w => w.waiting.isSome))
  .next (ws.foldl (fun (t : State) w => t.firstChunk w.pk) s)

/-- Work is over: its chunks return, programs that no longer fit go, and its packet is forgotten. -/
def State.dropWork (s : State) (pk : Pkt) : State :=
  let s := { s with rnd := { s.rnd with works := s.rnd.works.filter (fun w => decide (w.pk ≠ pk)) } }
  (State.trimCode s.rnd.progs.length s.trimArena).noteWork

/-- A pass or dispatch ends with an error after it has committed (R223): what the objects it writes hold is undefined. -/
def State.failWork (s : State) (pk : Pkt) (detail : Nat) : State :=
  if (s.work? pk).isSome then
    let hs := (((s.flightOf pk).map Flight.writes).getD []).eraseDups.filter (fun h => (s.obj? h).isSome)
    ((hs.foldl (fun (t : State) h => t.spoil (handleIndex h)) s).dropWork pk).complete pk .faulted detail
  else s

/-! ### RND_PASS (R206 to R211) -/

/-- Offsets of target record `t` and of pipeline record `k`, as from packet byte 16. -/
def targetAt (t : Nat) : Nat := 64 + 32 * t
def pipeAt (k : Nat) : Nat := 352 + 64 * k

/-- The target records in use: record, handle, format. -/
def passTargets (p : List Byte) : List (Nat × Nat × Nat) :=
  ((List.range 9).map (fun t => (t, par p (targetAt t) 4, par p (targetAt t + 4) 1))).filter (fun x => decide (x.2.1 ≠ 0))

/-- The resolve destinations: record, handle, format. -/
def passResolves (p : List Byte) : List (Nat × Nat × Nat) :=
  ((passTargets p).map (fun x => (x.1, par p (targetAt x.1 + 8) 4, x.2.2))).filter (fun x => decide (x.2.1 ≠ 0))

/-- The pipelines. -/
def passPipes (p : List Byte) : List Nat := List.range (par p 38 1)

/-- The surface size a record needs (R207). -/
def passSurface (p : List Byte) (f samples : Nat) : Nat := surfaceSize (par p 32 2) (par p 34 2) f samples

/-- The bytes the spill object needs (R209). -/
def spillNeed (p : List Byte) : Nat :=
  (((passTargets p).filter (fun x => decide (par p (targetAt x.1 + 5 + 1) 1 = 1) && (decide (x.1 < 8) || !bit (par p 37 1) 0))).map (fun x =>
    passSurface p x.2.2 (par p 36 1))).foldl (· + ·) 0

/-- RND_PASS (0x0310, Table 7.7). -/
def cmdRndPass : Cmd := ⟨0x0310, .tenants, 0, some (400, 4432),
  [⟨16, 4, .read⟩, ⟨20, 4, .rng 1 1048576⟩, ⟨24, 4, .readOpt⟩, ⟨28, 4, .writeOpt⟩, ⟨32, 2, .rng 1 16384⟩, ⟨34, 2, .rng 1 16384⟩,
   ⟨36, 1, .oneOf [1, 4]⟩, ⟨37, 1, .mask 1⟩, ⟨38, 1, .rng 1 64⟩, ⟨39, 1, .zero⟩, ⟨40, 8, .any⟩, ⟨48, 16, .zero⟩]⟩

/-- The ranges of target record `t` (Table 7.8). -/
def State.targetRanges (s : State) (p : List Byte) (t : Nat) : List Chk :=
  let o := targetAt t
  let h := par p o 4
  let f := par p (o + 4) 1
  let n := 16 + 8 * t
  let smp := par p 36 1
  let used := decide (h ≠ 0)
  let twice := ((passTargets p).filter (fun x => decide (x.1 < t))).any (fun x => decide (x.2.1 = h))
  let fmtOk := if t < 8 then isColorFmt f else isDepthFmt f
  let rs := par p (o + 8) 4
  [⟨!used || (!twice && decide (passSurface p f smp ≤ s.objSize h)), .outOfRange, n + 1⟩,
   ⟨!used || fmtOk, .outOfRange, n + 2⟩, ⟨par p (o + 5) 1 ≤ 2, .outOfRange, n + 3⟩, ⟨par p (o + 6) 1 ≤ 1, .outOfRange, n + 4⟩,
   ⟨par p (o + 7) 1 = 0, .outOfRange, n + 5⟩,
   ⟨rs = 0 ∨ (smp = 4 ∧ t < 8 ∧ used = true ∧ passSurface p f 1 ≤ s.objSize rs), .outOfRange, n + 6⟩, ⟨par p (o + 12) 4 = 0, .outOfRange, n + 7⟩,
   ⟨t < 8 ∨ ¬ used ∨ par p (o + 21) 11 = 0, .outOfRange, n + 8⟩]

/-- The ranges of pipeline record `k` (Table 7.10). -/
def State.pipeRanges (s : State) (p : List Byte) (k : Nat) : List Chk :=
  let o := pipeAt k
  let n := 100 + 10 * k
  let vs := shaderAt p o
  let fs := shaderAt p (o + 16)
  [⟨vs.module_ ≠ 0 ∧ s.shaderOk vs 0 = true, .outOfRange, n + 1⟩, ⟨fs.module_ = 0 ∨ s.shaderOk fs 1 = true, .outOfRange, n + 2⟩,
   ⟨par p (o + 32) 1 ≤ 3, .outOfRange, n + 3⟩, ⟨par p (o + 33) 1 < 8 ∧ bits (par p (o + 33) 1) 1 0 ≠ 3, .outOfRange, n + 4⟩,
   ⟨bits (par p (o + 34) 1) 3 0 ≤ 8 ∧ par p (o + 34) 1 < 32, .outOfRange, n + 5⟩, ⟨par p (o + 35) 1 = 0, .outOfRange, n + 6⟩,
   ⟨par p (o + 36) 1 ≤ 8 ∧ bits (par p (o + 39) 1) 3 0 ≤ 5 ∧ bits (par p (o + 39) 1) 7 4 ≤ 5, .outOfRange, n + 7⟩,
   ⟨(List.range 8).all (fun t => decide (par p (o + 40 + t) 1 ≤ 4)), .outOfRange, n + 8⟩, ⟨par p (o + 52) 12 = 0, .outOfRange, n + 10⟩]

/-- A failed check of a draw record (R210): status and RESULT1; the fields are numbered 1 to 9, reserved ones (0 here) not among them. -/
def State.drawFault (s : State) (owner : Nat) (p d : List Byte) : Option (Status × Nat) :=
  let h := leNat (slice d 4 4)
  let idx := bit (leNat (slice d 1 1)) 0
  let x0 := leNat (slice d 32 2)
  let y0 := leNat (slice d 34 2)
  let x1 := leNat (slice d 36 2)
  let y1 := leNat (slice d 38 2)
  if idx ∧ (s.obj? h).isNone then some (.staleGeneration, 3)
  else if par p 38 1 ≤ leNat (d.take 1) then some (.outOfRange, 1)
  else if 2 ≤ leNat (slice d 1 1) then some (.outOfRange, 2)
  else if ¬ idx ∧ h ≠ 0 then some (.outOfRange, 3)
  else if leNat (slice d 8 4) % 4 ≠ 0 ∨
      (idx ∧ s.objSize h < leNat (slice d 8 4) + 4 * (leNat (slice d 20 4) + leNat (slice d 12 4))) then some (.outOfRange, 4)
  else if leNat (slice d 12 4) = 0 ∨ 16777216 < leNat (slice d 12 4) then some (.outOfRange, 5)
  else if leNat (slice d 16 4) = 0 ∨ 65536 < leNat (slice d 16 4) then some (.outOfRange, 6)
  else if leNat (slice d 32 8) ≠ 0 ∧ ¬ (x0 < x1 ∧ x1 ≤ par p 32 2 ∧ y0 < y1 ∧ y1 ≤ par p 34 2) then some (.outOfRange, 9)
  else if leNat (slice d 2 2) ≠ 0 ∨ leNat (slice d 28 4) ≠ 0 ∨ leNat (slice d 40 8) ≠ 0 then some (.outOfRange, 0)
  else if idx ∧ ((s.obj? h).map Obj.owner ≠ some owner ∨ ¬ (s.objUsage h).testBit 5) then some (.notPermitted, 3)
  else none

/-- A draw record. -/
def State.drawAt (s : State) (p : List Byte) (k : Nat) : List Byte := s.objBytes (handleIndex (par p 16 4)) (48 * k) 48

/-- The first faulty draw record: its index, status, field. -/
def State.drawsFault (s : State) (owner : Nat) (p : List Byte) : Option (Nat × Status × Nat) :=
  (List.range (par p 20 4)).findSome? (fun k => (s.drawFault owner p (s.drawAt p k)).map (fun e => (k, e)))

/-- The objects a pass reads through its draws and bindings, and those it writes (R64). -/
def State.passUses (s : State) (p : List Byte) : List Nat :=
  ((List.range (par p 20 4)).map (fun k => leNat (slice (s.drawAt p k) 4 4))).filter (fun h => decide (h ≠ 0)) ++
    (s.boundObjects (par p 24 4)).map Prod.fst
def State.passWrites (s : State) (p : List Byte) : List Nat :=
  (passTargets p).map (fun x => x.2.1) ++ (passResolves p).map (fun x => x.2.1) ++
    ((s.boundObjects (par p 24 4)).filter (fun b => b.2.2)).map Prod.fst

/-- The target signature of a pass (R200). -/
def passSig (p : List Byte) : List Nat :=
  (List.range 8).map (fun t => if par p (targetAt t) 4 = 0 then 0 else par p (targetAt t + 4) 1) ++ [par p 36 1]

/-- A pass's programs in order: parameter number, reference, signature. -/
def passShaders (p : List Byte) : List (Nat × ShaderRef × List Nat) :=
  (passPipes p).flatMap (fun k =>
    [(100 + 10 * k + 1, shaderAt p (pipeAt k), [])] ++
      (if (shaderAt p (pipeAt k + 16)).module_ = 0 then [] else [(100 + 10 * k + 2, shaderAt p (pipeAt k + 16), passSig p)]))

/-- Programs are compiled in order until one fails (R204); then the bindings each declares are checked. `no` is the number of the parameter that
names the binding table. -/
def State.prepare (s : State) (owner no table : Nat) (targets : List Nat) :
    List (Nat × ShaderRef × List Nat) → State × Except (Nat × RndFail) (List (List Byte × List Nat))
  | [] => (s, .ok [])
  | (n, r, sig) :: rest =>
    match s.program owner r sig with
    | (t, .error e) => (t, .error (n, e))
    | (t, .ok (c, _, _)) =>
      match c.binds.findSome? (fun d => t.bindFault owner table targets d) with
      | some e => (t, .error (no, e))
      | none =>
        match prepare t owner no table targets rest with
        | (u, .ok l) => (u, .ok (t.progKey r sig :: l))
        | (u, .error e) => (u, .error e)

/-- Varyings between the stages of each pipeline (Table 7.5, reason 6). -/
def State.linkFault (s : State) (p : List Byte) : Option (Nat × RndFail) :=
  (passPipes p).findSome? (fun k =>
    let vs := shaderAt p (pipeAt k)
    let fs := shaderAt p (pipeAt k + 16)
    if fs.module_ = 0 then none
    else
      let d := Config.linkVaryings (s.objBytes (handleIndex vs.module_) vs.off vs.len) (s.objBytes (handleIndex fs.module_) fs.off fs.len)
      if d = 0 then none else some (100 + 10 * k + 2, ⟨.outOfRange, 6, d - 1⟩))

/-- Work enters the engine's list; a pass then asks for its first chunk. -/
def State.addWork (s : State) (pk : Pkt) (owner op cls : Nat) (p : List Byte) (progs : List (List Byte × List Nat)) : State :=
  { s with rnd := { s.rnd with works := s.rnd.works ++ [{ pk := pk, owner := owner, op := op, params := p, cls := cls, progs := progs }] } }

/-- The highest class among objects: the lowest number, 3 for none. -/
def State.bestClass (s : State) (hs : List Nat) : Nat := (hs.map (fun h => ((s.obj? h).map (fun o => o.desc.cls)).getD 3)).foldl min 3

/-- What RND_PASS adds to the shared validation. -/
def hooksRndPass (s : State) : Hooks :=
  { first := fun p => [⟨p.length = 336 + 64 * par p 38 1, .badLength, 0⟩]
    handles := fun p =>
      (List.range 9).flatMap (fun t =>
        (if par p (targetAt t) 4 = 0 then [] else [(16 + 8 * t + 1, par p (targetAt t) 4, true)]) ++
        (if par p (targetAt t + 8) 4 = 0 then [] else [(16 + 8 * t + 6, par p (targetAt t + 8) 4, true)])) ++
      (passShaders p).map (fun x => (x.1, x.2.1.module_, false))
    dyn := fun p =>
      [(2, decide (48 * par p 20 4 ≤ s.objSize (par p 16 4))), (4, decide (spillNeed p ≤ s.objSize (par p 28 4))),
       (7, decide (1024 * par p 36 1 * ((passTargets p).map (fun x => fmtBytes x.2.2)).foldl (· + ·) 0 ≤ 131072))]
    more := fun p =>
      [⟨passTargets p ≠ [], .outOfRange, 17⟩] ++ (List.range 9).flatMap (s.targetRanges p) ++ (passPipes p).flatMap (s.pipeRanges p)
    pre := fun p =>
      [usageChk s 1 (par p 16 4) 7] ++ (if par p 24 4 = 0 then [] else [usageChk s 3 (par p 24 4) 7]) ++
      (if par p 28 4 = 0 then [] else [usageChk s 4 (par p 28 4) 8]) ++
      (passTargets p).map (fun x => usageChk s (16 + 8 * x.1 + 1) x.2.1 (if x.1 < 8 then 1 else 2)) ++
      (passResolves p).map (fun x => usageChk s (16 + 8 * x.1 + 6) x.2.1 1) ++
      (passShaders p).map (fun x => usageChk s x.1 x.2.1.module_ 7)
    uses := s.passUses
    writes := s.passWrites }

/-- The effect of RND_PASS once it is admitted. -/
def effRndPass (pk : Pkt) (p : List Byte) (t : State) : State :=
  let owner := t.ownerOf pk.fn
  if (t.work? pk).isSome then t
  else match t.drawsFault owner p with
    | some (k, st, f) => t.complete pk st 1 k f
    | none =>
      let targets := (passTargets p).map (fun x => x.2.1) ++ (passResolves p).map (fun x => x.2.1)
      match t.prepare owner 3 (par p 24 4) targets (passShaders p) with
      | (u, .error (n, e)) => u.complete pk e.st n e.reason e.loc
      | (u, .ok progs) =>
        match u.linkFault p with
        | some (n, e) => u.complete pk e.st n e.reason e.loc
        | none =>
          (u.addWork pk owner 0x0310 (u.bestClass ((passTargets p).map (fun x => x.2.1))) p progs).firstChunk pk

/-- RND_PASS (R206 to R211): validated, compiled, its draws checked; then dispatched to binning, where it takes a chunk or waits (R214). -/
def execRndPass (pk : Pkt) (s : State) : Host.Outcome State Fault Refusal :=
  .next (runPkt cmdRndPass pk s (hooksRndPass s) (effRndPass pk))

/-- The blocks a segment or pass resolves: those of targets with STORE, and of resolve destinations. -/
def State.applyBlocks (s : State) (p : List Byte) (final : Bool) (bs : List BlockOut) : State :=
  bs.foldl (fun (t : State) b =>
    let o := targetAt (b.target % 16)
    let w := par p 32 2
    let h := par p 34 2
    if b.target < 9 then
      if par p o 4 = 0 ∨ par p (o + 6) 1 ≠ 0 then t else t.resolveBlock (par p o 4) (par p (o + 4) 1) (par p 36 1) w h b
    else if final ∧ 16 ≤ b.target ∧ b.target < 24 ∧ par p (o + 8) 4 ≠ 0 then t.resolveBlock (par p (o + 8) 4) (par p (o + 4) 1) 1 w h b
    else t) s

/-- PARTIAL_RENDER (R214, R216): the segment, which holds `held` chunks and may take no more, is rendered and stored; its chunks return; the next
segment begins or waits. -/
def execPartialRender (pk : Pkt) (held : Nat) (blocks : List BlockOut) (s : State) : Host.Outcome State Fault Refusal := if s.safe then .next s else
  .next (match s.work? pk with
    | none => s
    | some w =>
      if w.op ≠ 0x0310 ∨ w.chunks = 0 ∨ held = 0 ∨ s.chunksFree + w.chunks < held ∨
          (s.setWork pk (fun w => { w with chunks := held })).mayTake w.cls held = true then s
      else
        let s := (s.applyBlocks w.params false blocks).count RND_PARTIAL_COUNT
        let s := if w.told ∨ ¬ isInst w.owner then s else s.post w.owner 0x8301 0 w.pk.seq held
        ((s.setWork pk (fun w => { w with chunks := 0, told := true })).trimArena).firstChunk pk)

/-! ### What the units saw (R233, R241, R244) -/

/-- Set bits of a feedback map (R241): for each tile met that is not resident, once. -/
def State.feedbackBit (s : State) (x : Nat × Nat) : State :=
  match (s.shelf x.1).obj with
  | none => s
  | some o =>
    match o.desc.sparse with
    | none => s
    | some l =>
      if l.contains x.2 ∨ o.granules ≤ x.2 then s
      else
        let s := s.count TEX_SPARSE_MISS_COUNT
        match o.feedback with
        | some (h, off) =>
          if s.getF TEX_CTRL TEX_CTRL_FEEDBACK_EN = 1 ∧ (s.obj? h).isSome then
            let a := off + 4 * (x.2 / 32) + x.2 % 32 / 8
            let b := s.objByte (handleIndex h) a
            if b.getLsbD (x.2 % 8) then s else s.store (handleIndex h) a [b ||| (1 <<< (x.2 % 8))]
          else s
        | none => s

/-- Bytes of an object as a number. -/
def State.objNat (s : State) (h off n : Nat) : Nat := leNat (s.objBytes (handleIndex h) off n)

/-- The TYPE of a reference and its byte offset (R242). -/
def refType (r : Nat) : Nat := r % 8
def refOffset (r : Nat) : Nat := r / 8 * 32

/-- Is a box node's EXP or one of its children's bounds wrong (R243, reason 4)? -/
def State.boxBad (s : State) (h o : Nat) : Bool :=
  (List.range 3).any (fun a => decide (signed 8 (s.objNat h (o + 1 + a) 1) < -126) || decide (119 < signed 8 (s.objNat h (o + 1 + a) 1))) ||
    (List.range 4).any (fun i => decide (s.objNat h (o + 16 + 4 * i) 4 ≠ 0) &&
      (List.range 3).any (fun a => decide (s.objNat h (o + 35 + 6 * i + a) 1 < s.objNat h (o + 32 + 6 * i + a) 1)))

/-- The nodes of a triangle run from an offset: up to eight, ending with END. -/
def State.runLength (s : State) (h o : Nat) : Option Nat :=
  ((List.range 8).find? (fun k => bit (s.objNat h (o + 32 * k + 1) 1) 1)).map (· + 1)

/-- Why a visit ends its query as malformed, if it does: the reason of Table 8.12 and the offset of the node or header. -/
def State.bvhFault (s : State) (owner : Nat) (v : BvhVisit) : Option (Nat × Nat) :=
  let h := v.handle
  let o := refOffset v.ref
  let n := s.objSize h
  let ty := refType v.ref
  let len := if ty = 2 then 32 else 64
  if v.ref = 0 then
    if n < 64 ∨ s.objNat h 0 4 ≠ 0x48564243 ∨ s.objNat h 4 1 ≠ 1 ∨ s.objNat h 5 1 ≠ v.level ∨ s.objNat h 8 4 = 0 then some (1, 0) else none
  else if 4 ≤ ty ∨ ty = 0 ∨ n < o + len ∨ o % len ≠ 0 then some (2, o)
  else if s.objNat h o 1 ≠ ty then some (3, o)
  else if (ty = 3 ∧ v.level = 0) ∨ (ty = 2 ∧ v.level = 1) then some (7, o)
  else if 16 * s.getF TEX_RAY_CTRL TEX_RAY_CTRL_STEP_LIMIT < v.visits then some (10, o)
  else if ty = 1 then if 64 < v.depth then some (9, o) else if s.boxBad h o then some (4, o) else none
  else if ty = 2 then
    match s.runLength h o with
    | none => some (5, o)
    | some k =>
      if n < o + 32 * k then some (2, o)
      else if (List.range (3 * k)).any (fun j => decide (n < 16 * s.objNat h (o + 32 * (j / 3) + 12 + 4 * (j % 3)) 4 + 16)) then some (6, o)
      else none
  else
    let b := s.objNat h (o + 4) 4
    if (s.obj? b).map Obj.owner = some owner ∧ (s.objUsage b).testBit 6 = true ∧ s.objNat b 5 1 = 0 then none else some (8, o)

/-- BVH_MALFORMED (R244): each malformed query is counted, and told to the owner once for each command and object. -/
def State.bvhReport (s : State) (owner : Nat) (vs : List BvhVisit) : State :=
  (vs.foldl (fun (acc : State × List Nat) v =>
    match acc.1.bvhFault owner v with
    | none => acc
    | some (r, o) =>
      let t := acc.1.count TEX_BVH_ERR_COUNT
      if acc.2.contains v.handle then (t, acc.2) else (t.postOwner owner 0x8311 r v.handle o, v.handle :: acc.2)) (s, [])).1

/-- What the units met takes effect. -/
def State.noteUnits (s : State) (owner : Nat) (u : UnitsSaw) : State :=
  let s := u.misses.foldl (fun (t : State) x => t.feedbackBit x) s
  let s := s.count TEX_META_ERR_COUNT u.badBlocks.length
  let s := match u.badBlocks with
    | [] => s
    | b :: _ => if isInst owner then s.post owner 0x8310 0 b.1 b.2 else s
  (s.bvhReport owner u.nodes).count TEX_RAY_QUERY_COUNT u.queries

/-- PASS_COMPLETE (R211, R220): every tile of the final segment is resolved and visible; the reply, and the deadline if it was missed. -/
def execPassComplete (pk : Pkt) (blocks : List BlockOut) (saw : UnitsSaw) (s : State) : Host.Outcome State Fault Refusal := if s.safe then .next s else
  .next (match s.work? pk with
    | none => s
    | some w =>
      if ¬ w.committed ∨ w.op ≠ 0x0310 ∨ w.waiting.isSome then s
      else
        let s := ((s.applyBlocks w.params true blocks).noteUnits w.owner saw).count RND_PASS_COUNT
        let dl := par w.params 40 8
        let s := (s.dropWork pk).complete pk .ok 0 (w.segs % 65536) (s.now - w.start)
        if dl ≠ 0 ∧ dl < s.now then
          (if isInst w.owner then s.post w.owner 0x8302 0 w.pk.seq (s.now - dl) else s).count RND_DEADLINE_MISS_COUNT
        else s)

/-! ### RND_DISPATCH (R221) -/

/-- RND_DISPATCH (0x0320, Table 7.14). -/
def cmdRndDispatch : Cmd := ⟨0x0320, .tenants, 6, none,
  [⟨16, 16, .any⟩, ⟨32, 4, .readOpt⟩, ⟨36, 2, .rng 1 65535⟩, ⟨38, 2, .rng 1 65535⟩, ⟨40, 2, .rng 1 65535⟩, ⟨42, 2, .zero⟩,
   ⟨44, 4, .rng 0 1000000⟩]⟩

/-- What RND_DISPATCH adds to the shared validation. -/
def hooksRndDispatch (s : State) : Hooks :=
  { handles := fun p => [(1, (shaderAt p 16).module_, false)]
    dyn := fun p => [(1, s.shaderOk (shaderAt p 16) 2)]
    pre := fun p => [usageChk s 1 (shaderAt p 16).module_ 7] ++ (if par p 32 4 = 0 then [] else [usageChk s 2 (par p 32 4) 7])
    uses := fun p => (s.boundObjects (par p 32 4)).map Prod.fst
    writes := fun p => ((s.boundObjects (par p 32 4)).filter (fun b => b.2.2)).map Prod.fst }

/-- The effect of RND_DISPATCH once it is admitted. -/
def effRndDispatch (pk : Pkt) (p : List Byte) (t : State) : State :=
  let owner := t.ownerOf pk.fn
  if (t.work? pk).isSome then t
  else match t.prepare owner 2 (par p 32 4) [] [(1, shaderAt p 16, [])] with
    | (u, .error (n, e)) => u.complete pk e.st n e.reason e.loc
    | (u, .ok progs) =>
      (u.addWork pk owner 0x0320 (u.bestClass (((u.boundObjects (par p 32 4)).filter (fun b => b.2.2)).map Prod.fst)) p progs).beginWork pk

/-- RND_DISPATCH (R221): compiled, bound and committed. -/
def execRndDispatch (pk : Pkt) (s : State) : Host.Outcome State Fault Refusal :=
  .next (runPkt cmdRndDispatch pk s (hooksRndDispatch s) (effRndDispatch pk))

/-- DISPATCH_COMPLETE (R221): every workgroup has finished and its writes are visible. -/
def execDispatchComplete (pk : Pkt) (saw : UnitsSaw) (s : State) : Host.Outcome State Fault Refusal := if s.safe then .next s else
  .next (match s.work? pk with
    | none => s
    | some w =>
      if ¬ w.committed ∨ w.op ≠ 0x0320 then s
      else
        ((s.noteUnits w.owner saw).dropWork pk).complete pk .ok 0 (par w.params 36 2 * par w.params 38 2 * par w.params 40 2) (s.now - w.start))

/-! ### RND_SET_ARENA, watchdog, stalls -/

/-- RND_SET_ARENA (0x0330, Table 7.12). -/
def cmdRndSetArena : Cmd := ⟨0x0330, .manager, 2, none, [⟨16, 4, .rng 16 8192⟩, ⟨20, 4, .any⟩, ⟨24, 4, .any⟩, ⟨28, 4, .rng 16 1024⟩]⟩

/-- Quota that no instance has been granted and the manager does not use (R82). -/
def State.ungranted (s : State) : Nat := s.quotaPool - s.granted Grant.mem - s.memUsed 0

/-- Where the arena's growth goes (R213); none where it does not fit. -/
def State.arenaRoom (s : State) (n : Nat) : Option (List (Nat × Nat)) :=
  (spread s.roomAt n (s.dramOrder 32 2)).map (fun l => l.filterMap (fun r =>
    match r.1 with
    | .region k => some (k, r.2)
    | .bank _ => none))

/-- What RND_SET_ARENA adds to the shared validation. -/
def hooksRndSetArena (s : State) : Hooks :=
  { dyn := fun p => [(2, decide (2 * par p 20 4 ≤ par p 16 4)), (3, decide (1 ≤ par p 24 4) && decide (par p 24 4 ≤ par p 16 4))]
    post := fun p =>
      let grow := 16 * par p 16 4 - s.arenaTotal
      let code := 16 * par p 28 4 - s.codeGranules
      [⟨grow ≤ s.ungranted ∧ (s.arenaRoom grow).isSome = true, .noResource, 1⟩, ⟨code + grow ≤ s.ungranted, .noResource, 4⟩] }

/-- The effect of RND_SET_ARENA once it is admitted. -/
def effRndSetArena (pk : Pkt) (p : List Byte) (t : State) : State :=
  let grow := 16 * par p 16 4 - t.arenaTotal
  let t := { t with mem := { t.mem with arena := t.mem.arena ++ (t.arenaRoom grow).getD [] }, rnd := { t.rnd with goalMib := par p 16 4 } }
  let t := (t.setReg RND_ARENA_LIMITS (par p 24 4 * 65536 + par p 20 4)).setF RND_CODE_STATUS RND_CODE_STATUS_CODE_MIB (par p 28 4)
  (State.trimCode t.rnd.progs.length t.trimArena).complete pk .ok

/-- RND_SET_ARENA (R215). -/
def execRndSetArena (pk : Pkt) (s : State) : Host.Outcome State Fault Refusal :=
  .next (runPkt cmdRndSetArena pk s (hooksRndSetArena s) (effRndSetArena pk))

/-- TILE_WATCHDOG (R222): the tile or workgroup is stopped; the command ends with FAULTED and its instance is contained. -/
def execTileWatchdog (pk : Pkt) (cluster : Nat) (s : State) : Host.Outcome State Fault Refusal := if s.safe then .next s else
  .next (match s.work? pk with
    | none => s
    | some w =>
      if ¬ w.committed ∨ 24 ≤ cluster then s
      else
        let s := s.postMgr 0x8303 cluster w.pk.seq 0
        let s := if isInst w.owner then s.post w.owner 0x8303 cluster w.pk.seq 0 else s
        (s.failWork pk 0).fault1 w.owner 5 cluster 0x05 w.pk.seq cluster)

/-- CLUSTER_STALL_TIMEOUT (R224): committed work has waited longer than STALL_MS with no cluster up. -/
def execClusterStallTimeout (pk : Pkt) (s : State) : Host.Outcome State Fault Refusal := if s.safe then .next s else
  .next (match s.work? pk with
    | none => s
    | some w => if ¬ w.committed ∨ s.clusterUp then s else s.failWork pk 2)

/-- REMOTE_SEGMENT_LOST (R138): the segment is run again here from its start. -/
def execRemoteSegmentLost (pk : Pkt) (peer : Nat) (s : State) : Host.Outcome State Fault Refusal := if s.safe then .next s else
  .next (match s.work? pk with
    | none => s
    | some w =>
      if ¬ w.committed ∨ w.op ≠ 0x0310 ∨ ¬ isInst w.owner then s
      else s.post w.owner 0x8203 0 (((passTargets w.params).head?.map (fun x => x.2.1)).getD 0) peer)

/-- RND_CLUSTER_UP as read (Table 7.21). -/
def State.showClusterUp (s : State) : Nat := ((List.range 24).map (fun c => if s.domainUp (9 + c / 4) then 2 ^ c else 0)).foldl (· + ·) 0

end Sys2Proof.Machine
end

