-- ==== Sys2Proof/Machine/Escapement.lean ====
section
/-! DEFINITION. Escapement (R181 to R189): the choice of a grant, the checks made at it, and the access of one beat. -/

namespace Sys2Proof.Machine

/-- A target: channel c is c, bank b is 16 + b (R181). -/
def State.target (s : State) (n : Nat) : Target := tabGet (fun _ => {}) s.esc.targets n
def State.setTarget (s : State) (n : Nat) (t : Target) : State :=
  { s with esc := { s.esc with targets := tabSet (fun _ => {}) s.esc.targets n t } }

/-- The subsystem and unit behind a port (Tables 1.1, 6.1); the C0 path is unit 8 beside the pipes. -/
def portUnit (p : Nat) : Nat × Nat :=
  if p < 24 then (5, p) else if p < 32 then (7, p - 24) else if p = 32 then (7, 8) else if p = 33 then (13, 0)
  else if p = 34 then (3, 0) else if p < 37 then (4, p - 35) else if p < 39 then (1, p - 37) else if p < 43 then (12, p - 39)
  else if p = 43 then (16, 0) else if p = 44 then (10, 0) else (19, p - 45)

/-- The layer that holds a slot of a pipe, as the frame being composed shows it. -/
def State.layerInSlot (s : State) (k slot : Nat) : Option SceneLayer :=
  (s.pipe k).scene.layers.find? (fun q => s.slotOf k q.key = some (16 * k + slot))

/-- The urgency of a layer's fetches (R33, Table 1.2). -/
def State.layerUrgency (s : State) (k slot : Nat) (q : SceneLayer) : Nat :=
  let base := if q.set.cls = 1 then 4 else if q.set.cls = 2 then 2 else 0
  let fill := s.fillOf (16 * k + slot) q
  if fill < q.set.critWm then 7 else if fill < q.set.lowWm then max 5 base else base

/-- The issued urgency of a request; that of a layer fetch follows the watermarks, pending or not (R183, R184). -/
def State.issuedNow (s : State) (r : EscReq) : Nat :=
  if 24 ≤ r.port ∧ r.port < 32 then
    match s.layerInSlot (r.port - 24) r.slot with
    | some q => s.layerUrgency (r.port - 24) r.slot q
    | none => r.urg
  else r.urg

/-- The effective urgency (R185): aging raises, and never lowers. -/
def State.effective (s : State) (p : Pending) : Nat := max (s.issuedNow p.req) p.aged

/-- Is the next slot of the round reserved for C1 (R187)? -/
def Target.reservedSlot (t : Target) : Bool :=
  let n := bits t.ctrl.toNat 11 8
  (List.range n).any (fun i => decide (t.grants + 1 = i * bits t.ctrl.toNat 23 16 / n + 1))

/-- The requests that are pending: the queue holds 64, the rest wait at their ports (R182). -/
def Target.pendingNow (t : Target) : List Pending := t.queue.take 64

/-- The request a grant slot goes to (R185), and whether step 1 chose it. -/
def State.chooseGrant (s : State) (t : Target) : Option (Pending × Bool) :=
  let ps := t.pendingNow
  let oldest := fun (p : Pending) => p.order * 64 + p.req.port
  let c1 := if t.reservedSlot && !ps.any (fun p => decide (s.effective p = 7) || decide (p.req.cls = 0)) then
      minBy oldest (ps.filter (fun p => decide (p.req.cls = 1) && decide (2 ≤ s.issuedNow p.req)))
    else none
  match c1 with
  | some p => some (p, true)
  | none => (minBy (fun p => (7 - s.effective p) * 2 ^ 80 + oldest p) ps).map (fun p => (p, false))

/-- The end of a round (R186, R194): what has waited through it ages by one step; ESC_CTRL as it stands now takes effect. -/
def State.endRound (s : State) (n : Nat) : State :=
  let t := s.target n
  let cap := min 6 (bits t.ctrl.toNat 26 24)
  let ages := fun (p : Pending) => bit t.ctrl.toNat 31 && p.sinceRound && decide (p.req.cls ≠ 3) && decide (s.effective p < cap)
  let steps := (t.pendingNow.filter ages).length
  let s := s.setTarget n { t with
    queue := t.pendingNow.map (fun (p : Pending) => { p with aged := if ages p then s.effective p + 1 else p.aged, sinceRound := true }) ++ t.queue.drop 64
    grants := 0
    ctrl := BitVec.ofNat 32 (s.reg ESC_CTRL) }
  s.count ESC_AGED_COUNT steps

/-- Has the target's round had its grants? -/
def Target.roundFull (t : Target) : Bool := decide (bits t.ctrl.toNat 23 16 ≤ t.grants)

/-- ESC_ROUND_END (R186). -/
def execEscRoundEnd (target : Nat) (s : State) : Host.Outcome State Fault Refusal :=
  .next (if target < 32 ∧ (s.target target).roundFull = true then s.endRound target else s)

/-- Is the request one for C0 content in a held bank, from a port that may not make it (R177, R346)? -/
def State.secretRefused (s : State) (n : Nat) (r : EscReq) : Bool :=
  decide (4096 ≤ r.index) && decide (16 ≤ n) && s.bankHeld (n - 16) &&
    !(decide (r.port = 33) || decide (r.port = 44) || (r.write.isNone && (decide (r.port = 32) ||
      (decide (r.port = 46) && decide (s.getF DBG_CROWN_STATUS DBG_CROWN_STATUS_LEVEL = 2)))))

/-- Does the request meet a write hold, or carry a poisoned beat to storage (R171, R189)? -/
def State.heldBack (s : State) (r : EscReq) : Bool :=
  r.write.isSome && (r.poison || s.shm.moves.any (fun m => m.hold && decide (m.index = r.index) && decide (m.gran = 32 * r.beat / 65536)))

/-- A cluster's access faults (R223, R520): the pass or dispatch it works for ends, and its instance is contained. -/
def State.accessFault (s : State) (r : EscReq) (h off : Nat) : State :=
  let s := match s.rnd.works.find? (fun w => w.committed && decide (r.port < 24) && decide (w.owner = r.inst) && decide (w.pk.seq = r.seq)) with
    | some w => s.failWork w.pk 0
    | none => s
  s.fault1 r.inst (portUnit r.port).1 (portUnit r.port).2 0x02 h off

/-- A read of a beat (R167 to R173): corrected errors are counted; an uncorrectable beat has the effect of Table 5.9 for those who take it at
the target (the commands of the other ports see the mark themselves); the scrub writes back what it corrects. -/
def State.readBeat (s : State) (r : EscReq) : State :=
  let off := 32 * r.beat
  let h := ((s.shelf r.index).obj.map (fun o => o.desc.handle)).getD 0
  let s := if r.port = 44 then { s with mem := { s.mem with scrubbed := s.mem.scrubbed + 1 } } else s
  if s.beatBad r.index r.beat then
    if r.port < 24 then (s.postUe r.index off).accessFault r h off
    else if r.port < 32 then
      match s.layerInSlot (r.port - 24) r.slot with
      | some q => s.layerPoison (r.port - 24) (s.pipe (r.port - 24)).scene.frame off q
      | none => s.postUe r.index off
    else if r.port = 44 then
      ((s.postUe r.index off).record 10 (s.unitOf r.index off) 1 0x03 (((s.shelf r.index).obj.map Obj.owner).getD 0xFF) h off).state
    else if r.port = 35 ∨ r.port = 36 then
      match s.move? r.index (off / 65536) with
      | some m => (s.postUe r.index off).cancelMove m 2
      | none => s.postUe r.index off
    else s.postUe r.index off
  else
    let s := s.noteRead r.index off 32
    if r.port = 44 then s.settleBeat r.index r.beat else s

/-- A write of a beat or a part of it (R168, R170, R174). -/
def State.writeBeat (s : State) (r : EscReq) (bs : List Byte) : State :=
  let off := 32 * r.beat
  if popCount 32 r.mask = 32 then s.store r.index off ((List.range 32).map (fun k => bs.getD k 0))
  else if s.beatBad r.index r.beat then
    (s.postUe r.index off).accessFault r (((s.shelf r.index).obj.map (fun o => o.desc.handle)).getD 0) off
  else
    let s := s.settleBeat r.index r.beat
    s.writeObj r.index off ((List.range 32).map (fun k => if r.mask.testBit k then bs.getD k 0 else s.objByte r.index (off + k)))

/-- The access of a granted request. -/
def State.access (s : State) (r : EscReq) : State :=
  if (s.shelf r.index).obj.isNone then
    if r.port = 44 then { s with mem := { s.mem with scrubbed := s.mem.scrubbed + 1 } } else s
  else match r.write with
  | none => s.readBeat r
  | some bs => s.writeBeat r bs

/-- The occurrences of a grant, and of its data where it moves some (Table 20.2): those of the C0 path and the Strongroom are of the secure world. -/
def State.noteGrant (s : State) (n : Nat) (urg : Nat) (r : EscReq) (moves : Bool) : State :=
  let h := ((s.shelf r.index).obj.map (fun (o : Obj) => o.desc.handle)).getD 0
  let o : Occ := { event := 0x5001, unit := n, inst := r.inst, secure := decide (r.port = 32 ∨ r.port = 33), cls := some r.cls, handle := h, off := 32 * r.beat }
  let s := (((s.fixedCount 5 1).occur o).occur { o with event := 0x5100 + r.port }).occur { o with event := 0x5200 + urg }
  if moves then
    let w := b2n r.write.isSome
    if n < 16 then (s.fixedCount (2 + w) 32).occur { o with event := 0x6001 + w, n := 32 }
    else s.occur { o with event := 0x7001 + w, unit := n - 16, n := 32 }
  else s

/-- ESC_GRANT (R185, R187 to R189): the requests that arrived in time for the decision join the queue; one is chosen; at the grant a write hold or a
poisoned beat leaves the slot idle and the request pending, and a request the secure world refuses is ended, recorded against its instance or, with
none, at T2 (R346). -/
def execEscGrant (target : Nat) (arrived : List EscReq) (s : State) : Host.Outcome State Fault Refusal :=
  .next (if 32 ≤ target then s
  else
    let s := if (s.target target).roundFull then s.endRound target else s
    let t := s.target target
    let new := (arrived.filter (fun r => decide (4096 ≤ r.index) || decide (s.unitOf r.index (32 * r.beat) = target))).map (fun r =>
      Pending.mk t.orders r r.urg 0 false)
    let t := { t with queue := t.queue ++ new, orders := t.orders + 1 }
    match s.chooseGrant t with
    | none => s.setTarget target t
    | some (p, byReserve) =>
      let s := s.noteGrant target (s.effective p) p.req (!s.secretRefused target p.req && !s.heldBack p.req)
      let s := if s.effective p = 7 then s.count ESC_URG7_COUNT else s
      let s := if byReserve then s.count ESC_C1_SLOT_COUNT else s
      let t := { t with grants := t.grants + 1 }
      let rest := dropFirst (fun q => decide (q = p)) t.queue
      if s.secretRefused target p.req then
        let u := portUnit p.req.port
        let s := (s.setTarget target { t with queue := rest }).count ESC_STALE_COUNT
        if p.req.inst = 0xFF then (s.record u.1 u.2 2 0x07 0xFF target p.req.port).state
        else s.fault1 p.req.inst u.1 u.2 0x07 target p.req.port
      else if s.heldBack p.req then (s.setTarget target t).count ESC_STALE_COUNT
      else (s.setTarget target { t with queue := rest }).access p.req)

end Sys2Proof.Machine
end

