-- ==== Sys2Proof/Machine/Fabric.lean ====
section
/-! DEFINITION. The Maermop fabric (R488 to R512): links, discovery, ranking and routes, topology changes, object traffic, the management tree, fabric
time. -/

namespace Sys2Proof.Machine

/-! ### Links -/

/-- This device's identifier (R5). -/
def ownUid : Nat := Config.uid.toNat

/-- The state of a link: 0 down, 1 training, 2 up, 3 disabled. -/
def State.linkState (s : State) (l : Nat) : Nat := s.getF (FAB_LINK_STATUS l) FAB_LINK_STATUS_STATE

/-- The identifier of the peer on a link, 0 for none. -/
def State.peerOn (s : State) (l : Nat) : Nat := if s.linkState l = 2 then tabGet (fun _ => 0) s.fab.peers l else 0

/-- The links that are up. -/
def State.upLinks (s : State) : List Nat := (List.range 4).filter (fun l => decide (s.linkState l = 2))

/-- What this device tells of itself (R494). -/
def State.ownDisc (s : State) : Disc :=
  ⟨ownUid, (List.range 4).map s.peerOn, decide (s.getF FAB_STATUS FAB_STATUS_CLAIM = 1),
    s.getF (HOST_LINK_STATUS 0) HOST_LINK_STATUS_UP = 1 || s.getF (HOST_LINK_STATUS 1) HOST_LINK_STATUS_UP = 1, s.fab.ownSeq⟩

/-- A topology change begins (R494, R496): CONVERGING is set and a discovery flit goes out on all up links. -/
def State.startChange (s : State) : State :=
  let s := { s with fab := { s.fab with ownSeq := s.fab.ownSeq + 1 } }
  let d := s.ownDisc
  s.upLinks.foldl (fun (t : State) l => t.emit (.discovery l d)) (s.setF FAB_STATUS FAB_STATUS_CONVERGING 1)

/-- The state of a link changes (R493): EV_FAB_LINK, and a topology change. -/
def State.linkChange (s : State) (l st width uid : Nat) : State :=
  let s := s.setReg (FAB_LINK_STATUS l) (st * 2 ^ 30 + width * 2 ^ 27)
  let s := { s with fab := { s.fab with peers := tabSet (fun _ => 0) s.fab.peers l uid, resends := tabErase s.fab.resends l } }
  (s.postMgr 0x8B02 l (s.reg (FAB_LINK_STATUS l)) 0).startChange

/-- FAB_LINK_UP (R493): while FAB is up and LINK_EN is set. -/
def execFabLinkUp (link width uid : Nat) (s : State) : Host.Outcome State Fault Refusal := if s.safe then .next s else
  .next (if link < 4 ∧ s.domainUp 18 ∧ (s.getF FAB_CTRL FAB_CTRL_LINK_EN).testBit link = true ∧ s.linkState link ≠ 2 ∧
      [1, 2, 4].contains width = true ∧ uid ≠ 0 then
    s.linkChange link 2 width uid
  else s)

/-- A link goes down, or is disabled. -/
def State.downLink (s : State) (l st : Nat) : State := if s.linkState l = st then s else s.linkChange l st 0 0

/-- FAB_LINK_LOSS (R493). -/
def execFabLinkLoss (link : Nat) (s : State) : Host.Outcome State Fault Refusal :=
  .next (if link < 4 ∧ s.linkState link = 2 then s.downLink link 0 else s)

/-- FAB drops, or the links are halted: every link is down (R488, R524). -/
def State.downAllLinks (s : State) : State := s.upLinks.foldl (fun (t : State) l => t.downLink l 0) s

/-- A write of FAB_CTRL (Table 18.5): clearing a LINK_EN bit takes its link down; setting it lets the link train. -/
def State.writeFabCtrl (s : State) (w v : Nat) : State :=
  s.regWrite w FAB_CTRL 0 v (fun t =>
    let t := t.setReg FAB_CTRL (v &&& 0xE000000F)
    (List.range 4).foldl (fun (u : State) l =>
      if v.testBit l then (if u.linkState l = 3 then u.setReg (FAB_LINK_STATUS l) 0 else u) else u.downLink l 3) t)

/-- FLIT_RESEND (R491, R493): counted; the fourth resend of one flit takes the link down. -/
def execFlitResend (link seq : Nat) (s : State) : Host.Outcome State Fault Refusal := if s.safe then .next s else
  .next (if link < 4 ∧ s.linkState link = 2 then
    let s := (s.count (FAB_REPLAY_COUNT link)).occur { event := 0x9003, unit := link }
    let r := tabGet (fun _ => (0, 0)) s.fab.resends link
    let n := if r.1 = seq then r.2 + 1 else 1
    if 4 ≤ n then s.downLink link 0
    else { s with fab := { s.fab with resends := tabSet (fun _ => (0, 0)) s.fab.resends link (seq, n) } }
  else s)

/-- FLIT_DISCOVERY (R494): recorded, and forwarded on the other links, if it is newer than the last from its device; a device that is EXCLUDED
forwards nothing. -/
def execFlitDiscovery (link : Nat) (d : Disc) (s : State) : Host.Outcome State Fault Refusal := if s.safe then .next s else
  .next (if 4 ≤ link ∨ s.linkState link ≠ 2 ∨ d.uid = ownUid ∨ s.fab.heard.any (fun (x : Disc) => decide (x.uid = d.uid ∧ d.seq ≤ x.seq)) then s
  else
    let s := { s with fab := { s.fab with heard := s.fab.heard.filter (fun (x : Disc) => decide (x.uid ≠ d.uid)) ++ [d] } }
    let s := s.setF FAB_STATUS FAB_STATUS_CONVERGING 1
    if s.getF FAB_STATUS FAB_STATUS_EXCLUDED = 1 then s
    else (s.upLinks.filter (fun l => decide (l ≠ link))).foldl (fun (t : State) l => t.emit (.discovery l d)) s)

/-! ### Ranking and routes (R494, R495, R500) -/

/-- Are two devices joined, by what both tell? -/
def joined (ds : List Disc) (a b : Nat) : Bool :=
  ds.any (fun d => decide (d.uid = a) && d.peers.contains b) && ds.any (fun d => decide (d.uid = b) && d.peers.contains a)

/-- The devices that can be reached from a set, in so many hops. -/
def spreadOut (ds : List Disc) : Nat → List Nat → List Nat
  | 0, l => l
  | n + 1, l => spreadOut ds n (l ++ (ds.map Disc.uid).filter (fun u => !l.contains u && l.any (fun a => joined ds a u)))

/-- Insertion in ascending order. -/
def rankUids (l : List Nat) : List Nat := sortBy id l.eraseDups

/-- Hop distances from a device among those that take part: by breadth. -/
def hopsFrom (ds : List Disc) (part : List Nat) (root : Nat) : List (Nat × Nat) :=
  (List.range 64).foldl (fun (acc : List (Nat × Nat)) n =>
    acc ++ ((part.filter (fun u => !acc.any (fun x => decide (x.1 = u)) &&
      acc.any (fun x => decide (x.2 = n) && joined ds x.1 u))).map (fun u => (u, n + 1)))) [(root, 0)]

/-- What a convergence works with: discovery flits, the devices that take part in rank order, their distances from the root. -/
structure Topo where
  ds : List Disc
  part : List Nat
  levels : List (Nat × Nat)

/-- The fabric address of a device. -/
def Topo.addr (t : Topo) (u : Nat) : Nat := (t.part.findIdx? (fun x => decide (x = u))).getD 64

/-- Its level. -/
def Topo.level (t : Topo) (u : Nat) : Nat := ((t.levels.find? (fun x => x.1 = u)).map Prod.snd).getD 64

/-- Does a hop from `a` to `b` go up (R495)? -/
def Topo.goesUp (t : Topo) (a b : Nat) : Bool := decide (t.level b * 64 + t.addr b < t.level a * 64 + t.addr a)

/-- Distances to `dest` from each device: while up hops are allowed, and once the route goes down; 1,000: none. -/
def Topo.distances (t : Topo) (dest : Nat) : List (Nat × Nat × Nat) :=
  let get := fun (l : List (Nat × Nat × Nat)) (u : Nat) => ((l.find? (fun x => x.1 = u)).map Prod.snd).getD (1000, 1000)
  (List.range 130).foldl (fun (l : List (Nat × Nat × Nat)) _ =>
    t.part.map (fun u =>
      if u = dest then (u, 0, 0)
      else
        let ns := t.part.filter (fun b => joined t.ds u b)
        let down := (ns.filter (fun b => !t.goesUp u b)).foldl (fun (m : Nat) b => min m ((get l b).2 + 1)) 1000
        let up := (ns.filter (fun b => t.goesUp u b)).foldl (fun (m : Nat) b => min m ((get l b).1 + 1)) 1000
        (u, min up down, down))) (t.part.map (fun u => (u, if u = dest then (0, 0) else (1000, 1000))))

/-- The lowest-numbered link of this device on a shortest legal path (R495); `down`: the route already goes down. -/
def Topo.linkTo (t : Topo) (peers : List Nat) (dest : Nat) (down : Bool) : Nat :=
  let ds := t.distances dest
  let get := fun (u : Nat) => ((ds.find? (fun x => x.1 = u)).map Prod.snd).getD (1000, 1000)
  let cost := fun (b : Nat) => if t.goesUp ownUid b then (if down then 1000 else (get b).1 + 1) else (get b).2 + 1
  ((minBy (fun (x : Nat × Nat) => cost x.1 * 4 + x.2) ((peers.zipIdx).filter (fun x => t.part.contains x.1))).map Prod.snd).getD 0

/-- The parent of a worker in the management tree (R500): the neighbour nearest the fabric manager, the lowest address among equals. -/
def Topo.parent (t : Topo) (fm u : Nat) : Option Nat :=
  let h := hopsFrom t.ds t.part fm
  let d := fun (x : Nat) => ((h.find? (fun y => y.1 = x)).map Prod.snd).getD 64
  if u = fm then none else minBy (fun b => d b * 64 + t.addr b) (t.part.filter (fun b => joined t.ds u b))

/-- The address of a device in the installed map, 64 if it is in none. -/
def State.addrOf (s : State) (uid : Nat) : Nat := ((s.fab.map.find? (fun d => d.uid = uid)).map FabDev.addr).getD 64
def State.uidOf (s : State) (addr : Nat) : Nat := ((s.fab.map.find? (fun d => d.addr = addr)).map FabDev.uid).getD 0

/-- A worker's held entries go to its fabric manager, drops first (R503). -/
def State.flushFabric (s : State) : State :=
  if s.getF FAB_STATUS FAB_STATUS_FM_PRESENT = 1 ∧ s.getF FAB_STATUS FAB_STATUS_CONVERGING = 0 then
    let l := s.fab.held
    let s := if s.fab.heldLost = 0 then s else s.emit (.fabricLost s.fab.heldLost)
    l.foldl (fun (t : State) e => t.emit (.fabric e.1 e.2.1 e.2.2)) { s with fab := { s.fab with held := [], heldLost := 0 } }
  else s

/-- Mirrors held for peers that cannot be reached are dropped, and peers that cannot be reached mirror nothing (R138). -/
def State.dropUnreachable (s : State) : State :=
  let there := fun (u : Nat) => s.fab.reach.contains u
  let s := { s with fab := { s.fab with mirrors := s.fab.mirrors.filter (fun m => there m.home) } }
  { s with shm := { s.shm with entries := s.shm.entries.map (fun (e : Nat × ShelfEntry) => (e.1, { e.2 with obj := e.2.obj.map (fun (o : Obj) =>
      { o with grans := tabMap (fun _ => {}) o.grans (fun _ g =>
          { g with mirrors := g.mirrors.filter there, behind := g.behind.filter there }) }) })) } }

/-- What the fabric knows at a convergence. -/
def State.topo (s : State) : Topo × List Nat :=
  let ds := s.ownDisc :: s.fab.heard
  let all := rankUids (spreadOut ds 64 [ownUid])
  let part := all.take 64
  (⟨ds, part, hopsFrom ds part (part.headD 0)⟩, all)

/-- The fabric manager among those that take part: the claimant with the lowest identifier (R499). -/
def Topo.fm (t : Topo) : Option Nat := t.part.find? (fun u => t.ds.any (fun d => decide (d.uid = u) && d.claims))

/-- Does this device take part? -/
def Topo.inside (t : Topo) : Bool := t.part.contains ownUid

/-- Is this device the fabric manager? -/
def Topo.manages (t : Topo) : Bool := decide (t.fm = some ownUid)

/-- Does this device take part under a fabric manager that is another? -/
def Topo.follows (t : Topo) : Bool := t.inside && t.fm.isSome && !t.manages

/-- How many devices take part, seen from this one. -/
def Topo.size (t : Topo) : Nat := if t.inside then t.part.length else 0

/-- The devices as the map lists them, with the peers of this device's links. -/
def Topo.devices (t : Topo) (peers : List Nat) : List FabDev :=
  let hops := hopsFrom t.ds t.part ownUid
  if t.inside then t.part.map (fun u => (⟨u, t.addr u, ((hops.find? (fun x => x.1 = u)).map Prod.snd).getD 0,
    t.linkTo peers u false, t.linkTo peers u true, decide (t.fm = some u), t.ds.any (fun d => decide (d.uid = u) && d.hostUp)⟩ : FabDev)) else []

/-- Addresses, routes and the neighbours of each device are installed; the first fabric manager's time is the fabric's. -/
def State.installMap (s : State) (t : Topo) (known : List Nat) : State :=
  { s with fab := { s.fab with
      reach := if t.inside then t.part.filter (fun u => decide (u ≠ ownUid)) else []
      map := t.devices ((List.range 4).map s.peerOn)
      worker := (s.fab.worker || (t.inside && t.fm.isSome)) && !t.manages
      heard := s.fab.heard.filter (fun (d : Disc) => known.contains d.uid)
      adjacent := t.part.foldl (fun (a : Tab (List Nat)) u =>
        tabSet (fun _ => []) a u (t.part.filter (fun b => joined t.ds u b))) s.fab.adjacent
      timeOffset := if t.manages && s.fab.timeOffset.isNone then some 0 else s.fab.timeOffset } }

/-- FAB_STATUS as the convergence leaves it (Table 18.5). -/
def State.fabStatus (s : State) (t : Topo) : Nat :=
  let claim := s.getF FAB_STATUS FAB_STATUS_CLAIM
  b2n t.manages * 2 ^ 31 + claim * 2 ^ 30 + b2n (claim = 1 && !t.manages && t.fm.isSome) * 2 ^ 29 + b2n (t.inside && t.fm.isSome) * 2 ^ 28 +
    b2n (!t.inside) * 2 ^ 27 + s.getF FAB_STATUS FAB_STATUS_TIME_HOLD * 2 ^ 26 + ((t.fm.map t.addr).getD 0) * 2 ^ 16 + t.size * 2 ^ 8 +
    (if t.inside then t.addr ownUid else 0)

/-- What a link's register shows of the peer on it. -/
def State.showLink (s : State) (t : Topo) (l : Nat) : State :=
  let u := s.peerOn l
  if u = 0 ∨ ¬ t.inside ∨ ¬ t.part.contains u then s
  else
    (((s.setF (FAB_LINK_STATUS l) FAB_LINK_STATUS_PEER_ADDR (t.addr u)).setF (FAB_LINK_STATUS l) FAB_LINK_STATUS_UP_DIR
      (b2n (t.goesUp ownUid u))).setF (FAB_LINK_STATUS l) FAB_LINK_STATUS_PARENT (b2n (t.fm.any (fun m => decide (t.parent m ownUid = some u))))).setF
      (FAB_LINK_STATUS l) FAB_LINK_STATUS_CHILD (b2n (t.fm.any (fun m => decide (t.parent m u = some ownUid))))

/-- The manager, and each instance that may span, is told of the new map; the manager of a claim that lost, and of a fabric manager that is gone
(R500, R507). -/
def State.tellMap (s : State) (t : Topo) (gen : Nat) (had : Bool) : State :=
  let s := s.postMgr 0x8B01 (b2n (!t.inside)) gen t.size
  let s := (s.liveInsts.filter (fun n => (s.inst n).span)).foldl (fun (v : State) n => v.post n 0x8B01 (b2n (!t.inside)) gen t.size) s
  let s := if s.getF FAB_STATUS FAB_STATUS_CLAIM = 1 ∧ t.manages = false ∧ t.fm.isSome then s.postMgr 0x8B03 0 (t.fm.getD 0) 0 else s
  if had ∧ ¬ t.follows ∧ t.manages = false then s.postMgr 0x8B04 0 0 0 else s

/-- Changes of role that waited complete. -/
def State.endRoleWaits (s : State) (t : Topo) : State :=
  s.fab.roleWaits.foldl (fun (v : State) pk => v.complete pk .ok 0 (b2n t.manages)) { s with fab := { s.fab with roleWaits := [] } }

/-- Wakes of devices that are back complete. -/
def State.endWakeWaits (s : State) : State :=
  (s.fab.wakeWaits.filter (fun w => s.fab.reach.contains w.2)).foldl (fun (v : State) w => v.complete w.1 .ok)
    { s with fab := { s.fab with wakeWaits := s.fab.wakeWaits.filter (fun w => !s.fab.reach.contains w.2) } }

/-- The map of a convergence takes effect. -/
def State.converge (s : State) (t : Topo) (known : List Nat) : State :=
  let gen := (s.reg FAB_GEN + 1) % 2 ^ 32
  let had := s.getF FAB_STATUS FAB_STATUS_FM_PRESENT = 1
  let s := s.installMap t known
  let s := ((s.setReg FAB_STATUS (s.fabStatus t)).setReg FAB_GEN gen).dropUnreachable
  let s := (List.range 4).foldl (fun (v : State) l => v.showLink t l) s
  ((s.tellMap t gen had).endRoleWaits t).endWakeWaits.flushFabric

/-- FABRIC_CONVERGED (R494 to R500, R507): addresses, routes and tree are installed; the generation rises; the role is settled; what waited for the
change goes on. -/
def execFabricConverged (s : State) : Host.Outcome State Fault Refusal := if s.safe then .next s else
  .next (if s.getF FAB_STATUS FAB_STATUS_CONVERGING = 0 then s else s.converge s.topo.1 s.topo.2)

/-! ### Object traffic (R490 to R492, R497, R498) -/

/-- A codeword: a beat and its check bytes. -/
def codeword (data : List Byte) : List Byte := data ++ folioCheck data

/-- What a hop makes of a codeword (R492): corrected, or poisoned as it is. -/
def hopBeat (c : List Byte) : List Byte × Bool :=
  match folioDecode c with
  | .clean => (c, false)
  | .single j v => (xorAt c j v, false)
  | .uncorrectable => (c, true)

/-- The flit after this device has decoded its beats. -/
def flitHop (f : Flit) : Flit :=
  let r := f.beats.map hopBeat
  { f with
    beats := r.map Prod.fst
    poison := f.poison ||| ((r.zipIdx.map (fun x => if x.1.2 then 2 ^ x.2 else 0)).foldl (· + ·) 0) }

/-- The response to a request: TYPE, the request's TAG, back to its source. -/
def flitAnswer (f : Flit) (s : State) (typ : Nat) (beats : List (List Byte)) (poison copyGen : Nat) : Flit :=
  { f with typ := typ, dest := f.src, src := s.getF FAB_STATUS FAB_STATUS_ADDR, fgen := s.reg FAB_GEN % 16, want := 0, beats := beats
           poison := poison, copyGen := copyGen, crcOk := true }

/-- The link a flit leaves on; `from_` is the link it came by, none for one of this device. -/
def State.outLink (s : State) (dest : Nat) (from_ : Option Nat) : Nat :=
  match s.fab.map.find? (fun d => d.addr = dest) with
  | some d =>
    match from_ with
    | some l => if bit (s.reg (FAB_LINK_STATUS l)) 26 then d.linkDown else d.link
    | none => d.link
  | none => 0

/-- A flit goes out toward its destination. -/
def State.sendFlit (s : State) (f : Flit) (from_ : Option Nat) : State := s.emit (.flit (s.outLink f.dest from_) f)

/-- What an object flit meets: a wrong CRC or TYPE and another generation are counted and discarded (R491, R497); corrected beats are recorded
(R492); a flit for another device is forwarded, one for this device has the effect `g`. -/
def State.takeFlit (s : State) (link : Nat) (f : Flit) (typ : Nat) (g : Flit → State → State) : State :=
  if 4 ≤ link ∨ s.linkState link ≠ 2 then s
  else if ¬ f.crcOk ∨ 8 ≤ f.typ ∨ 1120 < 8 * ceilDiv (35 * f.beats.length) 8 then s.count (FAB_CRC_COUNT link)
  else if f.fgen ≠ s.reg FAB_GEN % 16 then s.count (FAB_STALE_COUNT link)
  else if f.typ ≠ typ ∨ s.getF FAB_STATUS FAB_STATUS_EXCLUDED = 1 then s
  else
    let fixed := f.beats.zipIdx.filter (fun x => match folioDecode x.1 with
      | .single _ _ => true
      | _ => false)
    let s := fixed.foldl (fun (t : State) x => (t.record 12 link 0 0x01 0xFF f.handle (f.beat + x.2)).state) s
    let f := flitHop f
    if f.dest = s.getF FAB_STATUS FAB_STATUS_ADDR then g f s else s.sendFlit f (some link)

/-- Data flits for `n` beats of an object from beat `b` (R498), up to 32 in each, none across a granule, each with the generation its beats were
read at. -/
def State.dataFlits (s : State) (f : Flit) : Nat → Nat → Nat → State
  | 0, _, _ => s
  | _ + 1, _, 0 => s
  | k + 1, b, n =>
    let i := handleIndex f.handle
    let m := min n (min 32 (2048 - b % 2048))
    let bad := ((List.range m).map (fun j => if s.beatBad i (b + j) then 2 ^ j else 0)).foldl (· + ·) 0
    let beats := (List.range m).map (fun j => codeword (s.objBytes i (32 * (b + j)) 32))
    let cg := (((s.obj? f.handle).map (fun o => (o.gran (b / 2048)).copyGen)).getD 0)
    dataFlits ((s.noteRead i (32 * b) (32 * m)).sendFlit ({ (flitAnswer f s 1 beats bad cg) with beat := b }) none) f k (b + m) (n - m)

/-- FLIT_OBJECT_READ (R498): the home device answers with data flits. -/
def execFlitObjectRead (link : Nat) (f : Flit) (s : State) : Host.Outcome State Fault Refusal := if s.safe then .next s else
  .next (s.takeFlit link f 0 (fun f t =>
    match t.obj? f.handle with
    | some o => t.dataFlits f (f.want + 1) f.beat (min f.want (2048 * o.granules - f.beat))
    | none => t))

/-- The mirror of a granule of a peer's object. -/
def State.mirror? (s : State) (home handle gran : Nat) : Option Mirror :=
  s.fab.mirrors.find? (fun m => decide (m.home = home ∧ m.handle = handle ∧ m.gran = gran))

/-- A mirror is put in the place of the one it follows. -/
def State.setMirror (s : State) (m : Mirror) : State :=
  let rest := s.fab.mirrors.filter (fun (x : Mirror) => decide (¬ (x.home = m.home ∧ x.handle = m.handle ∧ x.gran = m.gran)))
  { s with fab := { s.fab with mirrors := rest ++ [m] } }

/-- The beats of a flit that are not poisoned, by their index in the granule. -/
def flitGood (f : Flit) : List (Nat × List Byte) :=
  (f.beats.zipIdx.filter (fun x => !f.poison.testBit x.2)).map (fun x => ((f.beat + x.2) % 2048, x.1))

/-- Beats of a mirror with those of a flit. -/
def flitInto (f : Flit) (b : Tab (List Byte)) : Tab (List Byte) := (flitGood f).foldl (fun (a : Tab (List Byte)) x => tabSet (fun _ => []) a x.1 x.2) b

/-- FLIT_OBJECT_DATA (R498): beats of one generation make up the mirror of a granule; if they are mixed they are discarded and the granule is read
again. -/
def execFlitObjectData (link : Nat) (f : Flit) (s : State) : Host.Outcome State Fault Refusal := if s.safe then .next s else
  .next (s.takeFlit link f 1 (fun f t =>
    let home := t.uidOf f.src
    let g := f.beat / 2048
    match t.mirror? home f.handle g with
    | some m =>
      if m.copyGen = f.copyGen then
        let bs := flitInto f m.beats
        t.setMirror { m with beats := bs, whole := m.whole || decide (bs.length = 2048) }
      else if m.whole then t.setMirror ⟨home, f.handle, g, f.copyGen, flitInto f [], false⟩
      else
        (t.setMirror { m with beats := [], copyGen := f.copyGen }).sendFlit
          { (flitAnswer f t 0 [] 0 0) with beat := 2048 * g, want := 2048 } none
    | none => t.setMirror ⟨home, f.handle, g, f.copyGen, flitInto f [], decide ((flitGood f).length = 2048)⟩))

/-- May a peer write its remote segment's tiles to this object (R136, R138)? -/
def State.remoteWritable (s : State) (h : Nat) : Bool :=
  match s.obj? h with
  | some o => decide (s.getF REGR_CTRL REGR_CTRL_SPAN_EN = 1) && isInst o.owner && (s.inst o.owner).span && bit o.desc.attr 1 && decide (o.desc.cls ≠ 1)
  | none => false

/-- FLIT_OBJECT_WRITE (R498): all its beats go to the mirror as one flip, or to the home copy as a local write; poisoned beats are not written
(R171); then it is acknowledged. -/
def execFlitObjectWrite (link : Nat) (f : Flit) (s : State) : Host.Outcome State Fault Refusal := if s.safe then .next s else
  .next (s.takeFlit link f 2 (fun f t =>
    let home := t.uidOf f.src
    let g := f.beat / 2048
    let ack := fun (u : State) => u.sendFlit (flitAnswer f u 3 [] 0 f.copyGen) none
    match t.mirror? home f.handle g with
    | some m => ack (t.setMirror { m with beats := flitInto f m.beats, copyGen := f.copyGen })
    | none =>
      if t.remoteWritable f.handle then
        ack ((flitGood f).foldl (fun (u : State) x => u.store (handleIndex f.handle) (32 * (2048 * g + x.1)) (x.2.take 32)) t)
      else t))

/-- FLIT_WRITE_ACK (R498): the mirror update of the peer is complete. -/
def execFlitWriteAck (link : Nat) (f : Flit) (s : State) : Host.Outcome State Fault Refusal := if s.safe then .next s else
  .next (s.takeFlit link f 3 (fun f t =>
    if (t.obj? f.handle).isNone then t
    else t.setObj (handleIndex f.handle) (fun o =>
      o.setGran (f.beat / 2048) { o.gran (f.beat / 2048) with behind := (o.gran (f.beat / 2048)).behind.filter (fun u => decide (u ≠ t.uidOf f.src)) })))

/-! ### Time and the calendar (R505, R506) -/

/-- The calendar is set (R482). -/
def State.setCalendar (s : State) (seconds time : Nat) : State :=
  let off := (seconds : Int) * 10 ^ 9 - (time : Int)
  (({ s with ledg := { s.ledg with offset := off } }).setF LEDG_STATUS LEDG_STATUS_CAL_VALID 1).ledgAppend 0x09 (leBytes 8 (unsigned 64 off))

/-- FLIT_TIME (R505, R506): the child's fabric time, as measured by the round trip, is taken over, never backward; after a hold the difference is
slewed, at most 1 µs a second. A calendar that comes with it is applied with CAL_FOLLOW. -/
def execFlitTime (time : Nat) (calendar : Option (Nat × Nat)) (s : State) : Host.Outcome State Fault Refusal := if s.safe then .next s else
  .next (if ¬ s.fab.worker then s
  else
    let want := (time : Int) - (s.now : Int)
    let held := s.getF FAB_STATUS FAB_STATUS_TIME_HOLD = 1
    let may := ((s.now - s.fab.lastTime) / 10 ^ 6 : Nat)
    let now_ := match s.fab.timeOffset with
      | none => want
      | some d =>
        if held ∨ s.fab.slew ≠ 0 then d + max (-(may : Int)) (min (may : Int) (want - d)) else max want d
    let s := { s with fab := { s.fab with
      timeOffset := some now_, slew := if held ∨ s.fab.slew ≠ 0 then want - now_ else 0, lastTime := s.now } }
    let s := if held then (s.setF FAB_STATUS FAB_STATUS_TIME_HOLD 0).postMgr 0x8B05 0 0 0 else s
    match calendar with
    | some (sec, at_) =>
      if s.getF FAB_CTRL FAB_CTRL_CAL_FOLLOW = 1 then s.setCalendar sec ((at_ : Int) - s.fab.timeOffset.getD 0).toNat else s
    | none => s)

/-- FABRIC_TIME_HOLD (R505): a worker has had no time flit for 1 ms. -/
def execFabricTimeHold (s : State) : Host.Outcome State Fault Refusal := if s.safe then .next s else
  .next (if s.fab.worker ∧ s.getF FAB_STATUS FAB_STATUS_TIME_HOLD = 0 then
    (s.setF FAB_STATUS FAB_STATUS_TIME_HOLD 1).postMgr 0x8B05 0 1 0
  else s)

/-! ### Commands (R499, R503, R504, R508) -/

/-- FAB must be up (R509). -/
def fabPre (s : State) : List Chk := [⟨s.domainUp 18, .notPermitted, 3⟩]

/-- FAB_SET_ROLE (0x0B01). -/
def cmdFabSetRole : Cmd := ⟨0x0B01, .manager, 1, none, [⟨16, 1, .rng 0 1⟩, ⟨17, 7, .zero⟩]⟩

/-- What FAB_SET_ROLE adds to the shared validation. -/
def hooksFabSetRole (s : State) : Hooks :=
  { pre := fun _ => fabPre s }

/-- The effect of FAB_SET_ROLE once it is admitted. -/
def effFabSetRole (pk : Pkt) (p : List Byte) (t : State) : State :=
  let t := (t.commit pk).setF FAB_STATUS FAB_STATUS_CLAIM (par p 16 1)
  ({ t with fab := { t.fab with roleWaits := t.fab.roleWaits ++ [pk] } }).startChange

/-- FAB_SET_ROLE (R499): the claim is made or given up, and answered after the next convergence. -/
def execFabSetRole (pk : Pkt) (s : State) : Host.Outcome State Fault Refusal :=
  .next (runPkt cmdFabSetRole pk s (hooksFabSetRole s) (effFabSetRole pk))

/-- FAB_SET_RELAY (0x0B03). -/
def cmdFabSetRelay : Cmd := ⟨0x0B03, .manager, 2, none,
  [⟨16, 8, .mult 4096 0 0xFFFFFFFFFFFFFFFF⟩, ⟨24, 1, .rng 4 12⟩, ⟨25, 1, .rng 2 31⟩, ⟨26, 6, .zero⟩]⟩

/-- What FAB_SET_RELAY adds to the shared validation. -/
def hooksFabSetRelay (s : State) : Hooks :=
  { pre := fun _ => fabPre s }

/-- The effect of FAB_SET_RELAY once it is admitted. -/
def effFabSetRelay (pk : Pkt) (p : List Byte) (t : State) : State :=
  let t := { t with fab := { t.fab with relay := some (par p 16 8, par p 24 1, par p 25 1) } }
  ((t.setReg FAB_RELAY_HEAD 0).setReg FAB_RELAY_TAIL 0).complete pk .ok

/-- FAB_SET_RELAY (R503): the ring starts empty. -/
def execFabSetRelay (pk : Pkt) (s : State) : Host.Outcome State Fault Refusal :=
  .next (runPkt cmdFabSetRelay pk s (hooksFabSetRelay s) (effFabSetRelay pk))

/-- A write of FAB_RELAY_HEAD (Table 18.10): not beyond TAIL. -/
def State.writeRelayHead (s : State) (w v : Nat) : State :=
  s.regWrite w FAB_RELAY_HEAD 0 v (fun t =>
    let h := t.reg FAB_RELAY_HEAD
    let room := (t.reg FAB_RELAY_TAIL + 2 ^ 32 - h) % 2 ^ 32
    if room < (v + 2 ^ 32 - h) % 2 ^ 32 then t.badWrite w FAB_RELAY_HEAD else t.setReg FAB_RELAY_HEAD v)

/-- FLIT_MGMT_REPLY (R502, R503): KIND 0 is a worker's acceptance of a delivery; 1 a reply, 2 a notice, 3 entries lost (their number in `tag`): these
go to the relay ring while it has room. -/
def execFlitMgmtReply (kind src tag time : Nat) (e : CqEntry) (s : State) : Host.Outcome State Fault Refusal := if s.safe then .next s else
  .next (if kind = 0 then
    match s.fab.deliveries.find? (fun d => d.2 = tag) with
    | some d => (({ s with fab := { s.fab with deliveries := s.fab.deliveries.filter (fun x => decide (x ≠ d)) } }).commit d.1).complete d.1 .ok 0 tag
    | none => s
  else match s.fab.relay with
  | none => s
  | some (addr, log2, vec) =>
    let t := s.reg FAB_RELAY_TAIL
    if 3 < kind ∨ s.getF FAB_STATUS FAB_STATUS_FM = 0 ∨ 2 ^ log2 ≤ (t + 2 ^ 32 - s.reg FAB_RELAY_HEAD) % 2 ^ 32 then s
    else
      let bs := leBytes 1 kind ++ leBytes 1 src ++ leBytes 6 0 ++ leBytes 8 (s.uidOf src) ++ leBytes 8 time ++
        leBytes 8 (if kind = 3 then tag else 0) ++ (if kind = 3 then leBytes 32 0 else entryBytes e)
      ((s.emit (.buffer s.mgrFn (addr + 64 * (t % 2 ^ log2)) bs)).setReg FAB_RELAY_TAIL (t + 1)).emit (.msix s.mgrFn vec))

/-- FAB_WAKE (0x0B04). -/
def cmdFabWake : Cmd := ⟨0x0B04, .manager, 2, none, [⟨16, 8, .any⟩, ⟨24, 8, .zero⟩]⟩

/-- The neighbour that can wake a device (R504): adjacent to it when it was last present, and still reachable. -/
def State.waker (s : State) (uid : Nat) : Option Nat :=
  (tabGet (fun _ => []) s.fab.adjacent uid).find? (fun b => decide (b = ownUid) || s.fab.reach.contains b)

/-- The link that led to a device. -/
def State.linkOf (s : State) (uid : Nat) : Nat := ((List.range 4).find? (fun l => tabGet (fun _ => 0) s.fab.peers l = uid)).getD 0

/-- What FAB_WAKE adds to the shared validation. -/
def hooksFabWake (s : State) : Hooks :=
  { pre := fun _ => fabPre s ++ [⟨s.getF FAB_STATUS FAB_STATUS_FM = 1, .notPermitted, 2⟩]
    post := fun p => [⟨s.fab.reach.contains (par p 16 8) || (s.waker (par p 16 8)).isSome, .linkDown, 1⟩] }

/-- The effect of FAB_WAKE once it is admitted. -/
def effFabWake (pk : Pkt) (p : List Byte) (t : State) : State :=
  let u := par p 16 8
  if t.fab.wakeWaits.any (fun w => decide (w.1 = pk)) then t
  else if t.fab.reach.contains u then t.complete pk .ok
  else match t.waker u with
    | some b =>
      let t := { t with fab := { t.fab with wakeWaits := t.fab.wakeWaits ++ [(pk, u)] } }
      if b = ownUid then t.emit (.train (t.linkOf u)) else t.emit (.wakeOrder b u)
    | none => t

/-- FAB_WAKE (R504): answered when the device has rejoined. -/
def execFabWake (pk : Pkt) (s : State) : Host.Outcome State Fault Refusal :=
  .next (runPkt cmdFabWake pk s (hooksFabWake s) (effFabWake pk))

/-- FAB_QUERY (0x0B05). -/
def cmdFabQuery : Cmd := ⟨0x0B05, .manager, 2, none, [⟨16, 4, .write⟩, ⟨20, 4, .any⟩, ⟨24, 8, .zero⟩]⟩

/-- The 64 entries of FAB_QUERY (R508). -/
def State.fabricMap (s : State) : List Byte :=
  (List.range 64).flatMap (fun a =>
    match s.fab.map.find? (fun d => d.addr = a) with
    | some d => leBytes 8 d.uid ++ leBytes 1 d.addr ++ leBytes 1 d.hops ++ leBytes 1 d.link ++
        leBytes 1 (b2n d.fm + 2 * b2n d.hostUp + 4 * b2n (d.uid = ownUid)) ++ leBytes 4 0
    | none => leBytes 16 0)

/-- What FAB_QUERY adds to the shared validation. -/
def hooksFabQuery (s : State) : Hooks :=
  { dyn := fun p => [(1, decide (1024 ≤ s.objSize (par p 16 4))),
                     (2, decide (par p 20 4 % 16 = 0) && decide (par p 20 4 + 1024 ≤ s.objSize (par p 16 4)))]
    pre := fun _ => fabPre s }

/-- The effect of FAB_QUERY once it is admitted. -/
def effFabQuery (pk : Pkt) (p : List Byte) (t : State) : State :=
  t.storeReply pk (par p 16 4) (par p 20 4) t.fabricMap t.fab.map.length (t.reg FAB_GEN)

/-- FAB_QUERY (R508). -/
def execFabQuery (pk : Pkt) (s : State) : Host.Outcome State Fault Refusal :=
  .next (runPkt cmdFabQuery pk s (hooksFabQuery s) (effFabQuery pk))

end Sys2Proof.Machine
end

