-- ==== Sys2Proof/Machine/Power.lean ====
section
/-! DEFINITION. The power controller (R439 to R465): votes, the sequencing of domains, wake failures, entering and leaving DORMANT and HAIRSPRING, the
memory-idle permit. -/

namespace Sys2Proof.Machine

/-! ### Domains and votes -/

/-- The parent of a domain (Table 16.2); AO for those that hang on nothing else. -/
def domainParent (d : Nat) : Nat :=
  if d = 2 then 1 else if d = 3 ∨ d = 4 then 2 else if d = 16 ∨ d = 17 then 15 else if d = 0 ∨ d = 1 ∨ d = 19 ∨ d = 20 then 0 else 4

/-- The base domains beside AO (R442): 1 to 8. -/
def baseMask : Nat := 0x1FE

/-- The domains managers may vote for: 9 to 21. -/
def voteMask : Nat := 0x3FFE00

/-- A mask with the parents of its domains, and theirs (R444). -/
def withParents (m : Nat) : Nat :=
  (List.range 4).foldl (fun (a : Nat) _ => (maskList 22 a).foldl (fun (b : Nat) d => if d = 0 then b else b ||| 2 ^ domainParent d) a) m &&& 0x3FFFFE

/-- A voter's mask. -/
def State.votes (s : State) (v : Nat) : Nat := s.getF (PCU_VOTE v) PCU_VOTE_MASK

/-- All votes together. -/
def State.allVotes (s : State) : Nat := (List.range 69).foldl (fun (a : Nat) v => a ||| s.votes v) 0

/-- The domains that are wanted (R444); in a wake the base domains as far as they rise before the boot (R457, R458). -/
def State.wanted (s : State) : Nat :=
  let st := s.getF PCU_STATE PCU_STATE_STATE
  if st = 3 then withParents s.allVotes
  else if s.getF PCU_STATE PCU_STATE_WAKING = 0 then 0
  else if st = 2 then withParents s.allVotes ||| baseMask
  else if s.pwr.booting then baseMask else 0x1E

/-- What a voter may vote for (Table 16.3). -/
def State.voteRights (s : State) (v : Nat) : Nat :=
  if v = 0 ∨ v = 67 ∨ v = 68 then voteMask
  else if isInst v then
    let x := s.inst v
    let g := x.grant
    b2n (0 < g.shader) * 0x7E00 + b2n (0 < g.layers) * 2 ^ 15 + b2n (g.outLayer % 16 ≠ 0) * 2 ^ 16 + b2n (g.outLayer / 16 % 16 ≠ 0) * 2 ^ 17 +
      b2n x.span * 2 ^ 18 + b2n (0 < g.touch) * 2 ^ 19 + b2n (g.hap % 256 ≠ 0) * 2 ^ 20 + b2n (0 < g.audio) * 2 ^ 21
  else 0

/-- The voter a function is: 0 the manager, an instance by its number, 67 the fabric manager (R444). -/
def State.voterOf (s : State) (fn : Nat) : Nat := if fn = fabricFn then 67 else s.ownerOf fn

/-- The domains that are up. -/
def State.upMask (s : State) : Nat := s.getF PCU_DOMAIN_UP PCU_DOMAIN_UP_MASK

/-- The domains marked FAILED. -/
def State.failedMask (s : State) : Nat := s.getF PCU_DOMAIN_FAILED PCU_DOMAIN_FAILED_MASK

/-- What a domain, or step M (22) or X (23), is doing. -/
def State.motion (s : State) (d : Nat) : Option Motion := tabGet (fun _ => none) s.pwr.motions d

/-- A domain's motion begins, changes or ends; PCU_DOMAIN_MOVING shows it. -/
def State.setMotion (s : State) (d : Nat) (m : Option Motion) : State :=
  let s := { s with pwr := { s.pwr with motions := tabSet (fun _ => none) s.pwr.motions d m } }
  if d < 22 then s.setBit PCU_DOMAIN_MOVING d m.isSome else s

/-- The steps a domain has (Table 16.5). -/
def riseSteps (d : Nat) : List Nat :=
  if 22 ≤ d then [1] else if d = 1 ∨ d = 4 ∨ d = 21 then [1, 2, 3] else [1, 3]

/-- The PLLs of a domain that step S2 locks (Table 16.7). -/
def domainPlls (d : Nat) : List Nat := if d = 1 then [0] else if d = 4 then [1, 2, 3] else if d = 21 then [4, 5] else []

/-- PLLs lock or stop. -/
def State.setPlls (s : State) (d : Nat) (b : Bool) : State := (domainPlls d).foldl (fun (t : State) p => t.setBit PCU_CLK_STATUS p b) s

/-- May a domain start to rise: its parent is up, and what it needs of the reference and the supplies is there (R450)? -/
def State.mayRise (s : State) (d : Nat) : Bool :=
  s.domainUp (domainParent d) &&
    (decide (d ≠ 1 ∧ d ≠ 19 ∧ d ≠ 20) || decide (s.getF PCU_CLK_STATUS PCU_CLK_STATUS_REF_OK = 1)) && (decide (d ≠ 1) || s.pwr.mainUp)

/-- One domain starts to rise or to drop, or an unfinished drop is abandoned (R444, R448, R450). -/
def State.moveDomain (s : State) (want : Nat) (d : Nat) : State :=
  let w := want.testBit d
  match s.motion d with
  | none =>
    if w ∧ ¬ s.domainUp d ∧ ¬ s.failedMask.testBit d ∧ s.mayRise d then s.setMotion d (some (.rise 1 false))
    else if ¬ w ∧ s.domainUp d ∧ (List.range 22).all (fun c => decide (c = 0 ∨ domainParent c ≠ d) || (!s.domainUp c && (s.motion c).isNone)) then
      s.setMotion d (some (.drop false))
    else s
  | some (.drop false) => if w then s.setMotion d none else s
  | some _ => s

/-- Do a mask's domains all stand up? -/
def State.allUp (s : State) (m : Nat) : Bool := decide (s.upMask &&& m = m)

/-- The reply of a PWR_VOTE that withdrew votes (R447): bit 0 of DETAIL for named domains that stay up, whose mask RESULT1 holds; bit 1 if the
Strongroom holds one; bit 2 if one is held only as a parent. -/
def State.replyWithdrawn (s : State) (pk : Pkt) (named : Nat) : State :=
  let stay := named &&& s.wanted &&& s.upMask
  s.complete pk .ok (b2n (stay ≠ 0) + 2 * b2n (stay &&& s.votes 65 ≠ 0) + 4 * b2n ((maskList 22 stay).any (fun d => !s.allVotes.testBit d))) 0 stay

/-- Commands that wait for domains are answered (R446, R447). -/
def State.answerVotes (s : State) : State :=
  let up := s.pwr.riseWaits.filter (fun (w : RiseWait) => s.allUp w.need)
  let s := { s with pwr := { s.pwr with riseWaits := s.pwr.riseWaits.filter (fun (w : RiseWait) => !s.allUp w.need) } }
  let s := up.foldl (fun (t : State) (w : RiseWait) => (t.commit w.pk).complete w.pk .ok 0 t.upMask) s
  let still := fun (m : Nat) => (maskList 22 m).any (fun d => !s.wanted.testBit d && (s.domainUp d || (s.motion d).isSome))
  let down := s.pwr.dropWaits.filter (fun (w : Pkt × Nat × Nat) => !still w.2.2)
  let s := { s with pwr := { s.pwr with dropWaits := s.pwr.dropWaits.filter (fun (w : Pkt × Nat × Nat) => still w.2.2) } }
  down.foldl (fun (t : State) (w : Pkt × Nat × Nat) => t.replyWithdrawn w.1 w.2.1) s

/-- After a vote or a motion changed: what should move moves, and what is done is answered. During an entry nothing starts (R456). -/
def State.settlePower (s : State) : State :=
  if s.entering then s
  else
    let w := s.wanted
    ((List.range 22).drop 1 |>.foldl (fun (t : State) d => t.moveDomain w d) s).answerVotes

/-- A voter's mask is set; the settled state. -/
def State.putVotes (s : State) (v m : Nat) : State := (s.setReg (PCU_VOTE v) m).settlePower

/-- Votes of an instance are withdrawn without a command (R449): those outside `keep`. -/
def State.withdrawVotes (s : State) (v keep : Nat) : State :=
  if s.votes v &&& keep = s.votes v then s else s.putVotes v (s.votes v &&& keep)

/-- The Strongroom's votes (R352). -/
def State.strgWants (s : State) : Nat :=
  let c0 := (List.range 8).filter (fun k => decide (s.getF (BND_C0 k) BND_C0_C0_EN = 1))
  2 + b2n (s.getF MEM_CARREL_LOCK MEM_CARREL_LOCK_STRG_HOLD ≠ 0) * 2 ^ 4 + b2n (c0 ≠ []) * 2 ^ 15 + b2n (c0.any (fun k => decide (k < 4))) * 2 ^ 16 +
    b2n (c0.any (fun k => decide (4 ≤ k))) * 2 ^ 17 + b2n s.binding.chimeSink.isSome * 2 ^ 21 +
    b2n (s.getF STRG_BOUND STRG_BOUND_TCH ≠ 0) * 2 ^ 19 + b2n (s.getF STRG_BOUND STRG_BOUND_HAP ≠ 0) * 2 ^ 20

/-- The Strongroom casts its votes, shown in STRG_VOTES. -/
def State.strgVote (s : State) : State := (s.setReg STRG_VOTES s.strgWants).putVotes 65 s.strgWants

/-! ### What a domain's rise and drop do -/

/-- The channels of a memory domain leave the self-refresh of DORMANT, reading MR4 (R457, Table 5.7). -/
def State.wakeChannels (s : State) (q : Nat) : State :=
  (List.range 4).foldl (fun (t : State) i =>
    let v := t.fresh
    if t.chState (4 * q + i) = 1 then v.2.leaveRefresh (4 * q + i) (v.1 % 32) else t) s

/-- A domain is up (R443): memory leaves self-refresh, waiting work may run, the boost starts. -/
def State.onRise (s : State) (d : Nat) : State :=
  if 5 ≤ d ∧ d ≤ 8 then s.wakeChannels (d - 5)
  else if 9 ≤ d ∧ d ≤ 14 then s.noteCluster
  else if d = 20 then s.settleBoost
  else s

/-- The outputs of a domain stop as it quiesces (R603), and what their FIFOs and pipes held is discarded (R443). -/
def State.dropOutputs (s : State) (lo : Nat) : State :=
  (List.range 4).foldl (fun (t : State) i =>
    let t := t.stopForDrop (lo + i)
    (t.setOutp (lo + i) { t.outp (lo + i) with fifo := [], sending := false, late := [], replaced := [] }).setPipe (lo + i)
      { t.pipe (lo + i) with busy := false, next := none, nextLine := 0 }) s

/-- The domains a junction sensor lies in (R587): a cluster's, the Bindery's, the memories', AO. -/
def sensorDomains (n : Nat) : List Nat := if n < 6 then [9 + n] else if n = 6 then [15] else if n = 7 then [5, 6, 7, 8] else [0]

/-- Sensors in domains that are down read not valid, and the hottest of the others is shown, the lowest of equals (R587). -/
def State.noteTemps (s : State) : State :=
  let s := (List.range 9).foldl (fun (t : State) n => if (sensorDomains n).any t.domainUp then t else t.setF (PCU_TJ n) PCU_TJ_VALID 0) s
  let ok := (List.range 9).filter (fun n => decide (s.getF (PCU_TJ n) PCU_TJ_VALID = 1))
  match minBy (fun n => (8192 - signed 12 (s.getF (PCU_TJ n) PCU_TJ_TEMP)).toNat * 16 + n) ok with
  | some n => s.setReg PCU_TJ_HOT (2 ^ 31 + n * 2 ^ 12 + s.getF (PCU_TJ n) PCU_TJ_TEMP)
  | none => s.setReg PCU_TJ_HOT 0

/-- A domain quiesces and is isolated (R443, R450): what its chapter states (R224, R391, R412, R488, R603). -/
def State.onDrop (s : State) (d : Nat) : State :=
  let s := if d = 16 then s.dropOutputs 0 else if d = 17 then s.dropOutputs 4 else if d = 18 then s.downAllLinks
    else if d = 19 then s.dropTouch else if d = 20 then s.dropHaptics else s
  let s := ((s.setBit PCU_DOMAIN_UP d false).setPlls d false).noteTemps
  if 9 ≤ d ∧ d ≤ 14 then s.noteCluster else if d = 20 then s.settleBoost else s

/-- DOMAIN_DROP (R447, R448, R450): a domain that drops ends its quiesce and is isolated; from an isolated one the switches open. -/
def execDomainDrop (domain : Nat) (s : State) : Host.Outcome State Fault Refusal :=
  .next (if 22 ≤ domain then s
  else match s.motion domain with
    | some (.drop false) => ((s.setMotion domain (some (.drop true))).onDrop domain).settlePower
    | some (.drop true) => (s.setMotion domain none).settlePower
    | _ => s)

/-! ### The sequencer (R450 to R454) -/

/-- PWR_EN_MAIN and PWR_EN_DRAM (Table 22.3, R456, R458, R584): high but in OFF and HAIRSPRING; a wake raises them, no sooner than 20 ms after they
went low. -/
def State.enables (s : State) : Bool :=
  !s.pwr.off && (decide (s.getF PCU_STATE PCU_STATE_STATE ≠ 1) ||
    (decide (s.getF PCU_STATE PCU_STATE_WAKING = 1) && s.pwr.lowAt.all (fun t => decide (t + 20000000 ≤ s.now))))

/-- Does the register keep its value while the main supplies are gone? -/
def keptRegister (a : Nat) : Bool :=
  decide (PCU_STATE ≤ a ∧ a < PCU_STATE + 0x10000) || decide (a = TCH_WAKE_STATUS) || decide (LEDG_STATUS ≤ a ∧ a < LEDG_STATUS + 0x10000) ||
    (List.range 8).any (fun k => decide (a = OUT_FRAME_LO k ∨ a = OUT_FRAME_HI k))

/-- What outlives the main supplies, everything else at its reset value (Table 16.1): the timebase, the calendar, the Ledger and its save buffer, the frame
numbers, the wake scanners with their effect copies, the PCU's registers (R459). -/
def State.onlyKept (s : State) : State :=
  { State.reset with
    pending := s.pending, now := s.now, freeCount := s.freeCount, out := s.out, regs := s.regs.filter (fun (p : Nat × Word) => keptRegister p.1)
    ledg := { s.ledg with wearOut := [] }
    mem := { installedMib := s.mem.installedMib }, fw := { s.fw with switch := none }
    dbg := { refusals := s.dbg.refusals, lockout := s.dbg.lockout }
    tch := { ctls := tabMap (fun _ => {}) s.tch.ctls (fun _ c => { wake := c.wake }), wakeDue := s.tch.wakeDue, wakePin := s.tch.wakePin,
             drive := s.tch.drive }
    pwr := { s.pwr with
      motions := [], entry := none, riseWaits := [], dropWaits := [], mainUp := false, booting := false
      lowAt := if s.enables then some s.now else s.pwr.lowAt } }

/-- Everything outside AO loses its state (Table 16.1); the permit stays (R459), and the votes of what exists no more are gone. -/
def State.loseMain (s : State) : State :=
  let r := (List.range 72).foldl (fun (t : State) v => if (1 ≤ v ∧ v ≤ 66) ∨ v = 68 then t.setReg (PCU_VOTE v) 0 else t) s.onlyKept
  let r := ((r.setReg PCU_DOMAIN_UP 1).setReg PCU_DOMAIN_MOVING 0).setF MEM_STATUS MEM_STATUS_PERMIT (s.getF MEM_STATUS MEM_STATUS_PERMIT)
  let r := [0, 1].foldl (fun (t : State) p => t.setF (HOST_LINK_STATUS p) HOST_LINK_STATUS_PERST (s.getF (HOST_LINK_STATUS p) HOST_LINK_STATUS_PERST)) r
  ((r.setF PCU_CLK_STATUS PCU_CLK_STATUS_PLL_LOCK 0).setF PCU_CLK_STATUS PCU_CLK_STATUS_REF_OK 0).noteTemps

/-- The state the device is in, with ENTERING and WAKING clear. -/
def State.atState (s : State) (st : Nat) : State :=
  ((s.setF PCU_STATE PCU_STATE_STATE st).setF PCU_STATE PCU_STATE_ENTERING 0).setF PCU_STATE PCU_STATE_WAKING 0

/-- A base domain has failed (R453): the device is in HAIRSPRING with everything else lost; the failure is latched. -/
def State.baseFails (s : State) : State := (s.loseMain.atState 1).setF PCU_EVENTS PCU_EVENTS_WAKE_FAIL 1

/-- Commands whose domain failed end (R446): the sender's votes are as they were. -/
def State.failVotes (s : State) (d : Nat) : State :=
  let hit := s.pwr.riseWaits.filter (fun (w : RiseWait) => w.need.testBit d)
  let s := { s with pwr := { s.pwr with riseWaits := s.pwr.riseWaits.filter (fun (w : RiseWait) => !w.need.testBit d) } }
  hit.foldl (fun (t : State) (w : RiseWait) =>
    (t.complete w.pk .wakeFailed d t.failedMask).setReg (PCU_VOTE w.voter) (t.votes w.voter &&& (0x3FFFFF - w.votes))) s

/-- The channels of a memory domain that failed are FAILED, with the consequences of R157. -/
def State.failChannels (s : State) (q : Nat) : State :=
  (List.range 4).foldl (fun (t : State) i =>
    let c := 4 * q + i
    ((t.setF (MEM_CH_STATE c) MEM_CH_STATE_STATE 3).postMgr 0x8216 c 0 0).powerEvent 2 0xFF 0) (s.setF MEM_STATUS MEM_STATUS_DRAM_FAIL 1)

/-- A step has failed twice (R451 to R454). -/
def State.stepFails (s : State) (d step : Nat) : State :=
  let s := s.setMotion d none
  if d = 23 then
    let s := (s.setF PCU_EVENTS PCU_EVENTS_REFCLK_FAIL 1).powerEvent 3 0xFF 0
    (({ s with pwr := { s.pwr with motions := [] } }).setReg PCU_DOMAIN_MOVING 0).setF PCU_STATE PCU_STATE_WAKING 0
  else if d = 22 then (s.powerEvent 1 0xFF 1).baseFails
  else
    let s := (s.setBit PCU_DOMAIN_FAILED d true).powerEvent 1 d step
    let s := s.postMgr 0x8A02 d step 0
    if 1 ≤ d ∧ d ≤ 4 then s.baseFails
    else ((if 5 ≤ d ∧ d ≤ 8 then s.failChannels (d - 5) else s).failVotes d).settlePower

/-- DOMAIN_STEP_READY (R450): the step's ready signal is there: the next step, or the domain is up; X brings the reference, which trims the RC (R460), and
M the main supplies. -/
def execDomainStepReady (domain : Nat) (s : State) : Host.Outcome State Fault Refusal :=
  .next (if 24 ≤ domain then s
  else match s.motion domain with
    | some (.rise step _) =>
      let s := if step = 2 then s.setPlls domain true else s
      (match (riseSteps domain).find? (fun n => decide (step < n)) with
       | some n => s.setMotion domain (some (.rise n false))
       | none =>
         let s := s.setMotion domain none
         if domain = 23 then ((s.setF PCU_CLK_STATUS PCU_CLK_STATUS_REF_OK 1).setF PCU_CLK_STATUS PCU_CLK_STATUS_RC_TRIMMED 1).settlePower
         else if domain = 22 then ({ s with pwr := { s.pwr with mainUp := true } }).settlePower
         else ((s.setBit PCU_DOMAIN_UP domain true).onRise domain).settlePower)
    | _ => s)

/-- DOMAIN_STEP_TIMEOUT (R451): the step is retried once, and counted; then the domain has failed. -/
def execDomainStepTimeout (domain : Nat) (s : State) : Host.Outcome State Fault Refusal :=
  .next (if 24 ≤ domain then s
  else match s.motion domain with
    | some (.rise step false) => (s.setMotion domain (some (.rise step true))).count PCU_RETRY_COUNT
    | some (.rise step true) => s.stepFails domain step
    | _ => s)

/-! ### Wakes (R440, R457, R458) -/

/-- A wake command (R440): 1 PCU_WAKE and 4 the fabric only in DORMANT, the others in HAIRSPRING too; one that comes during an entry is held (R456). A
wake from HAIRSPRING clears the FAILED marks (R452, R458). -/
def State.beginWake (s : State) (src : Nat) : State :=
  let st := s.getF PCU_STATE PCU_STATE_STATE
  if s.entering then
    (match s.pwr.heldWake with
     | none => { s with pwr := { s.pwr with heldWake := some src } }
     | some _ => s)
  else if s.getF PCU_STATE PCU_STATE_WAKING = 1 then s
  else if st = 2 then
    (((s.setF PCU_STATE PCU_STATE_WAKING 1).setF PCU_STATE PCU_STATE_WAKE_SRC src).setMotion 23 (some (.rise 1 false))).settlePower
  else if st = 1 ∧ src ≠ 1 ∧ src ≠ 4 then
    (((((s.setF PCU_STATE PCU_STATE_WAKING 1).setF PCU_STATE PCU_STATE_WAKE_SRC src).setReg PCU_DOMAIN_FAILED 0).setMotion 22
      (some (.rise 1 false))).setMotion 23 (some (.rise 1 false))).settlePower
  else s

/-- A write to PCU_WAKE (R440, R441): 1 is the wake command in DORMANT; a value outside the stated ones is discarded and counted (R463). -/
def State.writePcuWake (s : State) (w v : Nat) : State :=
  s.regWrite w PCU_WAKE 0 v (fun t =>
    if 1 < v then t.badWrite w PCU_WAKE
    else if v = 1 ∧ (t.getF PCU_STATE PCU_STATE_STATE = 2 ∨ t.entering) then t.beginWake 1 else t)

/-- PCU_WAKE (R440, R441): the manager's write of 1 to RING. -/
def execPcuWake (writer value : Nat) (s : State) : Host.Outcome State Fault Refusal := .next (s.writePcuWake writer value)

/-- MANAGEMENT_WAKE (R440, R504): a training pattern on a link of a device in DORMANT. -/
def execManagementWake (link : Nat) (s : State) : Host.Outcome State Fault Refusal :=
  .next (if link < 4 ∧ (s.getF PCU_STATE PCU_STATE_STATE = 2 ∨ s.entering) then s.beginWake 4 else s)

/-- DORMANT_WRITE_DROP (R441): every write that reaches a device in DORMANT, or on its way out of it, but the wake command, is discarded and counted. -/
def execDormantWriteDrop (writer addr : Nat) (s : State) : Host.Outcome State Fault Refusal :=
  .next (if s.dormant ∧ ¬ (addr = PCU_WAKE ∧ s.writerOwner writer = 0) then s.count PCU_DORMANT_DROP_COUNT else s)

/-- EV_PCU_STATE (R457): to the manager and every instance. -/
def State.tellWoken (s : State) (left spent : Nat) : State :=
  s.liveInsts.foldl (fun (t : State) n => t.post n 0x8A01 0 (left + 256 * 3) spent) (s.postMgr 0x8A01 0 (left + 256 * 3) spent)

/-- WAKE_FROM_DORMANT (R457): when the last domain that was wanted and is not FAILED is up, the device is ACTIVE, and the Clerk's votes stand again
(Table 16.3). -/
def execWakeFromDormant (s : State) : Host.Outcome State Fault Refusal :=
  let need := (maskList 22 s.wanted).filter (fun d => !s.failedMask.testBit d && !s.failedMask.testBit (domainParent d))
  .next (if s.getF PCU_STATE PCU_STATE_STATE = 2 ∧ s.getF PCU_STATE PCU_STATE_WAKING = 1 ∧ need.all s.domainUp = true then
    ((s.atState 3).putVotes 66 baseMask).tellWoken 2 (s.now - s.pwr.sleptAt)
  else s)

/-- WAKE_FROM_HAIRSPRING (R458): M, X and domains 1 to 4 have come up; the boot may run. -/
def execWakeFromHairspring (s : State) : Host.Outcome State Fault Refusal :=
  .next (if s.getF PCU_STATE PCU_STATE_STATE = 1 ∧ s.getF PCU_STATE PCU_STATE_WAKING = 1 ∧ s.allUp 0x1E = true then
    ({ s with pwr := { s.pwr with booting := true } }).settlePower
  else s)

/-! ### Commands -/

/-- PWR_VOTE (0x0A01, Table 16.4). -/
def cmdPwrVote : Cmd := ⟨0x0A01, .tenants, 1, none, [⟨16, 4, .maskNz 0x3FFFFF⟩, ⟨20, 1, .rng 0 1⟩, ⟨21, 3, .zero⟩]⟩

/-- The lowest domain of a mask. -/
def lowestBit (m : Nat) : Nat := (maskList 22 m).headD 0

/-- What PWR_VOTE adds to the shared validation. -/
def hooksPwrVote (pk : Pkt) (s : State) : Hooks :=
  { pre := fun p => [⟨decide (par p 16 4 &&& s.voteRights (s.voterOf pk.fn) = par p 16 4), .notPermitted, 1⟩]
    post := fun p => let bad := par p 16 4 &&& s.failedMask
                     [⟨decide (par p 20 1 = 0 ∨ bad = 0 ∨ s.pwr.riseWaits.any (fun w => decide (w.pk = pk))), .wakeFailed, lowestBit bad⟩] }

/-- The effect of PWR_VOTE once it is admitted. -/
def effPwrVote (pk : Pkt) (p : List Byte) (t : State) : State :=
  let m := par p 16 4
  let v := t.voterOf pk.fn
  let old := t.votes v
  if t.pwr.riseWaits.any (fun w => decide (w.pk = pk)) then t
  else if par p 20 1 = 1 then
    let t := { t with pwr := { t.pwr with riseWaits := t.pwr.riseWaits ++ [RiseWait.mk pk (withParents m) v (m &&& (0x3FFFFF - old))] } }
    t.putVotes v (old ||| m)
  else
    let before := t.wanted
    let t := (t.commit pk).setReg (PCU_VOTE v) (old &&& (0x3FFFFF - m))
    let gone := before &&& (0x3FFFFF - t.wanted)
    ({ t with pwr := { t.pwr with dropWaits := t.pwr.dropWaits ++ [(pk, m, gone)] } }).settlePower

/-- PWR_VOTE (R445 to R448). -/
def execPwrVote (pk : Pkt) (s : State) : Host.Outcome State Fault Refusal :=
  .next (runPkt cmdPwrVote pk s (hooksPwrVote pk s) (effPwrVote pk))

/-- PWR_CLEAR_FAIL (0x0A04, R452). -/
def cmdPwrClearFail : Cmd := ⟨0x0A04, .tenants, 1, none, [⟨16, 4, .mask 0x3FFFFF⟩, ⟨20, 4, .zero⟩]⟩

/-- What PWR_CLEAR_FAIL adds to the shared validation. -/
def hooksPwrClearFail (pk : Pkt) : Hooks :=
  { pre := fun _ => [⟨!isInst pk.fn, .notPermitted, 0⟩] }

/-- The effect of PWR_CLEAR_FAIL once it is admitted. -/
def effPwrClearFail (pk : Pkt) (p : List Byte) (t : State) : State :=
  if t.pwr.riseWaits.any (fun w => decide (w.pk = pk)) then t
  else
    let clear := par p 16 4 &&& t.failedMask
    let t := t.setReg PCU_DOMAIN_FAILED (t.failedMask &&& (0x3FFFFF - clear))
    let t := { t with pwr := { t.pwr with riseWaits := t.pwr.riseWaits ++ [RiseWait.mk pk (withParents (clear &&& t.wanted)) 0 0] } }
    t.settlePower

/-- PWR_CLEAR_FAIL (R452, R465): the marks are cleared, and a cleared domain that is wanted rises, as for a vote (R446). -/
def execPwrClearFail (pk : Pkt) (s : State) : Host.Outcome State Fault Refusal :=
  .next (runPkt cmdPwrClearFail pk s (hooksPwrClearFail pk) (effPwrClearFail pk))

/-- PWR_MEM_IDLE_PERMIT (0x0A03, R459). -/
def cmdPwrMemIdlePermit : Cmd := ⟨0x0A03, .tenants, 1, none, [⟨16, 1, .rng 0 1⟩, ⟨17, 7, .zero⟩]⟩

/-- What PWR_MEM_IDLE_PERMIT adds to the shared validation. -/
def hooksPwrMemIdlePermit (pk : Pkt) : Hooks :=
  { pre := fun _ => [⟨!isInst pk.fn, .notPermitted, 0⟩] }

/-- The effect of PWR_MEM_IDLE_PERMIT once it is admitted. -/
def effPwrMemIdlePermit (pk : Pkt) (p : List Byte) (t : State) : State :=
  let t := (t.commit pk).setF MEM_STATUS MEM_STATUS_PERMIT (par p 16 1)
  if par p 16 1 = 1 then t.complete pk .ok
  else ({ t with mem := { t.mem with permitWaits := t.mem.permitWaits ++ [pk] } }).settlePermit

/-- PWR_MEM_IDLE_PERMIT (R459, R465): granted at once; a withdrawal is answered once every channel has left self-refresh. -/
def execPwrMemIdlePermit (pk : Pkt) (s : State) : Host.Outcome State Fault Refusal :=
  .next (runPkt cmdPwrMemIdlePermit pk s (hooksPwrMemIdlePermit pk) (effPwrMemIdlePermit pk))

/-- PWR_SET_STATE (0x0A02, R455). -/
def cmdPwrSetState : Cmd := ⟨0x0A02, .tenants, 1, none, [⟨16, 1, .rng 1 3⟩, ⟨17, 7, .zero⟩]⟩

/-- Is a hand-over, a firmware switch, a takeover, an INST_FREEZE, INST_SAVE or INST_RESTORE in progress, or another PWR_SET_STATE (Table 16.6)? -/
def State.changing (s : State) (pk : Pkt) : Bool :=
  s.strg.handover.isSome || s.fw.switch.isSome || s.insts.takeover.isSome || s.insts.restoring.isSome ||
    s.insts.insts.any (fun (x : Nat × Inst) => x.2.freezePk.isSome) || s.pwr.entry.any (fun e => decide (e.pk ≠ pk)) ||
    s.flight.any (fun f => [0x0103, 0x0104, 0x0105].contains f.op)

/-- Table 16.6. -/
def stateChecks (pk : Pkt) (s : State) (p : List Byte) : List Chk :=
  if par p 16 1 = 3 then []
  else
    [⟨!(decide (par p 16 1 = 1) && decide (pk.fn = fabricFn) && !s.linkUp 0 && !s.linkUp 65), .notPermitted, 4⟩,
     ⟨(List.range 8).all (fun k => decide (s.outState k = 0)), .busy, 1⟩,
     ⟨decide (s.reg STRG_CHIME_STATUS = 0), .busy, 2⟩,
     ⟨!s.changing pk, .busy, 3⟩]

/-- What PWR_SET_STATE adds to the shared validation. -/
def hooksPwrSetState (pk : Pkt) (s : State) : Hooks :=
  { pre := fun p => ⟨decide (pk.fn = s.mgrFn ∨ pk.fn = fabricFn), .notPermitted, 0⟩ :: stateChecks pk s p }

/-- The effect of PWR_SET_STATE once it is admitted. -/
def effPwrSetState (pk : Pkt) (p : List Byte) (t : State) : State :=
  if par p 16 1 = 3 then t.complete pk .ok
  else { t with pwr := { t.pwr with entry := some ⟨pk, par p 16 1, false⟩ } }

/-- PWR_SET_STATE (R455, R456): the device drains; DRAIN_COMPLETE commits it. STATE 3 changes nothing. -/
def execPwrSetState (pk : Pkt) (s : State) : Host.Outcome State Fault Refusal :=
  .next (runPkt cmdPwrSetState pk s (hooksPwrSetState pk s) (effPwrSetState pk))

/-- DRAIN_COMPLETE (R456): no committed command is left and no copy is in flight: the command commits and replies, the Clerk's votes are withdrawn, and
entry steps 1 to 3 run: touch hands over to its wake scanners, haptic effects brake, audio ramps down. -/
def execDrainComplete (s : State) : Host.Outcome State Fault Refusal := if s.clerkRuns = false then .next s else
  .next (match s.pwr.entry with
    | some e =>
      if e.committed ∨ s.flight.any Flight.committed ∨ s.shm.moves ≠ [] then s
      else
        let s := (s.commit e.pk).complete e.pk .ok
        let s := { s with pwr := { s.pwr with entry := some { e with committed := true } } }
        let s := (s.setF PCU_STATE PCU_STATE_ENTERING 1).setReg (PCU_VOTE 66) 0
        let s := if s.domainUp 19 then s.dropTouch else s
        if s.domainUp 20 then s.dropHaptics else s
    | none => s)

/-- Every DRAM channel that works enters self-refresh by command (R163, R456). -/
def State.sleepChannels (s : State) : State :=
  (List.range 16).foldl (fun (t : State) c =>
    if t.chState c = 3 ∨ t.chState c = 1 then t
    else ((t.setF (MEM_CH_STATE c) MEM_CH_STATE_STATE 1).setBit MEM_STATUS c true).count (MEM_CH_SR_ENTRIES c)) s.abandonStep

/-- All domains but AO go to retention (R443, R456). -/
def State.retainAll (s : State) : State :=
  let s := ((s.downAllLinks.dropOutputs 0).dropOutputs 4).sleepChannels
  let s := { s with pwr := { s.pwr with motions := [], entry := none, sleptAt := s.now } }
  let s := ((s.setReg PCU_DOMAIN_UP 1).setReg PCU_DOMAIN_MOVING 0).setF PCU_CLK_STATUS PCU_CLK_STATUS_REF_OK 0
  (s.setF PCU_CLK_STATUS PCU_CLK_STATUS_PLL_LOCK 0).noteTemps

/-- STATE_ENTRY_COMPLETE (R456): entry step 6 ends; a wake held during the entry begins. -/
def execStateEntryComplete (s : State) : Host.Outcome State Fault Refusal :=
  .next (match s.pwr.entry with
    | some e =>
      if ¬ e.committed then s
      else
        let s := if e.target = 2 then s.retainAll.atState 2 else s.loseMain.atState 1
        (match s.pwr.heldWake with
         | some src => ({ s with pwr := { s.pwr with heldWake := none } }).beginWake src
         | none => s)
    | none => s)

/-! ### The 32.768 kHz clock (R460) -/

/-- EV_PCU_XTAL32 is posted once the manager's rings run (R460). -/
def State.tellXtal (s : State) : State :=
  if s.pwr.xtalDue ∧ s.cqOn s.mgrFn then ({ s with pwr := { s.pwr with xtalDue := false } }).postMgr 0x8A04 0 0 0 else s

/-- XTAL32_QUALIFIED (R460): AO runs from the crystal, which is tried only at power-on reset. -/
def execXtal32Qualified (s : State) : Host.Outcome State Fault Refusal :=
  .next (if s.getF PCU_CLK_STATUS PCU_CLK_STATUS_RC_FALLBACK = 1 then s else s.setF PCU_CLK_STATUS PCU_CLK_STATUS_XTAL32_OK 1)

/-- XTAL32_QUALIFY_TIMEOUT (R460, R480): the RC stays in use, and the calendar runs on it. -/
def execXtal32QualifyTimeout (s : State) : Host.Outcome State Fault Refusal :=
  .next (if s.getF PCU_CLK_STATUS PCU_CLK_STATUS_XTAL32_OK = 1 ∨ s.getF PCU_CLK_STATUS PCU_CLK_STATUS_RC_FALLBACK = 1 then s
  else
    let s := s.setF LEDG_STATUS LEDG_STATUS_CAL_RC 1
    let s := ((s.setF PCU_CLK_STATUS PCU_CLK_STATUS_RC_FALLBACK 1).setF PCU_EVENTS PCU_EVENTS_XTAL32_FAIL 1).powerEvent 4 0xFF 0
    ({ s with pwr := { s.pwr with xtalDue := true } }).tellXtal)

end Sys2Proof.Machine
end

