-- ==== Sys2Proof/Machine/Handover.lean ====
section
/-! DEFINITION. Hand-overs between the worlds (R350, R351) and the direct request window of the Strongroom (R353, R354). -/

namespace Sys2Proof.Machine

/-- How many units of a kind there are, less one: touch controllers, haptic channels, TDM ports, check-value units. -/
def lastUnit (kind : Nat) : Nat := [3, 7, 7, 31].getD kind 0

/-- STRG_HANDOVER (0x0F04, Table 12.4). -/
def cmdStrgHandover : Cmd := ⟨0x0F04, .manager, 1, none, [⟨16, 1, .rng 0 3⟩, ⟨17, 1, .any⟩, ⟨18, 1, .rng 0 1⟩, ⟨19, 5, .zero⟩]⟩

/-- May the unit be handed over: not bound, and marked as transferable (R350)? -/
def State.transferable (s : State) (kind n : Nat) : Bool :=
  let b := s.binding
  !([b.boundTch, b.boundHap, b.boundTdm, b.boundCvu].getD kind 0).testBit n && ([b.transTch, b.transHap, b.transTdm, b.transCvu].getD kind 0).testBit n

/-- Is the unit in the secure world? -/
def State.unitSecure (s : State) (kind n : Nat) : Bool :=
  if kind = 0 then s.tchSecure n else if kind = 1 then s.hapSecure n else if kind = 2 then s.audSecure n else s.cvuSecure n

/-- Is the unit in use by an instance (R350): a region on the controller, a haptic grant, a route through the port, a holder? -/
def State.unitUsed (s : State) (kind n : Nat) : Bool :=
  if kind = 0 then s.tch.regions.any (fun (x : Nat × Region) => decide (256 ≤ x.1) &&
      (x.2.cfg.any (fun c => decide (c.ctl = n)) || x.2.pend.any (fun q => decide (q.2.1 = n) && q.1.isSome)))
  else if kind = 1 then decide (s.hapOwner n ≠ 0)
  else if kind = 2 then s.portRouted n
  else decide (s.cvuHolder n ≠ 0)

/-- What STRG_HANDOVER adds to the shared validation. -/
def hooksStrgHandover (s : State) : Hooks :=
  { dyn := fun p => [(2, decide (par p 17 1 ≤ lastUnit (par p 16 1)))]
    pre := fun p => [⟨s.transferable (par p 16 1) (par p 17 1), .notPermitted, 2⟩]
    post := fun p =>
      [⟨decide (par p 18 1 = 0) || !s.unitUsed (par p 16 1) (par p 17 1), .busy, 1⟩, ⟨s.strg.handover.isNone, .busy, 2⟩] }

/-- The effect of STRG_HANDOVER once it is admitted. -/
def effStrgHandover (pk : Pkt) (p : List Byte) (t : State) : State :=
  let kind := par p 16 1
  let n := par p 17 1
  if decide (par p 18 1 = 1) = t.unitSecure kind n then t.complete pk .ok
  else
    let t := t.commit pk
    let t := { t with strg := { t.strg with handover := some ⟨pk, kind, n, par p 18 1⟩ } }
    if kind = 1 then
      let t := t.endPending n .aborted 0
      t.setHap n { t.hapc n with run := (t.hapc n).run.map (fun r => { r with stop := true }) }
    else if kind = 2 then t.closePort n
    else t

/-- STRG_HANDOVER (R350, R351): at its commit the unit is closed to its old world and quiesces. -/
def execStrgHandover (pk : Pkt) (s : State) : Host.Outcome State Fault Refusal :=
  .next (strgPkt cmdStrgHandover pk s (hooksStrgHandover s) (effStrgHandover pk))

/-- Has the unit quiesced (Table 12.5, step 2)? -/
def State.quiesced (s : State) (kind n : Nat) : Bool :=
  if kind = 0 then !(s.tctl n).scanning
  else if kind = 1 then (s.hapc n).run.isNone
  else if kind = 2 then !(s.aud.eps.any (fun (x : Nat × AudEp) => x.2.cfg.any (fun c => epOnPort c n)))
  else true

/-- Registers at their reset values. -/
def State.resetRegs (s : State) (l : List Nat) : State := l.foldl (fun (t : State) a => t.setReg a (resetValue a).toNat) s

/-- The unit at its reset values (Table 12.5, step 3); a channel's count of cycles since manufacture and its lifetime counts stay (R412). -/
def State.resetUnit (s : State) (kind n : Nat) : State :=
  if kind = 0 then
    let s := (s.tctl n).waits.foldl (fun (t : State) w => t.endPkt (waitPkt w) .aborted 0) s
    (s.setTctl n {}).resetRegs [TCH_STATUS n, TCH_FRAME n, TCH_NOISE n, TCH_DROP_COUNT n, TCH_OVERFLOW_COUNT n, TCH_HOP_COUNT n]
  else if kind = 1 then
    let s := s.hapOwnerChange n
    (s.setHap n { stalls := (s.hapc n).stalls, faults := (s.hapc n).faults, changed := (s.hapc n).changed }).resetRegs
      [HAP_CFG n, HAP_STATUS n, HAP_CAL n, HAP_GAIN n, HAP_SCALE n, HAP_SAT_COUNT n, HAP_DROP_COUNT n]
  else if kind = 2 then
    ({ s with aud := { s.aud with ports := tabSet (fun _ => {}) s.aud.ports n {} } }).resetRegs [AUD_PORT_STATUS n]
  else (s.cvuReset n).setCvuHolder n 0

/-- A unit is in the secure world from now on, or in the normal world: STRG_BOUND and STRG_BOUND_CVU show it. -/
def State.markWorld (s : State) (kind n : Nat) (secure : Bool) : State :=
  if kind = 0 then s.setBit STRG_BOUND n secure
  else if kind = 1 then s.setBit STRG_BOUND (4 + n) secure
  else if kind = 2 then s.setBit STRG_BOUND (12 + n) secure
  else s.setBit STRG_BOUND_CVU n secure

/-- The status of a unit shows its world. -/
def State.showUnit (s : State) (kind n : Nat) : State :=
  if kind = 0 then s.showTouch n
  else if kind = 1 then s.setF (HAP_STATUS n) HAP_STATUS_STATE (s.hapStateCode n)
  else if kind = 2 then s.setF (AUD_PORT_STATUS n) AUD_PORT_STATUS_SECURE (b2n (s.audSecure n))
  else s

/-- HANDOVER_QUIESCED (R351): the unit is reset and opens to the new world; votes follow (R352), views change, the reply and the event are written. -/
def execHandoverQuiesced (s : State) : Host.Outcome State Fault Refusal := if s.safe then .next s else
  .next (match s.strg.handover with
    | some h =>
      if ¬ s.quiesced h.kind h.unit then s
      else
        let s := { s.resetUnit h.kind h.unit with strg := { (s.resetUnit h.kind h.unit).strg with handover := none } }
        let s := ((s.markWorld h.kind h.unit (decide (h.dir = 1))).showUnit h.kind h.unit).strgVote
        let s := (if h.kind = 0 then 0 :: s.liveInsts else [0]).foldl (fun (t : State) o => t.capChanged o) s
        (s.complete h.pk .ok).postMgr 0x8F01 (256 * h.kind + h.unit) h.dir 0
    | none => s)

/-! ### The direct request window (R354) -/

/-- The opcode and the packet of 64 bytes (Table 2.16), from a function and a ring. -/
def packetOf (fn ring : Nat) (b : List Byte) : Nat × Pkt :=
  (leNat (slice b 0 2), ⟨fn, ring, b.getD 2 0, leNat (slice b 3 1), leNat (slice b 4 4), leNat (slice b 8 4), leNat (slice b 12 4), slice b 16 48⟩)

/-- The packet in STRG_REQ_PKT0 to STRG_REQ_PKT15, sent by the manager. -/
def State.windowPacket (s : State) : Nat × Pkt :=
  packetOf s.mgrFn windowRing ((List.range 16).flatMap (fun i => leBytes 4 (s.reg (STRG_REQ_PKT i))))

/-- The meaning of a Strongroom request by opcode (Table 12.6). -/
def strgRequest (op : Nat) (pk : Pkt) (s : State) : Option (Host.Outcome State Fault Refusal) :=
  if op = 0x0F01 then some (execStrgGetInfo pk s)
  else if op = 0x0F02 then some (execStrgSetTelltale pk s)
  else if op = 0x0F03 then some (execStrgChime pk s)
  else if op = 0x0F04 then some (execStrgHandover pk s)
  else if op = 0x0F05 then some (execStrgKeyLoad pk s)
  else if op = 0x0F06 then some (execStrgPermitTiming pk s)
  else none

/-- STRG_REQ_DOORBELL (R354): the packet in the window is submitted; while BUSY is set the write is discarded and counted. -/
def execStrgReqDoorbell (writer : Nat) (s : State) : Host.Outcome State Fault Refusal :=
  let t := s.regWrite writer STRG_REQ_DB 0 1 (fun t =>
    if t.getF STRG_REQ_STATUS STRG_REQ_STATUS_BUSY = 1 then t.badWrite writer STRG_REQ_DB
    else
      let t := t.setF STRG_REQ_STATUS STRG_REQ_STATUS_BUSY 1
      let q := t.windowPacket
      match strgRequest q.1 q.2 t with
      | some (.next u) => u
      | _ => t.windowReply (.reply q.2.seq .badOpcode 0 t.now 0 0))
  .next t

end Sys2Proof.Machine
end

