-- ==== Sys2Proof/Machine/Ledger.lean ====
section
/-! DEFINITION. The hold-up save, the Ledger and the calendar (R466 to R487): the save capacitor, sags and saves, periodic updates, wear maps, the
commands of class 0x0C. -/

namespace Sys2Proof.Machine

/-! ### Notices that wait for the rings -/

/-- Notices of the Ledger are posted once the manager's rings run (R467, R481). -/
def State.tellLedger (s : State) : State :=
  if s.cqOn s.mgrFn then
    s.ledg.events.foldl (fun (t : State) e => t.postMgr e.1 e.2.1 e.2.2 0) { s with ledg := { s.ledg with events := [] } }
  else s

/-- A notice for the manager, now or once its rings run. -/
def State.ledgerEvent (s : State) (code detail data0 : Nat) : State :=
  ({ s with ledg := { s.ledg with events := s.ledg.events ++ [(code, detail, data0)] } }).tellLedger

/-! ### Records (Table 17.5) -/

/-- A record in the layout of Table 17.4. -/
def LedgRec.bytes (r : LedgRec) : List Byte :=
  let head := leBytes 2 0x1C88 ++ leBytes 1 r.typ ++ leBytes 1 (b2n r.estimated + 2 * b2n r.saved) ++ leBytes 4 r.length ++ leBytes 4 r.seq ++
    leBytes 4 r.cal ++ leBytes 8 r.time ++ slice r.payload 0 (r.length - 28)
  head ++ leBytes 4 (crc32c (head.map BitVec.toNat))

/-- A COUNTERS record. -/
def State.writeCounters (s : State) (saved : Bool) : State :=
  let l := s.ledg
  s.ledgAppend 0x01 (leBytes 8 (l.powerS + s.now / 10 ^ 9) ++ leBytes 8 (l.activeNs / 10 ^ 9) ++ leBytes 4 l.coldBoots ++ leBytes 4 l.saves ++
    leBytes 4 l.unsaved ++ leBytes 4 l.brownouts ++ leBytes 4 l.wakeFails ++ l.thermal.flatMap (leBytes 4)) saved

/-- The ERROR records held since the last update, up to 64 (R477, R471). -/
def State.writeHeldErrors (s : State) (saved : Bool) : State :=
  let h := s.ledg.errHeld
  h.foldl (fun (t : State) b => t.ledgAppend 0x06 b saved) { s with ledg := { s.ledg with errHeld := [] } }

/-- A WEAR_MAP: the buffer's accumulators of an output go into its lifetime totals, and are cleared (R479). -/
def State.writeWearMap (s : State) (k : Nat) : State :=
  if tabRange s.ledg.wearBuf (2304 * k) (2304 * (k + 1)) = [] then s
  else
    let total := (tabRange s.ledg.wearBuf (2304 * k) (2304 * (k + 1))).foldl (fun (m : Tab Nat) p =>
      tabSet (fun _ => 0) m p.1 ((tabGet (fun _ => 0) m p.1 + p.2) % 2 ^ 64)) s.ledg.wearTotal
    let s := { s with ledg := { s.ledg with wearTotal := total, wearBuf := tabDropRange s.ledg.wearBuf (2304 * k) (2304 * (k + 1)) } }
    s.ledgAppend 0x02 (leBytes 8 k ++ (List.range 2304).flatMap (fun z => leBytes 8 (tabGet (fun _ => 0) total (2304 * k + z))))

/-- A WEAR_ACC: the accumulators of an output in the save buffer. -/
def State.writeWearAcc (s : State) (k : Nat) : State :=
  s.ledgAppend 0x03 (leBytes 8 k ++ (List.range 2304).flatMap (fun z => leBytes 4 (tabGet (fun _ => 0) s.ledg.wearBuf (2304 * k + z)))) true

/-- The RETRAIN record of the current hour. -/
def State.writeRetrain (s : State) (saved : Bool) : State :=
  s.ledgAppend 0x07 ((List.range 32).flatMap (fun l =>
    let x := s.lane l
    let eye := MEM_CH_LANE_EYE (l / 2) (l % 2)
    leBytes 4 x.steps ++ leBytes 1 (if x.steps = 0 then 0 else x.minWidth) ++ leBytes 1 x.maxWidth ++ leBytes 1 (s.getF eye MEM_CH_LANE_EYE_DELAY) ++
      leBytes 1 (s.getF eye MEM_CH_LANE_EYE_VREF) ++ leBytes 2 x.lowEvents ++ leBytes 6 0)) saved

/-- A periodic update (R477). -/
def State.ledgerUpdate (s : State) : State :=
  let s := s.writeCounters false
  let s := (List.range 8).foldl (fun (t : State) k => t.writeWearMap k) s
  let s := (List.range 8).foldl (fun (t : State) c => if (t.hapc c).changed then t.writeHapRecord c false else t) s
  s.writeHeldErrors false

/-- LEDGER_PERIODIC_UPDATE (R477): every 600 s, in every state but OFF. -/
def execLedgerPeriodicUpdate (s : State) : Host.Outcome State Fault Refusal := .next s.ledgerUpdate

/-- WEAR_SAVE_BUFFER_ADD (R479): the outputs' accumulators go into the save buffer. -/
def execWearSaveBufferAdd (s : State) : Host.Outcome State Fault Refusal :=
  let b := s.ledg.wearOut.foldl (fun (m : Tab Nat) p => tabSet (fun _ => 0) m p.1 (satAdd 0xFFFFFFFF (tabGet (fun _ => 0) m p.1) p.2)) s.ledg.wearBuf
  .next { s with ledg := { s.ledg with wearBuf := b, wearOut := [] } }

/-- RETRAIN_HOUR_RECORD (Table 17.5): the hour's history of every lane is written, and a new hour begins. -/
def execRetrainHourRecord (s : State) : Host.Outcome State Fault Refusal :=
  .next ((List.range 32).foldl (fun (t : State) l => t.setLane l { starved := (t.lane l).starved }) (s.writeRetrain false))

/-! ### The save capacitor (R467, R468) -/

/-- VSAVE_ARMED (R467, R468): VSAVE has reached 4.6 V; `chargeUs` is the time it took from 1.0 V if it started below, from which the capacitance is
estimated. -/
def execVsaveArmed (chargeUs : Option Nat) (s : State) : Host.Outcome State Fault Refusal :=
  let s := (s.setF LEDG_STATUS LEDG_STATUS_ARMED 1).setF LEDG_STATUS LEDG_STATUS_VSAVE 230
  .next (match chargeUs with
    | none => s
    | some t =>
      let s := s.setReg LEDG_CAP (min 65535 (t / 1000) * 65536 + min 65535 (t / 180))
      if t < 39600 then
        ((s.setF LEDG_STATUS LEDG_STATUS_CAP_LOW 1).powerEvent 5 0xFF 0).ledgerEvent 0x8C03 1 (t / 180)
      else s.setF LEDG_STATUS LEDG_STATUS_CAP_LOW 0)

/-- VSAVE_ARM_TIMEOUT (R467). -/
def execVsaveArmTimeout (s : State) : Host.Outcome State Fault Refusal :=
  .next (if s.getF LEDG_STATUS LEDG_STATUS_ARMED = 1 ∨ s.getF LEDG_STATUS LEDG_STATUS_VSAVE_FAIL = 1 then s
  else ((s.setF LEDG_STATUS LEDG_STATUS_VSAVE_FAIL 1).powerEvent 5 0xFF 0).ledgerEvent 0x8C03 0 (s.getF LEDG_CAP LEDG_CAP_C_UF))

/-! ### Sags (R469 to R475) -/

/-- The bytes of the records from a number on, of both partitions. -/
def State.bytesSince (s : State) (seq : Nat) : Nat :=
  (((s.ledg.live ++ s.ledg.history).filter (fun r => decide (seq ≤ r.seq))).map LedgRec.length).foldl (· + ·) 0

/-- SAG_DETECTED (R470, R471, R475): PWR_FAIL_N is asserted; if the save is armed AO runs from VSAVE and the save set is written in the order of Table
17.3, ending with SAVE_END, which took `durationUs` from `mv` mV and left VSAVE at `mvAfter`. -/
def execSagDetected (durationUs mv mvAfter : Nat) (s : State) : Host.Outcome State Fault Refusal :=
  .next (if s.ledg.pwrFail then s
  else
    let s := { s with ledg := { s.ledg with pwrFail := true } }
    if s.getF LEDG_STATUS LEDG_STATUS_ARMED = 0 then s
    else
      let first := s.ledg.nextSeq
      let s := { s with ledg := { s.ledg with saves := s.ledg.saves + 1, closed := true } }
      let s := s.writeCounters true
      let s := (List.range 8).foldl (fun (t : State) k => t.writeWearAcc k) s
      let s := (List.range 8).foldl (fun (t : State) c => t.writeHapRecord c true) s
      let s := (s.writeHeldErrors true).writeRetrain true
      let n := s.bytesSince first + 48
      let s := s.ledgAppend 0x0A (leBytes 4 s.ledg.saves ++ leBytes 4 n ++ leBytes 4 durationUs ++ leBytes 2 mv ++ leBytes 6 0) true
      let s := (s.setReg LEDG_LAST_SAVE durationUs).setF LEDG_STATUS LEDG_STATUS_SAVE 2
      (s.setF LEDG_STATUS LEDG_STATUS_ARMED (b2n (4600 ≤ mvAfter))).setF LEDG_STATUS LEDG_STATUS_VSAVE (min 255 (mvAfter / 20)))

/-- VDDAO_RECOVERED (R473): AO returns to VDDAO; the session goes on. -/
def execVddaoRecovered (s : State) : Host.Outcome State Fault Refusal :=
  .next (if ¬ s.ledg.pwrFail then s
  else
    let s := { s with ledg := { s.ledg with pwrFail := false, closed := false, brownouts := s.ledg.brownouts + 1 } }
    ((s.setF LEDG_STATUS LEDG_STATUS_SAVE 0).count LEDG_BROWNOUT_COUNT).postMgr 0x8C01 0 s.ledg.brownouts 0)

/-! ### Commands -/

/-- An instance may send none of these but LEDG_GET_CALENDAR (R483). -/
def ledgPre (pk : Pkt) : List Chk := [⟨!isInst pk.fn, .notPermitted, 0⟩]

/-- LEDG_READ (0x0C01, Table 17.7). -/
def cmdLedgRead : Cmd := ⟨0x0C01, .tenants, 4, none,
  [⟨16, 1, .rng 0 11⟩, ⟨17, 3, .zero⟩, ⟨20, 4, .any⟩, ⟨24, 4, .write⟩, ⟨28, 4, .zero⟩, ⟨32, 8, .mult 8 0 0xFFFFFFFFFFFFFFFF⟩,
   ⟨40, 8, .mult 8 65536 1048576⟩]⟩

/-- The retained records that match, in ascending order of SEQ. -/
def State.recordsFrom (s : State) (typ from_ : Nat) : List LedgRec :=
  sortBy LedgRec.seq ((s.ledg.live ++ s.ledg.history).filter (fun r => r.valid && decide (from_ ≤ r.seq) && (decide (typ = 0) || decide (r.typ = typ))))

/-- How many records fit, as long as each whole one does. -/
def fitRecords : List LedgRec → Nat → Nat
  | [], _ => 0
  | r :: rest, n => if r.length ≤ n then 1 + fitRecords rest (n - r.length) else 0

/-- What LEDG_READ adds to the shared validation. -/
def hooksLedgRead (pk : Pkt) (s : State) : Hooks :=
  { dyn := fun p => [(7, decide (par p 32 8 + par p 40 8 ≤ s.objSize (par p 24 4)))]
    pre := fun _ => ledgPre pk }

/-- The effect of LEDG_READ once it is admitted. -/
def effLedgRead (pk : Pkt) (p : List Byte) (t : State) : State :=
  let rs := t.recordsFrom (par p 16 1) (par p 20 4)
  let n := fitRecords rs (par p 40 8)
  let t := t.count LEDG_CRC_COUNT ((t.ledg.live ++ t.ledg.history).filter (fun r => !r.valid)).length
  t.storeReply pk (par p 24 4) (par p 32 8) ((rs.take n).flatMap LedgRec.bytes) n
    (((rs.drop n).head?.map LedgRec.seq).getD t.ledg.nextSeq)

/-- LEDG_READ (R484). -/
def execLedgRead (pk : Pkt) (s : State) : Host.Outcome State Fault Refusal :=
  .next (runPkt cmdLedgRead pk s (hooksLedgRead pk s) (effLedgRead pk))

/-- LEDG_SET_CALENDAR (0x0C02). -/
def cmdLedgSetCalendar : Cmd := ⟨0x0C02, .tenants, 2, none, [⟨16, 8, .rng 0 4102444799⟩, ⟨24, 8, .any⟩]⟩

/-- What LEDG_SET_CALENDAR adds to the shared validation. -/
def hooksLedgSetCalendar (pk : Pkt) (s : State) : Hooks :=
  { dyn := fun p => [(2, decide (par p 24 8 ≤ s.now) && decide (s.now ≤ par p 24 8 + 10 ^ 9))]
    pre := fun _ => ledgPre pk }

/-- The effect of LEDG_SET_CALENDAR once it is admitted. -/
def effLedgSetCalendar (pk : Pkt) (p : List Byte) (t : State) : State :=
  let t := t.setCalendar (par p 16 8) (par p 24 8)
  let t := if t.getF FAB_STATUS FAB_STATUS_FM = 1 then
      t.emit (.calendar (par p 16 8) ((par p 24 8 : Int) + t.fab.timeOffset.getD 0).toNat) else t
  t.complete pk .ok

/-- LEDG_SET_CALENDAR (R482, R483, R506): on the fabric manager the calendar also goes down the tree. -/
def execLedgSetCalendar (pk : Pkt) (s : State) : Host.Outcome State Fault Refusal :=
  .next (runPkt cmdLedgSetCalendar pk s (hooksLedgSetCalendar pk s) (effLedgSetCalendar pk))

/-- LEDG_FLUSH (0x0C03). -/
def cmdLedgFlush : Cmd := ⟨0x0C03, .tenants, 0, none, []⟩

/-- What LEDG_FLUSH adds to the shared validation. -/
def hooksLedgFlush (pk : Pkt) : Hooks :=
  { pre := fun _ => ledgPre pk }

/-- The effect of LEDG_FLUSH once it is admitted. -/
def effLedgFlush (pk : Pkt) (_p : List Byte) (t : State) : State :=
  t.ledgerUpdate.complete pk .ok

/-- LEDG_FLUSH (R483): a periodic update at once. -/
def execLedgFlush (pk : Pkt) (s : State) : Host.Outcome State Fault Refusal :=
  .next (runPkt cmdLedgFlush pk s (hooksLedgFlush pk) (effLedgFlush pk))

/-- LEDG_GET_CALENDAR (0x0C04). -/
def cmdLedgGetCalendar : Cmd := ⟨0x0C04, .any, 0, none, []⟩

/-- The effect of LEDG_GET_CALENDAR once it is admitted. -/
def effLedgGetCalendar (pk : Pkt) (_p : List Byte) (t : State) : State :=
  t.complete pk .ok (b2n (t.getF LEDG_STATUS LEDG_STATUS_CAL_VALID = 0)) t.calendar t.now

/-- LEDG_GET_CALENDAR (R483). -/
def execLedgGetCalendar (pk : Pkt) (s : State) : Host.Outcome State Fault Refusal :=
  .next (runPkt cmdLedgGetCalendar pk s {} (effLedgGetCalendar pk))

end Sys2Proof.Machine
end

