-- ==== Sys2Proof/Machine/Reclaim.lean ====
section
/-! DEFINITION. What an instance uses, and what a resize takes back (R91 to R93, Table 3.10). -/

namespace Sys2Proof.Machine

/-! ### Grant records (Table 3.6) -/

/-- The grant record of a packet. -/
def grantOfPacket (p : List Byte) : Grant :=
  ⟨par p 24 4, par p 28 2, par p 30 2, par p 32 2, par p 34 1, par p 35 1, par p 36 1, par p 37 1, par p 38 1, par p 39 1, par p 40 1⟩

/-- The rows of Table 3.6, parameters 7 to 19 of INST_CREATE and INST_RESIZE. -/
def grantParams : List Param :=
  [⟨24, 4, .rng 0 1048576⟩, ⟨28, 2, .rng 0 4096⟩, ⟨30, 2, .rng 0 256⟩, ⟨32, 2, .rng 0 256⟩, ⟨34, 1, .rng 0 128⟩, ⟨35, 1, .rng 0 16⟩,
   ⟨36, 1, .rng 0 128⟩, ⟨37, 1, .rng 0 64⟩, ⟨38, 1, .any⟩, ⟨39, 1, .any⟩, ⟨40, 1, .any⟩, ⟨41, 3, .zero⟩, ⟨44, 4, .zero⟩]

/-- Ranges of Table 3.6 that depend on other fields, for an index range that begins at `base`. -/
def grantDyn (base : Nat) (p : List Byte) : List (Nat × Bool) :=
  let g := grantOfPacket p
  [(8, decide (g.shelf ≤ 4096 - base)), (15, decide (g.outOwn &&& g.outLayer = g.outOwn))]

/-! ### Use -/

/-- The objects of an owner with their indices. -/
def State.objectsOf (s : State) (owner : Nat) : List (Nat × Obj) := s.objects.filter (fun o => decide (o.2.owner = owner))

/-- Does an index belong to the range of an instance: inside it, or above a range that has shrunk and still in use (R85, R91)? -/
def State.inRangeOf (s : State) (n i : Nat) : Bool :=
  let x := s.inst n
  (decide (x.shelfBase ≤ i) && decide (i < x.shelfBase + x.grant.shelf)) || ((s.shelf i).obj.map Obj.owner == some n)

/-- Is an index taken, for another instance's range: part of a range, or in use by an object of the manager (R85)? -/
def State.indexTaken (s : State) (n i : Nat) : Bool :=
  s.liveInsts.any (fun m => decide (m ≠ n) && s.inRangeOf m i) || ((s.shelf i).obj.map Obj.owner == some 0)

/-- The objects of an instance at or above the end of its range (Table 3.10). -/
def State.highObjects (s : State) (n : Nat) : List Nat :=
  ((s.objectsOf n).filter (fun o => decide ((s.inst n).shelfBase + (s.inst n).grant.shelf ≤ o.1))).map Prod.fst

/-- The layers of an owner with their keys. -/
def State.layersOf (s : State) (owner : Nat) : List (Nat × Layer) := s.bnd.layers.filter (fun q => decide (q.1 / 128 = owner))

/-- The layer slots and scalers a layer holds or reserves. -/
def Layer.slots (x : Layer) : List Nat := distinct (x.held.slots ++ x.reserved.slots)
def Layer.scalers (x : Layer) : List Nat := distinct (x.held.scalers ++ x.reserved.scalers)

/-- The slots and the scalers of an owner. -/
def State.slotsOf (s : State) (owner : Nat) : List Nat := (s.layersOf owner).flatMap (fun q => q.2.slots)
def State.scalersOf (s : State) (owner : Nat) : List Nat := (s.layersOf owner).flatMap (fun q => q.2.scalers)

/-- The regions an owner has enabled or asked for, and the nodes it uses, ascending. -/
def State.regionsOfOwner (s : State) (owner : Nat) : List Nat :=
  ((s.tch.regions.filter (fun x => decide (x.1 / 256 = owner) && (regionComing x.2).isSome)).map (fun x => x.1 % 256))
def State.nodesOf (s : State) (owner : Nat) : List Nat :=
  sortBy id ((s.aud.nodes.filter (fun q => decide (q.1 / 128 = owner) && !q.2.closing)).map (fun q => q.1 % 128))

/-- The enabled counters of an owner, in its numbering. -/
def State.enabledCounters (s : State) (owner : Nat) : List Nat :=
  (List.range (s.countersOf owner).length).filter (fun i => (s.physCounter owner i).any (fun c => decide (s.getF (PMU_CNT_CFG c) PMU_CNT_CFG_ENABLE = 1)))

/-- The outputs on which an owner has layers. -/
def State.layerOutputs (s : State) (owner : Nat) : Nat :=
  (s.layersOf owner).foldl (fun m q => m ||| (match q.2.settings with | some l => 2 ^ l.output | none => 0)) 0

/-- By field of Table 3.6 that a resize may take back, its number, the instance's limit and by how much its use exceeds it (R92). Outputs and haptic
channels it owns are in use; so are counters that are enabled. -/
def State.deficits (s : State) (n : Nat) : List (Nat × Nat × Nat) :=
  let g := (s.inst n).grant
  let masks := fun (own new : Nat) => popCount 8 own - popCount 8 (own &&& new)
  [(7, g.mem, s.memUsed n - g.mem), (8, g.shelf, (s.highObjects n).length), (10, g.touch, (s.regionsOfOwner n).length - g.touch),
   (11, g.layers, (s.slotsOf n).length - g.layers), (12, g.scalers, (s.scalersOf n).length - g.scalers),
   (13, g.audio, (s.nodesOf n).length - g.audio), (14, g.counters, ((s.enabledCounters n).filter (fun i => decide (g.counters ≤ i))).length),
   (15, g.outOwn, masks (s.ownMask n Grant.outOwn) g.outOwn), (16, g.outLayer, masks (s.layerOutputs n) g.outLayer),
   (17, g.hap, masks (s.ownMask n Grant.hap) g.hap)].filter (fun x => decide (0 < x.2.2))

/-! ### The end of a resize -/

/-- The counters beyond the grant go back once they are not enabled, and the resize replies (R92, R93). -/
def State.endResize (s : State) (n items granules : Nat) : State :=
  match (s.inst n).resize with
  | none => s
  | some r =>
    let lost := (s.ownMask n Grant.outOwn ||| s.ownMask n Grant.hap) ≠ ((s.inst n).grant.outOwn ||| (s.inst n).grant.hap)
    let s := (s.setInst n { s.inst n with resize := none, oldGrant := {} }).allotCounters n (s.inst n).grant.counters
    let s := if lost then (s.capChanged n).capChanged 0 else s
    s.complete r.pk .ok 0 items granules

/-- Resizes whose instance fits every limit reply at that moment (R92). -/
def State.settleResizes (s : State) : State :=
  (s.liveInsts.filter (fun n => (s.inst n).resize.isSome && (s.deficits n).isEmpty)).foldl (fun (t : State) n => t.endResize n 0 0) s

/-! ### Forced reclaim (Table 3.10, R93) -/

/-- What has been taken so far: the state, items, granules. -/
structure Taken where
  state : State
  items : Nat := 0
  granules : Nat := 0

/-- A resource is taken and the instance told (R93). -/
def Taken.take (t : Taken) (n field unit granules : Nat) (f : State → State) : Taken :=
  ⟨(f t.state).post n 0x8102 field unit 0, t.items + 1, t.granules + granules⟩

/-- Is the object named by a latched layer? -/
def State.latched (s : State) (owner h : Nat) : Bool := (s.layersOf owner).any (fun q => decide (q.2.buf.map Prod.fst = some h))

/-- Layers that show or wait to show an object lose it: hidden from the next latch. -/
def State.hideObject (s : State) (owner h : Nat) : State :=
  ((s.layersOf owner).filter (fun q => decide (q.2.buf.map Prod.fst = some h) || decide (q.2.flip.map Flip.handle = some h))).foldl
    (fun (t : State) q => t.dropBuffer q.1) s

/-- An object is taken. -/
def Taken.takeObject (t : Taken) (n field i : Nat) : Taken :=
  match (t.state.shelf i).obj with
  | some o => t.take n field o.desc.handle o.used (fun s => (s.hideObject n o.desc.handle).freeObject i)
  | none => t

/-- The object of an instance that goes first: C3 before C2 before C1, one that no layer shows before one that is latched, the newest first. -/
def State.victim (s : State) (n : Nat) : Option Nat :=
  (minBy (fun o : Nat × Obj => (3 - o.2.desc.cls) * 2 ^ 80 + b2n (s.latched n o.2.desc.handle) * 2 ^ 72 + (2 ^ 71 - o.2.born)) (s.objectsOf n)).map Prod.fst

/-- Whole objects until the use of memory fits. -/
def takeMemory (n : Nat) : Nat → Taken → Taken
  | 0, t => t
  | k + 1, t =>
    if t.state.memUsed n ≤ (t.state.inst n).grant.mem then t
    else match t.state.victim n with
      | some i => takeMemory n k (t.takeObject n 7 i)
      | none => t

/-- A layer is taken with its slots or scalers: hidden from the next latch; its waiting commands end as they do when another takes their place. -/
def State.removeLayer (s : State) (key : Nat) : State :=
  let x := s.layer key
  let s := match x.pend with
    | some q => s.abort q.2 1
    | none => s
  let s := x.lutPend.foldl (fun (t : State) q => t.abort q.2 1) s
  (s.dropBuffer key).setLayer key { releasing := x.releasing }

/-- Layers with the highest-numbered slots, or scalers, until what is left fits. -/
def takeLayers (n field : Nat) (units : Layer → List Nat) : Nat → Taken → Taken
  | 0, t => t
  | k + 1, t =>
    let g := (t.state.inst n).grant
    let used := (t.state.layersOf n).flatMap (fun q => units q.2)
    if used.length ≤ (if field = 11 then g.layers else g.scalers) then t
    else
      let top := (t.state.layersOf n).filter (fun q => decide (units q.2 ≠ []))
      match minBy (fun q : Nat × Layer => 4096 - q.2.slots.foldl max 0) top with
      | some q =>
        let s := t.state.removeLayer q.1
        takeLayers n field units k ((units q.2).foldl (fun (u : Taken) v => u.take n field v 0 id) { t with state := s })
      | none => t

/-- Reclaim everything still over the limits, in the order of Table 3.6 (R92, R93). -/
def State.reclaim (s : State) (n : Nat) : Taken :=
  let x := s.inst n
  let t := takeMemory n (s.objectsOf n).length { state := s }
  let t := (t.state.highObjects n).foldl (fun (u : Taken) i => u.takeObject n 8 i) t
  let t := (((t.state.regionsOfOwner n).drop x.grant.touch).reverse).foldl (fun (u : Taken) r =>
    u.take n 10 r 0 (fun w => w.freeRegion (regionKey n r))) t
  let t := takeLayers n 11 Layer.slots 128 t
  let t := takeLayers n 12 Layer.scalers 128 t
  let nodes := (t.state.nodesOf n).drop x.grant.audio
  let t := (nodes.reverse).foldl (fun (u : Taken) v => u.take n 13 v 0 id) { t with state := t.state.trimAudio n x.grant.audio }
  let t := (((t.state.enabledCounters n).filter (fun i => decide (x.grant.counters ≤ i))).reverse).foldl (fun (u : Taken) i => u.take n 14 i 0 id) t
  let t := (maskList 8 (t.state.ownMask n Grant.outOwn)).foldl (fun (u : Taken) k => if x.grant.outOwn.testBit k then u else u.take n 15 k 0 id) t
  let t := (maskList 8 (t.state.layerOutputs n)).foldl (fun (u : Taken) k =>
    if x.grant.outLayer.testBit k then u
    else u.take n 16 k 0 (fun w => ((w.layersOf n).filter (fun q => q.2.settings.any (fun l => decide (l.output = k)))).foldl
      (fun (v : State) q => v.removeLayer q.1) w)) t
  (maskList 8 (t.state.ownMask n Grant.hap)).foldl (fun (u : Taken) c =>
    if x.grant.hap.testBit c then u else u.take n 17 c 0 (fun w => w.hapOwnerChange c)) t

/-- RESIZE_GRACE_END (R92, R93): what is still over the limits is taken, and the resize replies. -/
def execResizeGraceEnd (inst : Nat) (s : State) : Host.Outcome State Fault Refusal := if s.safe then .next s else
  .next (if (s.inst inst).resize.isSome then
      let t := s.reclaim inst
      t.state.endResize inst t.items t.granules
    else s)

end Sys2Proof.Machine
end

