-- ==== Sys2Proof/Machine/Image.lean ====
section
/-! DEFINITION. State images (R102 to R106): what a save writes and what a restore loads. -/

namespace Sys2Proof.Machine

/-! ### Saving -/

/-- The use record of an instance (Table 3.25): what it uses of each field. -/
def State.useOf (s : State) (n : Nat) : Grant :=
  let g := (s.inst n).grant
  { mem := s.memUsed n, shelf := (s.objectsOf n).length, shader := g.shader, touch := (s.regionsOfOwner n).length, layers := (s.slotsOf n).length
    scalers := (s.scalersOf n).length, audio := (s.nodesOf n).length, counters := (s.enabledCounters n).foldl (fun m i => max m (i + 1)) 0
    outOwn := g.outOwn, outLayer := s.layerOutputs n, hap := g.hap }

/-- The registers of a check-value unit a save carries (R330). -/
def cvuRegs (u : Nat) : List Nat := [CVU_CFG u, CVU_VALUE u, CVU_RESULT u, CVU_EXPECT u, CVU_STATUS u, CVU_ALIVE_STATE u]

/-- The timing of an output in effect, or none. -/
def State.savedOutput (s : State) (k : Nat) : SavedOutput :=
  ⟨k, if s.outState k = 0 then {} else (s.outp k).timing, s.getF (OUT_LATCH k) OUT_LATCH_ADVANCE, s.reg (BND_BG k), (s.pipe k).mode, (s.pipe k).table⟩

/-- The sections 0x0010 to 0x0016 (R106, R330, R337, R435, R545). -/
def State.chaptersOf (s : State) (n : Nat) : Chapters :=
  let outs := maskList 8 (s.ownMask n Grant.outOwn)
  { layers := (s.layersOf n).filterMap (fun q => q.2.cur.map (fun l => ⟨q.1 % 128, l, q.2.buf, q.2.lut⟩))
    outputs := outs.map s.savedOutput
    units := (s.unitsOf n).map (fun u => (cvuRegs u).map s.reg)
    windows := (outs.flatMap s.winsOf).filterMap (fun j => (s.win j).cfg.map (fun c => ⟨j, c, (s.win j).table⟩))
    audio :=
      { nodes := (s.aud.nodes.filter (fun q => decide (q.1 / 128 = n) && !q.2.closing)).map (fun q => (q.1 % 128, q.2.cfg))
        routes := (s.aud.routes.filter (fun q => decide (keyOwner q.1 = n) && !q.2.closing)).map (fun q =>
          (q.1 % 8192, q.2.from_, q.2.map, q.2.gain, q.2.rampMs))
        eps := s.aud.eps.filterMap (fun q => q.2.cfg.bind (fun c => if c.owner = n then some (q.1, c) else none)) }
    regions := (s.tch.regions.filter (fun x => decide (x.1 / 256 = n))).filterMap (fun x => x.2.cfg.map (fun c =>
      ⟨x.1 % 256, c, s.reg (TCH_RGN_HEAD n (x.1 % 256)), s.reg (TCH_RGN_TAIL n (x.1 % 256)), x.2.seq, x.2.dropped⟩))
    haptics := (maskList 8 (s.ownMask n Grant.hap)).map (fun c =>
      ⟨c, s.reg (HAP_CFG c), s.reg (HAP_SCALE c), s.reg (HAP_CAL c), s.reg (HAP_GAIN c), decide (s.getF (HAP_STATUS c) HAP_STATUS_CALIBRATED = 1),
       (s.hapc c).gains, (s.hapc c).slots⟩)
    counters := (s.countersOf n).zipIdx.map (fun q => ⟨q.2, s.reg (PMU_CNT_CFG q.1), s.cntValue q.1, s.cnt q.1⟩)
    dump := tabGet (fun _ => none) s.pmu.dumps n
    ring := tabGet (fun _ => none) s.pmu.rings n
    positions := [s.reg (PMU_DUMP_HEAD n), s.reg (PMU_DUMP_TAIL n), s.reg (PMU_SAMPLE_HEAD n), s.reg (PMU_SAMPLE_TAIL n)] }

/-- The bytes of an object that are not zero, as a reader receives them. -/
def State.dataOf (s : State) (i : Nat) (o : Obj) : List (Nat × Byte) :=
  let offs := if tabGet (fun _ => 0) s.mem.spoiled i = 0 then
      (tabRange s.mem.data (cellAddr i 0) (cellAddr i o.desc.size)).map (fun c => c.1 - cellAddr i 0)
    else List.range o.desc.size
  offs.filterMap (fun off => if s.objByte i off = 0 then none else some (off, s.objByte i off))

/-- The bytes of a section with its header, padded to 16. -/
def sectionLength (n : Nat) : Nat := 16 + 16 * ceilDiv n 16

/-- IMAGE_LEN (R103, R104): header, sections, trailer; the lengths of the sections 0x0010 to 0x0016 are not given. -/
def imageLength (items : List Item) (notices : Nat) (objs : List Obj) (c : Chapters) : Nat :=
  112 + sectionLength 40 + sectionLength 262 +
    sectionLength ((items.map (fun i => 80 + 16 * ceilDiv i.block.length 16)).foldl (· + ·) 0) + sectionLength (32 * notices) +
    sectionLength (32 * objs.length) +
    sectionLength ((objs.map (fun o => 16 + 16 * ceilDiv (if o.desc.sparse.isSome then 65536 * o.used else o.desc.size) 16)).foldl (· + ·) 0) +
    16 * ([(0x10, c.layers.length), (0x11, c.outputs.length), (0x12, c.windows.length + c.units.length), (0x13, c.audio.nodes.length + c.audio.routes.length + c.audio.eps.length),
      (0x14, c.regions.length), (0x15, c.haptics.length), (0x16, c.counters.length)].map (fun x => Config.chapterLength x.1 x.2)).foldl (· + ·) 0

/-- The flags of Table 3.7 as they stand. -/
def Inst.flags (x : Inst) : Nat := b2n x.fixed + 2 * b2n x.c1 + 4 * b2n x.span

/-- The state image of an instance (R103). -/
def State.imageOfInst (s : State) (n : Nat) (encrypted : Bool) (slot nonce : Nat) : Image :=
  let x := s.inst n
  let objs := s.objectsOf n
  let c := s.chaptersOf n
  let f := s.fnState n
  { magic := 0x49534743, fmtMajor := 1, fmtMinor := 0, sectionVersions := List.replicate 13 1
    length := imageLength x.items f.heldNotices.length (objs.map Prod.snd) c
    sourceUid := ownUid, sourcePart := 0x0880, sourceRev := 0xA1, damath := s.fw.damath, digestOk := true, encrypted := encrypted, keySlot := slot
    instance_ := n, shelfBase := x.shelfBase, instFlags := x.flags, saveTime := s.now, saveSeq := (s.insts.saveSeq + 1) % 2 ^ 32, nonce := nonce
    grant := x.grant, use := s.useOf n
    ringSet := (tabRange s.regs (ringSet n) (ringSet n + 0x100)).map (fun r => (r.1 - ringSet n, r.2))
    tails := f.tails ++ [f.cqHead], pendingItems := x.items, notices := f.heldNotices
    objects := objs.map (fun o => (o.2.desc, o.2.feedback)), data := objs.map (fun o => (o.2.desc.handle, s.dataOf o.1 o.2)), chapters := c }

/-! ### Restoring -/

/-- The objects an image brings take their indices, handles and data, and storage (R106); none where storage for one is lacking. -/
def State.loadObject (s : State) (n : Nat) (d : ObjDesc) (fb : Option (Nat × Nat)) (cells : List (Nat × Byte)) : Option State :=
  let i := handleIndex d.handle
  let tiles := d.sparse
  let k := match tiles with
    | some l => l.length
    | none => ceilDiv d.size 65536
  (s.placeNew d.usage d.cls k).map (fun runs =>
    let s := s.wipe i 0 262144
    let o : Obj := { owner := n, desc := d, born := s.shm.births, runs := if tiles.isSome then [] else runs, feedback := fb }
    let o := match tiles with
      | some l => giveTiles l runs o
      | none => o
    let s := s.setShelf i { s.shelf i with gen := bits d.handle 19 0, obj := some o }
    let s := { s with shm := { s.shm with births := s.shm.births + 1 } }
    cells.foldl (fun (t : State) c => t.writeObj i c.1 [c.2]) s)

/-- Every object of an image, or none. -/
def State.loadObjects (n : Nat) (img : Image) : List (ObjDesc × Option (Nat × Nat)) → State → Option State
  | [], s => some s
  | d :: r, s =>
    match s.loadObject n d.1 d.2 (((img.data.find? (fun c => decide (c.1 = d.1.handle))).map Prod.snd).getD []) with
    | some t => State.loadObjects n img r t
    | none => none

/-- The ring registers, doorbell tails, held notices and pending items of an image (R106). The notices' counts run on from the last one held. -/
def State.loadRings (s : State) (n : Nat) (img : Image) : State :=
  let s := { s with regs := tabDropRange s.regs (ringSet n) (ringSet n + 0x100) }
  let s := img.ringSet.foldl (fun (t : State) r => if r.1 < 0x100 then t.setReg (ringSet n + r.1) r.2.toNat else t) s
  let f := s.fnState n
  let count := match img.notices.getLast? with
    | some (.notice c ..) => c
    | _ => f.noticeCount
  let s := s.setFn n { f with tails := img.tails.take 3, cqHead := img.tails.getD 3 0, heldNotices := img.notices, noticeCount := count
                              cqEver := s.cqOn n || !img.notices.isEmpty }
  s.setInst n { s.inst n with items := img.pendingItems.map (fun i => { i with pk := { i.pk with fn := n } }) }

/-- The layers and outputs of an image: shown from the first latch after (R106). -/
def State.loadLayers (s : State) (n : Nat) (c : Chapters) : State :=
  let s := c.layers.foldl (fun (t : State) l =>
    let key := layerKey n l.number
    t.setLayer key { cur := some l.set, held := t.resFor key l.set, buf := l.buf, lut := l.lut }) s
  c.outputs.foldl (fun (t : State) o =>
    ((t.setReg (BND_BG o.number) o.bg).setF (OUT_LATCH o.number) OUT_LATCH_ADVANCE o.advance).setPipe o.number
      { t.pipe o.number with mode := o.mode, table := o.table }) s

/-- Units and windows (R330, R337): saved units go in ascending order to those assigned to the target; the rest are dropped and told of after thaw. -/
def State.loadCollation (s : State) (n : Nat) (c : Chapters) : State :=
  let have_ := s.unitsOf n
  let s := (have_.zip c.units).foldl (fun (t : State) u => ((cvuRegs u.1).zip u.2).foldl (fun (w : State) r => w.setReg r.1 r.2) t) s
  let s := { s with coll := { s.coll with unitsLost := tabSet (fun _ => 0) s.coll.unitsLost n (c.units.length - have_.length) } }
  c.windows.foldl (fun (t : State) w => (t.setWin w.place { cfg := some w.cfg, table := w.table }).showWin (w.place / 16) (w.place % 16)) s

/-- Nodes, routes and endpoints (R435): they sound once the instance is thawed. -/
def State.loadAudio (s : State) (n : Nat) (a : SavedAudio) : State :=
  let s := a.nodes.foldl (fun (t : State) x => t.newNode (nodeKey n x.1) x.2) s
  let s := a.eps.foldl (fun (t : State) x => (t.setEp x.1 { t.audEp x.1 with cfg := some { x.2 with owner := n } }).showEp x.1) s
  a.routes.foldl (fun (t : State) x => t.newRoute (n * 8192 + x.1) x.2.1 x.2.2.1 x.2.2.2.1 x.2.2.2.2) s

/-- Touch regions and haptic channels. -/
def State.loadTouch (s : State) (n : Nat) (c : Chapters) : State :=
  let s := c.regions.foldl (fun (t : State) r =>
    (((t.setRegion (regionKey n r.number) { cfg := some r.cfg, seq := r.seq, dropped := r.dropped }).setReg (TCH_RGN_HEAD n r.number) r.head).setReg
      (TCH_RGN_TAIL n r.number) r.tail).setF (TCH_RGN_STATUS n r.number) TCH_RGN_STATUS_ENABLED 1) s
  c.haptics.foldl (fun (t : State) h =>
    if t.hapOwner h.number = n then
      let t := (((t.setReg (HAP_CFG h.number) h.cfg).setReg (HAP_SCALE h.number) h.scale).setReg (HAP_CAL h.number) h.cal).setReg (HAP_GAIN h.number) h.gain
      (t.setF (HAP_STATUS h.number) HAP_STATUS_CALIBRATED (b2n h.calibrated)).setHap h.number { t.hapc h.number with gains := h.gains, slots := h.slots }
    else t) s

/-- Counters, their dumps and samples, which go on after the thaw (R545). -/
def State.loadCounters (s : State) (n : Nat) (c : Chapters) : State :=
  let s := c.counters.foldl (fun (t : State) x =>
    match t.physCounter n x.number with
    | some p => ((t.setReg (PMU_CNT_CFG p) (setBits x.cfg 22 16 n)).setCntValue p x.value).setCnt p { x.settings with inst := n }
    | none => t) s
  let s := { s with pmu := { s.pmu with
    dumps := tabSet (fun _ => none) s.pmu.dumps n c.dump, rings := tabSet (fun _ => none) s.pmu.rings n c.ring } }
  (([PMU_DUMP_HEAD n, PMU_DUMP_TAIL n, PMU_SAMPLE_HEAD n, PMU_SAMPLE_TAIL n]).zip c.positions).foldl (fun (t : State) r => t.setReg r.1 r.2) s

/-- Owned outputs whose saved timing differs are changed to it by the sequenced path (R106): the outputs, and the state in which the changes wait. -/
def State.loadTimings (s : State) (c : Chapters) : List Nat × State :=
  let ks := c.outputs.filter (fun o => decide (o.timing ≠ (if s.outState o.number = 0 then {} else (s.outp o.number).timing)) &&
    (s.outp o.number).change.isNone && !(s.paired o.number && decide (o.number % 2 = 1)))
  (ks.map SavedOutput.number, ks.foldl (fun (t : State) o =>
    t.setOutp o.number { t.outp o.number with change := some ⟨none, o.timing, if t.outState o.number = 1 then 0 else 2, false, 0, false⟩ }) s)

/-- Everything an image brings besides its objects. -/
def State.loadRest (s : State) (n : Nat) (img : Image) : State :=
  let s := (((s.loadRings n img).loadLayers n img.chapters).loadCollation n img.chapters).loadAudio n img.chapters.audio
  let s := (s.loadTouch n img.chapters).loadCounters n img.chapters
  s.setInst n { s.inst n with restored := some img.saveTime }

end Sys2Proof.Machine
end

