-- ==== Sys2Proof/Machine/Instances.lean ====
section
/-! DEFINITION. Instances, the manager and the standby (R80 to R107). -/

namespace Sys2Proof.Machine

/-! ### The state check (R81) -/

/-- What Table 3.3 answers for a state, by row: in order ABSENT, RUNNING, resize pending, FREEZING, FROZEN, CONTAINED; DESTROYING is BUSY throughout. -/
def stateRow (s : State) (n : Nat) (row : List Status) : Status :=
  let x := s.inst n
  match x.state with
  | .absent => row.getD 0 .ok
  | .running => row.getD (if x.resize.isSome then 2 else 1) .ok
  | .freezing => row.getD 3 .ok
  | .frozen => row.getD 4 .ok
  | .contained => row.getD 5 .ok
  | .destroying => .busy

/-- The instance-state check, with the BUSY of a takeover in progress before it (R81, R99). -/
def instCheck (s : State) (row : List Status) (p : List Byte) : Option (List Chk) :=
  let st := stateRow s (par p 16 1) row
  some [⟨s.insts.takeover.isNone, .busy, 0⟩, ⟨st = .ok, st, 1⟩]

/-- The row of INST_SAVE, INST_RESTORE and INST_THAW. -/
def frozenOnly : List Status := [.outOfRange, .notPermitted, .notPermitted, .busy, .ok, .faulted]

/-! ### INST_CREATE (R83 to R86) -/

/-- INST_CREATE (0x0101, Table 3.5). -/
def cmdInstCreate : Cmd := ⟨0x0101, .manager, 4, none,
  [⟨16, 1, .rng 1 64⟩, ⟨17, 1, .rng 0 1⟩, ⟨18, 1, .any⟩, ⟨19, 1, .zero⟩, ⟨20, 2, .mask 0xF⟩, ⟨22, 2, .rng 0 4095⟩] ++ grantParams⟩

/-- The fields of a grant that do not fit what no other instance has been granted (R84). -/
def State.grantFits (s : State) (n : Nat) (g : Grant) : List Chk :=
  let free := fun (total : Nat) (f : Grant → Nat) => total + f (s.inst n).grant - s.granted f
  let others := fun (f : Grant → Nat) => ((s.liveInsts.filter (fun m => decide (m ≠ n))).map (fun m => s.ownMask m f)).foldl (· ||| ·) 0
  [⟨g.mem ≤ free s.quotaPool Grant.mem, .noResource, 7⟩, ⟨g.shader ≤ free 256 Grant.shader, .noResource, 9⟩,
   ⟨g.touch ≤ free 256 Grant.touch, .noResource, 10⟩, ⟨g.layers ≤ free 128 Grant.layers, .noResource, 11⟩,
   ⟨g.scalers ≤ free 16 Grant.scalers, .noResource, 12⟩, ⟨g.audio ≤ free 128 Grant.audio, .noResource, 13⟩,
   ⟨g.counters ≤ free 64 Grant.counters, .noResource, 14⟩, ⟨g.outOwn &&& others Grant.outOwn = 0, .noResource, 15⟩,
   ⟨g.hap &&& others Grant.hap = 0, .noResource, 17⟩]

/-- The ring register set of a function is reset (R48, R58): registers, stored doorbells, what is held; the generation of its capability list runs on. -/
def State.resetRings (s : State) (fn : Nat) : State :=
  ({ s with regs := tabDropRange s.regs (ringSet fn) (ringSet fn + 0x100) }).setFn fn { capGen := (s.fnState fn).capGen }

/-- Does a mask of outputs or channels change hands? Then the manager's view changes too (R79). -/
def State.tellOwners (s : State) (m : Nat) : State := if m = 0 then s else s.capChanged 0

/-- What INST_CREATE adds to the shared validation. -/
def hooksInstCreate (s : State) : Hooks :=
  { dyn := fun p =>
      [(3, decide (1 ≤ par p 18 1) && decide (par p 18 1 ≤ s.insts.numVfs.getD (par p 17 1) 0) && (s.boundInst (par p 17 1) (par p 18 1)).isNone)] ++
        grantDyn (par p 22 2) p
    stateCheck := instCheck s [.ok, .notPermitted, .notPermitted, .notPermitted, .notPermitted, .notPermitted]
    post := fun p =>
      ⟨(List.range (grantOfPacket p).shelf).all (fun i => !s.indexTaken (par p 16 1) (par p 22 2 + i)), .noResource, 6⟩ ::
        s.grantFits (par p 16 1) (grantOfPacket p) }

/-- The effect of INST_CREATE once it is admitted. -/
def effInstCreate (pk : Pkt) (p : List Byte) (t : State) : State :=
  let n := par p 16 1
  let g := grantOfPacket p
  let f := par p 20 2
  let t := (t.resetRings n).setInst n
    { state := if bit f 3 then .frozen else .running, fixed := bit f 0, c1 := bit f 1, span := bit f 2, port := par p 17 1, vf := par p 18 1
      shelfBase := par p 22 2, grant := g, createTime := t.now }
  let t := (maskList 8 g.hap).foldl (fun (u : State) c => u.hapOwnerChange c) t
  let t := ((t.allotCounters n g.counters).capChanged n).tellOwners (g.outOwn ||| g.hap)
  t.complete pk .ok 0 0 (t.fnState n).capGen

/-- INST_CREATE (R86): the virtual function is bound, the grant reserved, the ring set reset, the view published. -/
def execInstCreate (pk : Pkt) (s : State) : Host.Outcome State Fault Refusal :=
  .next (runPkt cmdInstCreate pk s (hooksInstCreate s) (effInstCreate pk))

/-! ### Reset and destroy (R87 to R89, Table 3.8) -/

/-- Packets of a function whose ring set has been reset get no reply (R87). -/
def State.orphan (s : State) (fn : Nat) : State :=
  { s with flight := s.flight.map (fun (f : Flight) => if f.pk.fn = fn ∧ f.pk.ring < windowRing then { f with orphan := true } else f) }

/-- The rings of a function go (Table 3.8): no reply or notice of the old ones is written; its slips break; uncommitted packets end with ABORTED. -/
def State.loseRings (s : State) (fn owner : Nat) : State :=
  let s := ((s.orphan fn).resetRings fn).breakSlips owner .aborted 0
  s.endAll (fun f => decide (f.pk.fn = fn) && decide (f.pk.ring < windowRing)) .aborted 0

/-- Uncommitted saves and restores of an instance end with ABORTED; the buffer of a save is undefined (R89). -/
def State.endMigrations (s : State) (n : Nat) : State :=
  let ps := fun (f : Flight) => if usesBlock f.pk then f.block else f.pk.params
  let s := (s.flight.filter (fun f => decide (f.op = 0x0104) && !f.committed && decide (par (ps f) 16 1 = n))).foldl (fun (t : State) f =>
    t.emit (.undefinedBuffer f.pk.fn (par (ps f) 24 8) (par (ps f) 32 8))) s
  s.endAll (fun f => (decide (f.op = 0x0104) || decide (f.op = 0x0105)) && decide (par (ps f) 16 1 = n)) .aborted 0

/-- What an instance has is taken from it (Table 3.8), by a destroy or a reset. -/
def State.clearInst (s : State) (n : Nat) (destroyed : Bool) : State :=
  let s := (s.loseRings n n).endMigrations n
  let s := s.endResize n 0 0
  let s := ((s.dropLayers n).objectsOf n).foldl (fun (t : State) o => t.freeObject o.1) (s.dropLayers n)
  let s := { s with coll := { s.coll with hiddenKeys := s.coll.hiddenKeys.filter (fun q => decide (q / 128 ≠ n)) } }
  let s := ((s.loseSupplier n destroyed).loseUnits n destroyed).loseController n
  let s := (s.closeAudio n destroyed).dropRegions n
  let s := (maskList 8 (s.ownMask n Grant.hap)).foldl (fun (t : State) c =>
    if destroyed then t.hapOwnerChange c else (t.brakePassively c).endPending c .aborted 0) s
  let s := s.clearCounters n
  let s := if destroyed then
      { s with rnd := { s.rnd with progs := s.rnd.progs.filter (fun g => decide (g.owner ≠ n)) }
               shm := { s.shm with allotments := s.shm.allotments.filter (fun a => decide (a.1 ≠ n)) } }.noteCode
    else s
  s.withdrawVotes (n % 128) 0

/-- A reset of an instance (R87, R88): a FROZEN one stays FROZEN, any other runs; the manager is told. -/
def State.resetInst (s : State) (n : Nat) : State :=
  let s := s.clearInst n false
  let x := s.inst n
  (s.setInst n { x with
    state := if x.state = .frozen then .frozen else .running, items := [], withdrawn := 0, restored := none, flrPending := false }).postMgr 0x8103 n 0 0

/-- The reset a function reset asks of its instance (R89): one that freezes is reset when it is FROZEN, one that is destroyed not at all. -/
def State.resetBound (s : State) (n : Nat) : State :=
  match (s.inst n).state with
  | .absent => s
  | .destroying => s
  | .freezing => s.setInst n { s.inst n with flrPending := true }
  | _ => s.resetInst n

/-- FUNCTION_LEVEL_RESET (R87, R89): of a virtual function with an instance; the PCI Express state of the function lies outside the block. -/
def execFunctionLevelReset (port vf : Nat) (s : State) : Host.Outcome State Fault Refusal :=
  .next (match s.boundInst port vf with
    | some n => s.resetBound n
    | none => s)

/-- INST_DESTROY (0x0107, R87). -/
def cmdInstDestroy : Cmd := ⟨0x0107, .manager, 1, none, [⟨16, 1, .rng 1 64⟩, ⟨17, 7, .zero⟩]⟩

/-- What INST_DESTROY adds to the shared validation. -/
def hooksInstDestroy (s : State) : Hooks :=
  { stateCheck := instCheck s [.outOfRange, .ok, .ok, .ok, .ok, .ok] }

/-- The effect of INST_DESTROY once it is admitted. -/
def effInstDestroy (pk : Pkt) (p : List Byte) (t : State) : State :=
  let n := par p 16 1
  let t := (t.commit pk).clearInst n true
  let x := t.inst n
  let own := x.grant.outOwn ||| x.grant.hap
  (t.setInst n { x with
    state := .destroying, items := [], freezeDetail := if x.freezePk.isSome ∧ x.freezeDetail = 0 then 2 else x.freezeDetail, flrPending := false
    grant := { x.grant with outOwn := 0, outLayer := 0, hap := 0 }, destroyPk := some pk }).tellOwners own

/-- INST_DESTROY commits at once and enters DESTROYING (R87); outputs and channels go back to the manager. -/
def execInstDestroy (pk : Pkt) (s : State) : Host.Outcome State Fault Refusal :=
  .next (runPkt cmdInstDestroy pk s (hooksInstDestroy s) (effInstDestroy pk))

/-- Does any engine still hold a reference to the instance (R88): a committed command, a frame with its layers, a route that ramps? -/
def State.referenced (s : State) (n : Nat) : Bool :=
  s.flight.any (fun f => decide (f.pk.fn = n)) || !s.audioGone n ||
    s.bnd.pipes.any (fun q => q.2.busy && q.2.scene.layers.any (fun l => decide (l.key / 128 = n)))

/-- DESTROY_COMPLETE (R88): nothing references the instance; it becomes ABSENT, its grant and virtual function are free, and INST_DESTROY replies. -/
def execDestroyComplete (inst : Nat) (s : State) : Host.Outcome State Fault Refusal := if s.safe then .next s else
  .next (match (s.inst inst).state, (s.inst inst).destroyPk with
    | .destroying, some pk =>
      if s.referenced inst ∨ (s.inst inst).freezePk.isSome then s
      else
        let s := { s with aud := { s.aud with nodes := s.aud.nodes.filter (fun q => decide (q.1 / 128 ≠ inst)) } }
        (((s.allotCounters inst 0).resetRings inst).setInst inst {}).complete pk .ok
    | _, _ => s)

/-! ### INST_RESIZE (R90 to R92) -/

/-- INST_RESIZE (0x0102, Table 3.9). -/
def cmdInstResize : Cmd := ⟨0x0102, .manager, 4, none,
  [⟨16, 1, .rng 1 64⟩, ⟨17, 1, .zero⟩, ⟨18, 1, .zero⟩, ⟨19, 1, .zero⟩, ⟨20, 2, .mask 6⟩, ⟨22, 2, .rng 0 10000⟩] ++ grantParams⟩

/-- C1 objects and layers of an instance that loses C1_RIGHT become C2 (R91). -/
def State.lowerC1 (s : State) (n : Nat) : State :=
  let s := (s.objectsOf n).foldl (fun (t : State) o =>
    if o.2.desc.cls = 1 then t.setObj o.1 (fun x => { x with desc := { x.desc with cls := 2 } }) else t) s
  let low := fun (l : LayerSet) => if l.cls = 1 then { l with cls := 2 } else l
  (s.layersOf n).foldl (fun (t : State) q =>
    t.setLayer q.1 { q.2 with cur := q.2.cur.map low, pend := q.2.pend.map (fun y => (low y.1, y.2)) }) s

/-- The new grant is the limit (R91): counters and channels gained come at once, votes it no longer permits go (R449). -/
def State.setGrant (s : State) (n : Nat) (g : Grant) (c1 span : Bool) : State :=
  let x := s.inst n
  let gained := g.hap &&& (0xFF ^^^ x.grant.hap)
  let s := s.setInst n { x with grant := g, oldGrant := x.grant, c1 := c1, span := span }
  let s := if x.c1 && !c1 then s.lowerC1 n else s
  let s := (maskList 8 gained).foldl (fun (t : State) c => t.hapOwnerChange c) s
  let s := if (s.countersOf n).length ≤ g.counters then s.allotCounters n g.counters else s
  (s.withdrawVotes n (s.voteRights n)).capChanged n

/-- What INST_RESIZE adds to the shared validation. -/
def hooksInstResize (s : State) : Hooks :=
  let grown := fun (p : List Byte) =>
    let n := par p 16 1
    ((List.range (grantOfPacket p).shelf).drop (s.inst n).grant.shelf).all (fun i => !s.indexTaken n ((s.inst n).shelfBase + i))
  { dyn := fun p => grantDyn (s.inst (par p 16 1)).shelfBase p
    stateCheck := instCheck s [.outOfRange, .ok, .busy, .frozen, .frozen, .faulted]
    pre := fun p => [⟨(s.inst (par p 16 1)).fixed = false, .notPermitted, 1⟩]
    post := fun p => ⟨grown p, .noResource, 8⟩ :: s.grantFits (par p 16 1) (grantOfPacket p) }

/-- The effect of INST_RESIZE once it is admitted. -/
def effInstResize (pk : Pkt) (p : List Byte) (t : State) : State :=
  let n := par p 16 1
  let was := (t.inst n).grant
  let g := grantOfPacket p
  let t := (t.commit pk).setGrant n g (bit (par p 20 2) 1) (bit (par p 20 2) 2)
  let t := t.tellOwners ((g.outOwn ||| g.hap) &&& (0xFF ^^^ (was.outOwn ||| was.hap)))
  let t := t.setInst n { t.inst n with resize := some ⟨pk, false⟩ }
  let beyond := t.deficits n
  if beyond = [] then t.endResize n 0 0
  else
    let t := beyond.foldl (fun (u : State) x => u.post n 0x8101 x.1 x.2.1 x.2.2) t
    if par p 22 2 = 0 then
      let k := t.reclaim n
      k.state.endResize n k.items k.granules
    else t

/-- INST_RESIZE (R91, R92): the grant is set at commit; what is over a lowered limit is told to the instance, and with no grace taken at once. -/
def execInstResize (pk : Pkt) (s : State) : Host.Outcome State Fault Refusal :=
  .next (runPkt cmdInstResize pk s (hooksInstResize s) (effInstResize pk))

/-! ### Freeze and thaw (R100, R101, R107) -/

/-- INST_FREEZE (0x0103, R100). -/
def cmdInstFreeze : Cmd := ⟨0x0103, .manager, 1, none, [⟨16, 1, .rng 1 64⟩, ⟨17, 7, .zero⟩]⟩

/-- Fetched, uncommitted packets are withdrawn in fetch order, with their copied blocks (R100). -/
def State.withdraw (s : State) (n : Nat) : State :=
  let mine := s.flight.filter (fun f => decide (f.pk.fn = n) && !f.committed && decide (f.pk.ring < windowRing))
  let s := mine.foldl (fun (t : State) f => t.forget f.pk) s
  let s := { s with flight := s.flight.filter (fun f => !mine.contains f) }
  s.setInst n { s.inst n with items := (s.inst n).items ++ mine.map (fun f => ⟨f.op, f.pk, f.block⟩), withdrawn := mine.length }

/-- What INST_FREEZE adds to the shared validation. -/
def hooksInstFreeze (s : State) : Hooks :=
  { stateCheck := instCheck s [.outOfRange, .ok, .busy, .busy, .ok, .faulted] }

/-- The effect of INST_FREEZE once it is admitted. -/
def effInstFreeze (pk : Pkt) (p : List Byte) (t : State) : State :=
  let n := par p 16 1
  if (t.inst n).state = .frozen then t.complete pk .ok
  else
    let t := t.commit pk
    let t := t.setInst n { t.inst n with
      state := .freezing, freezeTime := t.now, everFrozen := true, restored := none, freezePk := some pk, freezeDetail := 0 }
    (t.breakSlips n .frozen 0).withdraw n

/-- INST_FREEZE (R81, R100): the instance enters FREEZING; FROZEN already, nothing changes. -/
def execInstFreeze (pk : Pkt) (s : State) : Host.Outcome State Fault Refusal :=
  .next (runPkt cmdInstFreeze pk s (hooksInstFreeze s) (effInstFreeze pk))

/-- FREEZE_COMPLETE (R89, R100): the last committed command has completed. The instance is FROZEN, or was destroyed or contained meanwhile; INST_FREEZE
replies; a reset that came during the freeze is applied. -/
def execFreezeComplete (inst : Nat) (s : State) : Host.Outcome State Fault Refusal := if s.clerkRuns = false then .next s else
  .next (match (s.inst inst).freezePk with
    | none => s
    | some pk =>
      if s.flight.any (fun f => decide (f.pk.fn = inst) && f.committed) then s
      else
        let x := s.inst inst
        let s := (s.setInst inst { x with state := if x.state = .freezing then .frozen else x.state, freezePk := none, freezeDetail := 0, flrPending := false })
        let s := s.complete pk .ok x.freezeDetail x.withdrawn ((s.now - x.freezeTime) / 1000)
        if x.flrPending ∧ x.state = .freezing then s.resetInst inst else s)

/-- INST_THAW (0x0106, R107). -/
def cmdInstThaw : Cmd := ⟨0x0106, .manager, 1, none, [⟨16, 1, .rng 1 64⟩, ⟨17, 7, .zero⟩]⟩

/-- What INST_THAW adds to the shared validation. -/
def hooksInstThaw (s : State) : Hooks :=
  { stateCheck := instCheck s frozenOnly }

/-- The effect of INST_THAW once it is admitted. -/
def effInstThaw (pk : Pkt) (p : List Byte) (t : State) : State :=
  let n := par p 16 1
  let x := t.inst n
  let lost := tabGet (fun _ => 0) t.coll.unitsLost n
  let t := (t.setInst n { x with state := .running, items := [], withdrawn := 0, restored := none }).flushHeld n
  let t := match x.restored with
    | some time => t.post n 0x8107 0 time t.now
    | none => t.fresh.2.post n 0x8107 0 (if x.everFrozen then x.freezeTime else x.createTime) t.fresh.1
  let t := if lost = 0 then t
    else ({ t with coll := { t.coll with unitsLost := tabSet (fun _ => 0) t.coll.unitsLost n 0 } }).post n 0x8604 0 lost 0
  let t := { t with flight := t.flight ++ x.items.map (fun (i : Item) => Flight.mk i.op i.pk i.block false false [] [] false) }
  t.complete pk .ok

/-- INST_THAW (R107, R330): held notices, EV_INST_THAWED, check-value units lost at a restore; then the pending items are in flight again, with their
copied blocks, for their rows to validate them. DATA1 is stated for a restored instance only. -/
def execInstThaw (pk : Pkt) (s : State) : Host.Outcome State Fault Refusal :=
  .next (runPkt cmdInstThaw pk s (hooksInstThaw s) (effInstThaw pk))

/-! ### Save and restore (R102 to R106) -/

/-- INST_SAVE (0x0104, Table 3.23). -/
def cmdInstSave : Cmd := ⟨0x0104, .manager, 3, none,
  [⟨16, 1, .rng 1 64⟩, ⟨17, 1, .mask 1⟩, ⟨18, 1, .rng 0 15⟩, ⟨19, 5, .zero⟩, ⟨24, 8, .mult 4096 0 0xFFFFFFFFFFFFFFFF⟩,
   ⟨32, 8, .mult 16 0 0xFFFFFFFFFFFFFFFF⟩]⟩

/-- Has a key slot a key? Slot 0 always has one (R366). -/
def State.hasKey (s : State) (k : Nat) : Bool := decide (k = 0) || decide (tabGet (fun _ => []) s.strg.keys k ≠ [])

/-- The first uncorrectable beat among the stored data of an instance's objects. -/
def State.badObject? (s : State) (n : Nat) : Option (Nat × Nat) :=
  (s.objectsOf n).findSome? (fun o => (s.badBeat? o.1 0 (65536 * o.2.granules)).map (fun b => (o.1, b)))

/-- What INST_SAVE adds to the shared validation. -/
def hooksInstSave (s : State) : Hooks :=
  { dyn := fun p => [(3, decide (par p 17 1 = 1) || decide (par p 18 1 = 0))]
    stateCheck := instCheck s frozenOnly
    pre := fun p => [⟨par p 17 1 = 0 ∨ s.hasKey (par p 18 1) = true, .notPermitted, 3⟩] }

/-- The effect of INST_SAVE once it is admitted. -/
def effInstSave (pk : Pkt) (p : List Byte) (t : State) : State :=
  let n := par p 16 1
  if t.linkUp pk.fn = false then t
  else
    let nonce := t.fresh.1 + 2 ^ 64 * (t.fresh.2.fresh.1 % 2 ^ 32)
    let img := t.imageOfInst n (par p 17 1 = 1) (par p 18 1) (if par p 17 1 = 1 then nonce else 0)
    if par p 32 8 < img.length then t.complete pk .outOfRange 6 img.length
    else match t.badObject? n with
      | some b =>
        let t := (t.emit (.undefinedBuffer pk.fn (par p 24 8) (par p 32 8))).postUe b.1 (32 * b.2)
        (t.complete pk .integrityFail 0).fault1 (t.ownerOf pk.fn) 1 (t.portOf pk.fn) 0x02 (((t.shelf b.1).obj.map (fun (o : Obj) => o.desc.handle)).getD 0) (32 * b.2)
      | none =>
        let t := if par p 17 1 = 1 then t.fresh.2.fresh.2 else t
        let t := (t.objectsOf n).foldl (fun (u : State) o => u.noteRead o.1 0 (65536 * o.2.granules)) t
        let t := { t with insts := { t.insts with saveSeq := img.saveSeq } }
        (t.emit (.image pk.fn (par p 24 8) img)).complete pk .ok 0 img.length img.saveSeq

/-- INST_SAVE (R102, Table 5.9): the image goes to the manager's host memory, with nothing changed but the count of saves; a link that is down is
waited for (R602). -/
def execInstSave (pk : Pkt) (s : State) : Host.Outcome State Fault Refusal :=
  .next (runPkt cmdInstSave pk s (hooksInstSave s) (effInstSave pk))

/-- INST_RESTORE (0x0105, R105). -/
def cmdInstRestore : Cmd := ⟨0x0105, .manager, 3, none,
  [⟨16, 1, .rng 1 64⟩, ⟨17, 7, .zero⟩, ⟨24, 8, .mult 4096 0 0xFFFFFFFFFFFFFFFF⟩, ⟨32, 8, .rng 112 0xFFFFFFFFFFFFFFFF⟩]⟩

/-- Each field of the use record within the grant (Table 3.26, step 7), with its number. -/
def useChecks (u g : Grant) : List Chk :=
  [⟨u.mem ≤ g.mem, .noResource, 7⟩, ⟨u.shelf ≤ g.shelf, .noResource, 8⟩, ⟨u.shader ≤ g.shader, .noResource, 9⟩, ⟨u.touch ≤ g.touch, .noResource, 10⟩,
   ⟨u.layers ≤ g.layers, .noResource, 11⟩, ⟨u.scalers ≤ g.scalers, .noResource, 12⟩, ⟨u.audio ≤ g.audio, .noResource, 13⟩,
   ⟨u.counters ≤ g.counters, .noResource, 14⟩, ⟨u.outOwn &&& g.outOwn = u.outOwn, .noResource, 15⟩,
   ⟨u.outLayer &&& g.outLayer = u.outLayer, .noResource, 16⟩, ⟨u.hap &&& g.hap = u.hap, .noResource, 17⟩]

/-- Table 3.26. -/
def restoreChecks (s : State) (n length : Nat) (img : Image) : List Chk :=
  let x := s.inst n
  [⟨(s.objectsOf n).isEmpty, .notPermitted, 1⟩, ⟨length = img.length, .outOfRange, 4⟩, ⟨img.magic = 0x49534743, .integrityFail, 3⟩,
   ⟨img.sourcePart = 0x0880 ∧ img.fmtMajor = 1 ∧ img.fmtMinor = 0 ∧ img.sectionVersions.all (fun v => decide (v = 1)) = true ∧
      img.damath / 65536 = s.fw.damath / 65536, .versionMismatch, 3⟩,
   ⟨img.digestOk && (!img.encrypted || s.hasKey img.keySlot), .integrityFail, 3⟩,
   ⟨img.shelfBase = x.shelfBase ∧ img.objects.all (fun d =>
      decide (x.shelfBase ≤ handleIndex d.1.handle) && decide (handleIndex d.1.handle < x.shelfBase + x.grant.shelf)) = true, .noResource, 6⟩] ++
  useChecks img.use x.grant ++
  [⟨img.objects.all (fun d => (decide (d.1.cls ≠ 1) || x.c1) && (!bit d.1.attr 1 || x.span)), .notPermitted, 0⟩]

/-- A restore that has committed replies once the timings it applies are in effect (R106). -/
def State.endRestore (s : State) : State :=
  match s.insts.restoring with
  | some (pk, ks) =>
    if ks.any (fun k => (s.outp k).change.isSome) then s
    else ({ s with insts := { s.insts with restoring := none } }).complete pk .ok
  | none => s

/-- What INST_RESTORE adds to the shared validation. -/
def hooksInstRestore (pk : Pkt) (image : Image) (s : State) : Hooks :=
  { stateCheck := instCheck s frozenOnly
    post := fun p => if s.linkUp pk.fn then restoreChecks s (par p 16 1) (par p 32 8) image else [] }

/-- The effect of INST_RESTORE once it is admitted. -/
def effInstRestore (pk : Pkt) (image : Image) (p : List Byte) (t : State) : State :=
  let n := par p 16 1
  if t.linkUp pk.fn = false then t
  else match State.loadObjects n image image.objects t with
    | none => t
    | some u =>
      let u := ((u.commit pk).loadRest n image)
      let r := u.loadTimings image.chapters
      ({ r.2 with insts := { r.2.insts with restoring := some (pk, r.1) } }).endRestore

/-- INST_RESTORE (R105, R106): the image is read and verified before the commit, at which the frozen, empty instance takes all it brings. Storage and a
link that is down are waited for; run again after its commit, its row replies once saved timings are in effect. -/
def execInstRestore (pk : Pkt) (image : Image) (s : State) : Host.Outcome State Fault Refusal :=
  .next (if s.insts.restoring.map Prod.fst = some pk then s.endRestore
  else runPkt cmdInstRestore pk s (hooksInstRestore pk image s) (effInstRestore pk image))

/-! ### Mailboxes (R95, R96) -/

/-- The mailbox status bit a writer's message sets, and who receives it: the instance writes I2M (bit 0), the manager M2I (bit 1). -/
def State.mboxBit (s : State) (w : Nat) : Nat := if s.writerOwner w = 0 then 1 else 0

/-- RING signals the mailbox of instance `fn`; while it is FULL the write is discarded and ERR set; for an ABSENT instance it is
discarded and counted (R96). -/
def State.ringMbox (s : State) (writer fn : Nat) : State :=
  s.gated writer (CLRK_DB_MBOX fn) (fun t =>
    let b := t.mboxBit writer
    if ¬ isInst fn ∨ (b = 0 ∧ writer ≠ fn) then t
    else if (t.inst fn).state = .absent then t.badWrite writer (CLRK_DB_MBOX fn)
    else if bit (t.reg (CLRK_MBOX_STATUS fn)) b then t.setF (CLRK_MBOX_STATUS fn) CLRK_MBOX_STATUS_ERR 1
    else
      let t := t.setBit (CLRK_MBOX_STATUS fn) b true
      let to_ := if b = 0 then t.mgrFn else fn
      if t.linkUp to_ then t.emit (.msix to_ 1) else t)

/-- DOORBELL_MBOX (R96). -/
def execDoorbellMbox (writer fn : Nat) (s : State) : Host.Outcome State Fault Refusal := .next (s.ringMbox writer fn)

/-- The receiver clears FULL (bit `b`) and the sender is told; when the sender is the manager, DETAIL holds the instance (R96). -/
def State.clearFull (t : State) (fn b : Nat) : State :=
  if bit (t.reg (CLRK_MBOX_STATUS fn)) b then
    let t := t.setBit (CLRK_MBOX_STATUS fn) b false
    if b = 0 then t.post fn 0x8104 0 0 0 else t.postMgr 0x8104 fn 0 0
  else t

/-- MBOX_FULL_CLEAR (R96). -/
def execMboxFullClear (writer fn : Nat) (s : State) : Host.Outcome State Fault Refusal :=
  .next (s.gated writer (CLRK_MBOX_STATUS fn) (fun t =>
    let b := 1 - t.mboxBit writer
    if ¬ isInst fn ∨ (b = 1 ∧ writer ≠ fn) then t
    else if (t.inst fn).state = .absent then t.badWrite writer (CLRK_MBOX_STATUS fn)
    else t.clearFull fn b))

/-! ### The manager, its loss and the takeover (R97 to R99) -/

/-- LOSS follows the conditions; when it rises the standby is told (R98). -/
def State.settleLoss (s : State) : State :=
  let lost := s.insts.lossLink || s.insts.lossBeat || s.insts.handover
  if lost then
    if s.getF INST_MGR_STATUS INST_MGR_STATUS_LOSS = 1 then s
    else (s.setF INST_MGR_STATUS INST_MGR_STATUS_LOSS 1).post s.standbyFn 0x8105 0 0 0
  else s.setF INST_MGR_STATUS INST_MGR_STATUS_LOSS 0

/-- The heartbeat period starts anew. -/
def State.restartBeat (s : State) : State := { s with insts := { s.insts with beatAt := s.now, lossBeat := false } }

/-- A write to INST_MGR_CTRL (Table 3.20): above 10,000 ms it is discarded and counted; a change of HB_PERIOD or BEAT restarts the period; HANDOVER
declares the manager lost. -/
def State.writeMgrCtrl (s : State) (w v : Nat) : State :=
  s.regWrite w INST_MGR_CTRL 0 v (fun t =>
    let hb := bits v 15 0
    if 10000 < hb then t.badWrite w INST_MGR_CTRL
    else
      let t := if bit v 31 ∨ hb ≠ t.getF INST_MGR_CTRL INST_MGR_CTRL_HB_PERIOD then t.restartBeat else t
      let t := (t.setF INST_MGR_CTRL INST_MGR_CTRL_HB_PERIOD hb).setF INST_MGR_CTRL INST_MGR_CTRL_ARM (bits v 16 16)
      let t := if bit v 30 then { t with insts := { t.insts with handover := true } } else t
      t.settleLoss)

/-- INST_MGR_CTRL with ARM and HB_PERIOD as they stand. -/
def State.mgrCtrl (s : State) : Nat := s.reg INST_MGR_CTRL % 2 ^ 17

/-- MGR_BEAT (R98). -/
def execMgrBeat (writer : Nat) (s : State) : Host.Outcome State Fault Refusal := .next (s.writeMgrCtrl writer (s.mgrCtrl + 2 ^ 31))

/-- MGR_HANDOVER (R98). -/
def execMgrHandover (writer : Nat) (s : State) : Host.Outcome State Fault Refusal := .next (s.writeMgrCtrl writer (s.mgrCtrl + 2 ^ 30))

/-- MGR_HB_PERIOD_WRITE (R98). -/
def execMgrHbPeriodWrite (writer period : Nat) (s : State) : Host.Outcome State Fault Refusal :=
  .next (s.writeMgrCtrl writer (setBits s.mgrCtrl 15 0 period))

/-- MANAGER_LOSS (R98): the manager's link has been down for 100 ms, or the heartbeat period has passed. -/
def execManagerLoss (byLink : Bool) (s : State) : Host.Outcome State Fault Refusal :=
  .next (if byLink then
      if s.linkUp s.mgrFn then s else ({ s with insts := { s.insts with lossLink := true } }).settleLoss
    else if s.getF INST_MGR_CTRL INST_MGR_CTRL_HB_PERIOD = 0 then s
    else ({ s with insts := { s.insts with lossBeat := true } }).settleLoss)

/-- MANAGER_LOSS_CLEARED (R98): the link is up again, the heartbeat off or restarted; LOSS falls once no condition holds. -/
def execManagerLossCleared (s : State) : Host.Outcome State Fault Refusal :=
  .next (({ s with insts := { s.insts with
    lossLink := s.insts.lossLink && !s.linkUp s.mgrFn
    lossBeat := s.insts.lossBeat && decide (s.getF INST_MGR_CTRL INST_MGR_CTRL_HB_PERIOD ≠ 0) } }).settleLoss)

/-- STANDBY_UP shows the standby's link. -/
def State.showStandby (s : State) : State := s.setF INST_MGR_STATUS INST_MGR_STATUS_STANDBY_UP (b2n (s.linkUp s.standbyFn))

/-- INST_TAKEOVER (0x0108). -/
def cmdInstTakeover : Cmd := ⟨0x0108, .standby, 0, none, []⟩

/-- The rings of the former manager are disabled (R99). -/
def State.disableRings (s : State) (fn : Nat) : State :=
  ((List.range 3).foldl (fun (t : State) p => t.setF (CLRK_SQ_CTRL fn p) CLRK_SQ_CTRL_EN 0) s).setF (CLRK_CQ_CTRL fn) CLRK_CQ_CTRL_EN 0

/-- What INST_TAKEOVER adds to the shared validation. -/
def hooksInstTakeover (s : State) : Hooks :=
  { pre := fun _ => [⟨s.insts.takeover.isNone, .busy, 0⟩,
      ⟨s.getF INST_MGR_CTRL INST_MGR_CTRL_ARM = 1 ∧ s.getF INST_MGR_STATUS INST_MGR_STATUS_LOSS = 1, .notPermitted, 0⟩] }

/-- The effect of INST_TAKEOVER once it is admitted. -/
def effInstTakeover (pk : Pkt) (_p : List Byte) (t : State) : State :=
  if t.fw.switch.isSome then t else
  let former := t.mgrFn
  let t := (t.commit pk).breakSlips 0 .aborted 0
  let t := (t.endAll (fun f => decide (f.pk.fn = former)) .aborted 0).disableRings former
  let t := t.setF INST_MGR_STATUS INST_MGR_STATUS_ROLE (1 - t.getF INST_MGR_STATUS INST_MGR_STATUS_ROLE)
  let t := t.setReg INST_MGR_CTRL (2 ^ 16)
  let t := ({ t with insts := { t.insts with
    lossLink := false, lossBeat := false, handover := false, beatAt := t.now, takeover := some pk } }).settleLoss.showStandby
  let t := (t.capChangedFn t.mgrFn).capChangedFn former
  let role := t.getF INST_MGR_STATUS INST_MGR_STATUS_ROLE
  (t.mgrFn :: t.liveInsts).foldl (fun (u : State) f => u.post f 0x8106 0 role 0) t

/-- INST_TAKEOVER (R99): at commit the roles change, the former manager's slips break, its packets end and its rings are disabled; everyone is told. It waits for
the end of a FW_SWITCH (R573). -/
def execInstTakeover (pk : Pkt) (s : State) : Host.Outcome State Fault Refusal :=
  .next (runPkt cmdInstTakeover pk s (hooksInstTakeover s) (effInstTakeover pk))

/-- TAKEOVER_COMPLETE (R99): the takeover is done, class 0x01 commands run again, and it replies. -/
def execTakeoverComplete (s : State) : Host.Outcome State Fault Refusal :=
  .next (match s.insts.takeover with
    | some pk => ({ s with insts := { s.insts with takeover := none } }).complete pk .ok
    | none => s)

end Sys2Proof.Machine
end

