-- ==== Sys2Proof/Machine/Errors.lean ====
section
/-! DEFINITION. Faults and what they lead to (R513 to R532): records that arrive at the collector, unit resets (Table 19.5), grants cut off, the clocks,
the Clerk's exceptions and restarts, the monitors, the safe state and the recovery reset. -/

namespace Sys2Proof.Machine

/-! ### Unit resets (R518, R523) -/

/-- A command that a fault ends (R223, R520): committed work leaves its objects undefined; any other ends as it stands. -/
def State.endCommand (s : State) (src : Option Pkt) (detail : Nat) : State :=
  match src with
  | none => s
  | some pk =>
    if (s.work? pk).any Work.committed then s.failWork pk detail
    else if (s.flightOf pk).isSome then s.endPkt pk .faulted detail
    else s

/-- A record's fault raised to T3 (R530): the journal's record shows it, and the safe state is asked for. -/
def State.raiseT3 (s : State) (subsys unit code : Nat) : State :=
  let s := s.count (HOST_ERR_T_COUNT 3)
  let s := if s.err.trigger = none then { s with err := { s.err with trigger := some code } } else s
  match s.err.slots.find? (fun (p : Nat × ErrRec) => p.2.subsys = subsys ∧ p.2.unit = unit ∧ p.2.code = code ∧ ¬ p.2.acked) with
  | some (k, r) =>
    let r' := { r with tier := 3, escalated := true, last := s.now }
    ((s.setRec k r').ledgAppend 0x06 r'.bytes).tellError k r'
  | none => s

/-- What a command whose host DMA was cut off leaves in its host buffer (Table 19.5, R119). -/
def State.spoilBuffer (s : State) (pk : Pkt) : State :=
  match s.flightOf pk with
  | some f => if f.op = 0x0205 then s.emit (.undefinedBuffer pk.fn (par (if usesBlock pk then f.block else pk.params) 40 8)
      (par (if usesBlock pk then f.block else pk.params) 32 8)) else s
  | none => s

/-- A unit is reset (Table 19.5): `cut` after a CUTOFF, `beyond` when its T2 faults cross the limit; `src` is the command it worked for. -/
def State.unitReset (s : State) (subsys unit : Nat) (cut beyond : Bool) (src : Option Pkt) : State :=
  if subsys = 8 then (if beyond ∧ unit < 8 then s.restartOutput unit else s)
  else if subsys = 7 then (if beyond ∧ unit < 8 then s.setPipe unit { s.pipe unit with resetFrame := true } else s)
  else if !(cut || beyond) then s
  else if subsys = 5 then s.endCommand src 3
  else if subsys = 4 then s.cancelMoves (fun _ => true) 5
  else if subsys = 1 then
    (match src with
     | some pk => (s.spoilBuffer pk).endCommand src 5
     | none => s)
  else if subsys = 12 then (if unit < 4 then s.downLink unit 1 else s)
  else s

/-- A T2 record and the reset it may trigger (R518, R523). -/
def State.fault2 (s : State) (subsys unit code inst info0 info1 : Nat) (cut : Bool) (src : Option Pkt) : State :=
  let beyond := s.crossesLimit subsys unit
  ((s.record subsys unit 2 code inst info0 info1).state).unitReset subsys unit cut beyond src

/-- ERROR_RECORD (R513 to R520, R523): a fault of Table 19.3 that no other command of the model raises arrives at the collector; `src` is the command
it strikes. A T1 fault ends that command with FAULTED and contains its bearer; the manager's contains nothing. -/
def execErrorRecord (subsys unit tier code inst info0 info1 : Nat) (src : Option Pkt) (s : State) : Host.Outcome State Fault Refusal :=
  .next (if subsys = 0 ∨ 21 < subsys ∨ 1023 < unit ∨ 3 < tier ∨ ¬ (inst ≤ 64 ∨ inst = 0xFF) then s
  else if tier = 1 then (s.endCommand src 0).fault1 inst subsys unit code info0 info1
  else if tier = 2 then s.fault2 subsys unit code inst info0 info1 (decide (code = 0x04)) src
  else (s.record subsys unit tier code inst info0 info1).state)

/-! ### Grants cut off (R190, R191) -/

/-- A layer whose fetch was cut off counts as not ready for the frame (R28, Table 19.5); in the safe state it is hidden for good (R525). -/
def State.layerCut (s : State) (k index : Nat) : State :=
  ((s.pipe k).scene.layers.filter (fun (q : SceneLayer) => decide (handleIndex q.handle = index))).foldl (fun (t : State) q =>
    if t.safe then t.hideLayer q
    else
      let frame := (t.pipe k).scene.frame
      let pol := latePolicy q.set q.pose
      let t := (t.showNow q.key pol).countLate q.key frame pol q.set true
      if q.set.cls = 1 then t.markLate (t.latchOf k) q.key else t) s

/-- ESC_CUTOFF (R190, R191, R523): a grant has been held beyond HOLD_LIMIT; `index` is the object of the beat, `src` the command the request worked
for. -/
def execEscCutoff (port target urg cls index : Nat) (src : Option Pkt) (s : State) : Host.Outcome State Fault Refusal :=
  .next (if 47 ≤ port ∨ 32 ≤ target then s
  else
    let s := (if port < 32 then s.setBit ESC_PORT_FLAG_LO port true else s.setBit ESC_PORT_FLAG_HI (port - 32) true).count ESC_CUTOFF_COUNT
    let word := urg % 8 + 256 * (cls % 4)
    let s := s.postMgr 0x8220 port target word
    let u := portUnit port
    let s := if u.1 = 7 ∧ u.2 < 8 then s.layerCut u.2 index else s
    s.fault2 u.1 u.2 0x04 0xFF target word true src)

/-! ### Clocks and the die-to-die link (R23, R454, R462, R530) -/

/-- The domain of a PLL (Table 16.7). -/
def pllDomain (p : Nat) : Nat := if p = 0 then 1 else if p < 4 then 4 else if p < 6 then 21 else if p < 10 then 16 else 17

/-- PLL_LOCK_LOSS (R462, R523, R530): a PLL lost lock while its domain is up and the reference runs, and `failed` attempts to relock have failed: below
four it has relocked; at four its record is raised to T3. -/
def execPllLockLoss (pll failed : Nat) (s : State) : Host.Outcome State Fault Refusal :=
  .next (if 14 ≤ pll ∨ ¬ s.domainUp (pllDomain pll) ∨ s.getF PCU_CLK_STATUS PCU_CLK_STATUS_REF_OK = 0 ∨
      ¬ (s.getF PCU_CLK_STATUS PCU_CLK_STATUS_PLL_LOCK).testBit pll then s
  else
    let s := (s.record 21 (pllDomain pll) 2 0x09 0xFF pll (min 4 (failed + 1))).state
    if failed < 4 then s else (s.setBit PCU_CLK_STATUS pll false).raiseT3 21 (pllDomain pll) 0x09)

/-- REFCLK_STOP (R454): the 38.4 MHz reference stops while ACTIVE; the PLLs hold over. -/
def execRefclkStop (s : State) : Host.Outcome State Fault Refusal :=
  .next (if s.getF PCU_STATE PCU_STATE_STATE ≠ 3 ∨ s.getF PCU_CLK_STATUS PCU_CLK_STATUS_REF_OK = 0 then s
  else
    let locks := s.getF PCU_CLK_STATUS PCU_CLK_STATUS_PLL_LOCK
    let s := (s.setF PCU_CLK_STATUS PCU_CLK_STATUS_REF_OK 0).setF PCU_EVENTS PCU_EVENTS_REFCLK_FAIL 1
    ((s.postMgr 0x8A03 0 0 0).record 21 0 3 0x0F 0xFF locks 0).state)

/-- REFCLK_HOLDOVER_END (R454, R526): 10 ms after the reference stopped the PLLs stop, and with them the outputs and the chimes. -/
def execRefclkHoldoverEnd (s : State) : Host.Outcome State Fault Refusal :=
  .next (if s.getF PCU_STATE PCU_STATE_STATE ≠ 3 ∨ s.getF PCU_CLK_STATUS PCU_CLK_STATUS_REF_OK = 1 then s
  else ((((s.dropOutputs 0).dropOutputs 4).setVoices [] []).setF PCU_CLK_STATUS PCU_CLK_STATUS_PLL_LOCK 0))

/-- D2D_LINK_RETRAIN (R23, R530): a transfer for the register at `offset` of the mixed-signal die needed more than 16 resends; the link retrains. Where it
has failed twice the record is raised to T3. -/
def execD2dLinkRetrain (resends offset : Nat) (failedTwice : Bool) (s : State) : Host.Outcome State Fault Refusal :=
  .next (if resends ≤ 16 then s
  else
    let s := ((s.count PCU_D2D_CRC_COUNT resends).count PCU_D2D_REPLAY_COUNT resends)
    let s := (s.record 20 0 2 0x0A 0xFF resends offset).state
    if failedTwice then s.raiseT3 20 0 0x0A else s)

/-! ### The monitors (R530) -/

/-- The window of a monitored rail in mV (Table 22.4); that of VDD_CORE lies around the voltage requested. -/
def railWindow (rail request : Nat) : Option (Nat × Nat) :=
  if rail = 1 then some (request - 50, request + 50)
  else if rail = 2 ∨ rail = 6 then some (700, 800)
  else if rail = 3 then some (450, 550)
  else if rail = 4 then some (980, 1130)
  else if rail = 5 then some (850, 950)
  else if rail = 7 then some (1130, 1270)
  else none

/-- SUPPLY_MONITOR_TRIP (R530, R581): a main rail has been outside its window for 10 µs. -/
def execSupplyMonitorTrip (rail mv request : Nat) (s : State) : Host.Outcome State Fault Refusal :=
  .next (match railWindow rail request with
    | some w => if w.1 ≤ mv ∧ mv ≤ w.2 then s else (s.record 21 0 3 0x10 0xFF rail mv).state
    | none => s)

/-- The temperature in 0.25 °C above which the THERMAL record is made (Table 22.6). -/
def thermalLimit : Int := if Config.gradeE then 520 else 460

/-- THERMAL_TRIP (R530, R586, R587): the sensors of domains that are up take their readings, in 0.25 °C; the hottest is recorded if it is above the
limit. -/
def execThermalTrip (temps : List Int) (s : State) : Host.Outcome State Fault Refusal :=
  let s := ((List.range 9).foldl (fun (t : State) n =>
    match temps[n]? with
    | some v => if (sensorDomains n).any t.domainUp then t.setReg (PCU_TJ n) (2 ^ 31 + (v % 4096).toNat) else t
    | none => t) s).noteTemps
  let hot := signed 12 (s.getF PCU_TJ_HOT PCU_TJ_HOT_TEMP)
  let n := s.getF PCU_TJ_HOT PCU_TJ_HOT_SENSOR
  .next (if s.getF PCU_TJ_HOT PCU_TJ_HOT_VALID = 1 ∧ thermalLimit < hot then (s.record 21 n 3 0x11 0xFF (hot / 4 % 2 ^ 64).toNat n).state else s)

/-- STRG_WATCHDOG_EXPIRY (R530, R554, R571): 100 ms without service, while the Strongroom core is neither halted nor switching its firmware. -/
def execStrgWatchdogExpiry (s : State) : Host.Outcome State Fault Refusal :=
  .next (if s.dbg.strgHalted ∨ s.safe ∨ s.getF STRG_STATUS STRG_STATUS_RUN = 2 then s else ((s.record 21 0 3 0x12 0xFF (s.getF STRG_STATUS STRG_STATUS_RUN) 0).state).setF STRG_STATUS STRG_STATUS_RUN 3)

/-! ### The Clerk (R521, R522) -/

/-- The Registrar's policy half runs, or not (R125). -/
def State.setPolicy (s : State) (up : Bool) : State :=
  let s := s.setF REGR_STATUS REGR_STATUS_POLICY_UP (b2n up)
  if up then s else { s with shm := { s.shm with policyRun := false } }

/-- The whole Clerk restarts, or, on the second restart within 10 s, is left halted (R522): packets that have not committed complete first. -/
def State.restartClerk (s : State) (core cause : Nat) (fourth : Bool) : State :=
  let second := s.err.restarts.any (fun (t : Nat) => decide (s.now < t + 10 ^ 10))
  let s := s.endAll (fun f => decide (f.pk.ring ≠ windowRing)) .faulted 2
  let s := { s with err := { s.err with restarts := [s.now], coreFaults := [], coresDown := [], restarting := !second } }
  let s := (if second then s.setF HOST_ERR_STATUS HOST_ERR_STATUS_CLRK_DOWN 1 else s).setPolicy false
  (s.record 3 core 2 0x0C 0xFF cause core fourth).state

/-- A Clerk core's exception (R521, R522): the fourth within 1 s restarts the whole Clerk; before that the core alone is reset, and the packets it held
that have not committed end. -/
def State.coreException (s : State) (core cause : Nat) (held : List Pkt) : State :=
  let s := (s.record 3 core 2 0x0B 0xFF cause core).state
  let recent := s.now :: s.err.coreFaults.filter (fun (t : Nat) => decide (s.now < t + 10 ^ 9))
  if 4 ≤ recent.length then s.restartClerk core cause true
  else
    let s := { s with err := { s.err with coreFaults := recent, coresDown := core :: s.err.coresDown.filter (fun c => decide (c ≠ core)) } }
    s.endAll (fun f => held.contains f.pk) .faulted 1

/-- CLERK_CORE_EXCEPTION (R521): outside the error handler; `held` are the packets the core had fetched. -/
def execClerkCoreException (core cause : Nat) (held : List Pkt) (s : State) : Host.Outcome State Fault Refusal :=
  .next (if 4 ≤ core ∨ s.clerkRuns = false then s else s.coreException core cause held)

/-- CLERK_RESTART (R522): a fault inside the error handler of a core, or its exception that is the fourth within 1 s. -/
def execClerkRestart (core cause : Nat) (fourth : Bool) (s : State) : Host.Outcome State Fault Refusal :=
  .next (if 4 ≤ core ∨ s.clerkRuns = false then s
  else if fourth then
    (if (s.err.coreFaults.filter (fun (t : Nat) => decide (s.now < t + 10 ^ 9))).length < 3 then s else s.coreException core cause [])
  else s.restartClerk core cause false)

/-- CLERK_RESTART_COMPLETE (R521, R522): Damath runs again on a core, or on the whole Clerk, which then writes what was held. -/
def execClerkRestartComplete (core : Option Nat) (s : State) : Host.Outcome State Fault Refusal :=
  .next (match core with
    | some c => { s with err := { s.err with coresDown := s.err.coresDown.filter (fun d => decide (d ≠ c)) } }
    | none =>
      if ¬ s.err.restarting then s
      else
        let s := ({ s with err := { s.err with restarting := false } }).setPolicy true
        (s.fns.map Prod.fst).foldl (fun (t : State) f => t.flushHeld f) s)

/-! ### The journal's acknowledgements (R516, Table 19.10) -/

/-- Records whose SEQ satisfies `p` are acknowledged. -/
def State.ackRecords (s : State) (p : Nat → Bool) : State :=
  { s with err := { s.err with slots := s.err.slots.map (fun (x : Nat × ErrRec) => (x.1, if p x.2.seq then { x.2 with acked := true } else x.2)) } }

/-- ERROR_ACK (R516). -/
def execErrorAck (writer seq : Nat) (s : State) : Host.Outcome State Fault Refusal :=
  .next (s.regWrite writer HOST_ERR_ACK 0 (seq % 2 ^ 16) (fun t => t.ackRecords (fun q => decide (q = seq % 2 ^ 16))))

/-- ERROR_ACK_ALL (R516). -/
def execErrorAckAll (writer : Nat) (s : State) : Host.Outcome State Fault Refusal :=
  .next (s.regWrite writer HOST_ERR_ACK 0 (2 ^ 31) (fun t => t.ackRecords (fun _ => true)))

/-! ### The safe state (R524 to R527) -/

/-- How the safe state shows a layer of a scene (R525): as REPEAT; what was poisoned, cut off or underrun stays hidden. -/
def State.safeShown (s : State) (q : SceneLayer) : SceneLayer :=
  let x := s.layer q.key
  { q with shown := if x.poison ∨ (q.shown = 3 ∧ ¬ (x.late ∧ x.policy = 3)) then 3 else 1 }

/-- The frames being composed and latched go on as the safe state shows them, the cores no longer restart, and SAFE is set (Table 19.6 steps 1 and 2). -/
def State.setSafe (s : State) : State :=
  let scene := fun (c : Scene) => { c with layers := c.layers.map s.safeShown }
  { s with
    bnd := { s.bnd with pipes := s.bnd.pipes.map (fun (p : Nat × Pipe) => (p.1, { p.2 with scene := scene p.2.scene, next := p.2.next.map scene })) }
    err := { s.err with restarting := false, coresDown := [], safe := true } }

/-- The safe chime of the binding table starts, if it has one. -/
def State.startSafeChime (s : State) : State :=
  if s.binding.chimes.any (fun c => decide (c.1 = s.binding.safeChime)) then s.chimeStart ⟨s.binding.safeChime, true, 3⟩ else s

/-- What the entry stops and shows (Table 19.6 steps 2 to 4): links down, audio ramping, the alert asserted, haptics braked, touch scans ended. -/
def State.enterSafe (s : State) (code : Nat) : State :=
  let s := ((s.setSafe.setF HOST_ERR_STATUS HOST_ERR_STATUS_TRIGGER code).setPolicy false).downAllLinks
  let s := ((s.setF AUD_STATUS AUD_STATUS_SAFE 1).setAlert 16 true).startSafeChime
  let s := (List.range 8).foldl (fun (t : State) c => (t.brakePassively c).endPending c .aborted 0) s
  (List.range 4).foldl (fun (t : State) n => t.setTctl n { t.tctl n with scanning := false }) s

/-- The trigger of a T3 record is taken. -/
def State.takeTrigger (s : State) : State := { s with err := { s.err with trigger := none } }

/-- SAFE_STATE_ENTRY (R524, R525, R433): the trigger that waits takes the device into the safe state; a further one changes nothing. The T3 record, its
MSI-X and the Ledger's record were made as it arrived; the telltales follow at the next latch. -/
def execSafeStateEntry (s : State) : Host.Outcome State Fault Refusal :=
  .next (match s.err.trigger with
    | none => s
    | some code => if s.safe then s.takeTrigger else s.takeTrigger.enterSafe code)

/-! ### Recovery (R528) -/

/-- A recovery reset: every domain but AO goes off as on entry to HAIRSPRING, and the device wakes under R458. -/
def State.recoveryReset (s : State) : State :=
  let src := s.getF PCU_STATE PCU_STATE_WAKE_SRC
  ((s.loseMain.atState 1).beginWake 2).setF PCU_STATE PCU_STATE_WAKE_SRC src

/-- A write to HOST_SAFE_CTRL: 0x5AFE requests the reset, any other value is discarded and counted (Table 19.12). The manager and the standby manager may
write it (R97). -/
def State.writeSafeCtrl (s : State) (w v : Nat) : State :=
  s.gated w HOST_SAFE_CTRL (fun t =>
    if ¬ (t.writerOwner w = 0 ∨ w = t.standbyFn) then t
    else if v = 0x5AFE then t.recoveryReset else t.badWrite w HOST_SAFE_CTRL)

/-- RECOVERY_RESET (R528). -/
def execRecoveryReset (writer key : Nat) (s : State) : Host.Outcome State Fault Refusal := .next (s.writeSafeCtrl writer key)

end Sys2Proof.Machine
end

