-- ==== Sys2Proof/Machine/Boot.lean ====
section
/-! DEFINITION. Power-on reset and loss of VSAVE (R439, R473, R475, R481), the choice of a slot and the boot (R558 to R566), and the passage of time
while nothing is commanded. -/

namespace Sys2Proof.Machine

/-! ### OFF and power-on reset -/

/-- The payload of the newest valid record of a kind that satisfies `p`. -/
def State.newest (s : State) (typ : Nat) (p : LedgRec → Bool) : Option LedgRec :=
  (s.ledg.live.filter (fun r => r.valid && decide (r.typ = typ) && p r)).getLast?

/-- A number in a payload. -/
def LedgRec.num (r : LedgRec) (off size : Nat) : Nat := leNat (slice r.payload off size)

/-- The lifetime totals of the newest WEAR_MAP of each output, and the accumulators of a WEAR_ACC written after it. -/
def State.wearFrom (s : State) (typ size : Nat) (p : Nat → LedgRec → Bool) : Tab Nat :=
  (List.range 8).foldl (fun (m : Tab Nat) k =>
    match s.newest typ (fun r => decide (r.num 0 1 = k) && p k r) with
    | some r => (List.range 2304).foldl (fun (m : Tab Nat) z => tabSet (fun _ => 0) m (2304 * k + z) (r.num (8 + size * z) size)) m
    | none => m) []

/-- The calendar offset after a cold boot (R481): one second beyond the valid record with the highest SEQ. -/
def State.coldOffset (s : State) : Int :=
  match sortBy LedgRec.seq ((s.ledg.live ++ s.ledg.history).filter LedgRec.valid) |>.getLast? with
  | some r => ((r.cal : Int) + 1) * 10 ^ 9
  | none => 0

/-- What the Ledger's controller knows after the AO domain has been without power: what its MRAM holds. -/
def State.coldLedger (s : State) : LedgState :=
  let c := s.newest 0x01 (fun _ => true)
  let n := fun (off size : Nat) => (c.map (fun r => r.num off size)).getD 0
  { live := s.ledg.live, history := s.ledg.history, nextSeq := s.ledg.nextSeq, liveWritten := s.ledg.liveWritten, liveUsed := s.ledg.liveUsed,
    historyUsed := s.ledg.historyUsed, offset := s.coldOffset, powerS := n 0 8, activeNs := n 8 8 * 10 ^ 9, coldBoots := n 16 4, saves := n 20 4,
    unsaved := n 24 4, brownouts := n 28 4, wakeFails := n 32 4, thermal := (List.range 17).map (fun i => n (36 + 4 * i) 4),
    wearTotal := s.wearFrom 0x02 8 (fun _ _ => true)
    wearBuf := s.wearFrom 0x03 4 (fun k r => (s.newest 0x02 (fun q => decide (q.num 0 1 = k))).all (fun q => decide (q.seq < r.seq)))
    closed := s.ledg.closed, pwrFail := false, events := [] }

/-- The AO domain has lost its power (Table 16.1): what stays is the Ledger's memory, the flash, the OTP counters and what lies outside the device. -/
def State.coldLoss (s : State) (off : Bool) : State :=
  let r : State := { State.reset with
    pending := s.pending, freeCount := s.freeCount, out := s.out, ledg := s.coldLedger
    mem := { installedMib := s.mem.installedMib }
    fw := { slotA := s.fw.slotA, slotB := s.fw.slotB, otpStrg := s.fw.otpStrg, otpDamath := s.fw.otpDamath, cold := true, prevClosed := s.ledg.closed }
    pwr := { off := off } }
  (r.setReg LEDG_SEQ s.ledg.nextSeq).setReg LEDG_LIVE_PASS (s.ledg.liveWritten / 0x200000) |>.setReg LEDG_LAST_SAVE (s.reg LEDG_LAST_SAVE)

/-- POWER_ON_RESET (R439, R440): the AO domain starts from the start; PWR_AUTO high is a wake command. -/
def execPowerOnReset (pwrAuto : Bool) (s : State) : Host.Outcome State Fault Refusal :=
  let s := s.coldLoss false
  .next (if pwrAuto then s.beginWake 5 else s)

/-- VSAVE_EXHAUSTED (R473): VSAVE is empty and the device is OFF. -/
def execVsaveExhausted (s : State) : Host.Outcome State Fault Refusal :=
  .next (if s.ledg.pwrFail then s.coldLoss true else s)

/-! ### Choosing a slot (R560) -/

/-- Does the boot ROM accept a slot? -/
def State.accepts (s : State) (x : FwSlot) : Bool :=
  !bit x.bad 0 && !bit x.bad 4 && decide (s.fw.otpStrg ≤ x.strgRollback) && decide (s.fw.otpDamath ≤ x.damathRollback)

/-- The slots to try: accepted ones, the higher SLOT_SEQ first. -/
def State.slotsToTry (s : State) : List (Nat × FwSlot) :=
  let a := (s.fw.slotA.filter s.accepts).toList.map (fun x => (0, x))
  let b := (s.fw.slotB.filter s.accepts).toList.map (fun x => (1, x))
  match s.fw.slotA, s.fw.slotB with
  | some x, some y => if x.seq < y.seq then b ++ a else a ++ b
  | _, _ => a ++ b

/-- Does every entry of the slot pass its check? -/
def slotGood (x : FwSlot) : Bool := !bit x.bad 1 && !bit x.bad 2 && !bit x.bad 3

/-- The slot the boot ends with and whether it fell back: the first, or the other once if the first fails. -/
def chooseSlot : List (Nat × FwSlot) → Option (Nat × FwSlot × Bool)
  | [] => none
  | [x] => some (x.1, x.2, false)
  | x :: y :: _ => if slotGood x.2 then some (x.1, x.2, false) else some (y.1, y.2, true)

/-! ### The binding table (R348, R349) -/

/-- The telltales at the start of a boot: defined ones show their FAIL_STATE (R360). -/
def State.startTelltales (s : State) : State :=
  s.binding.sprites.foldl (fun (t : State) (p : Nat × Sprite) =>
    t.setReg (STRG_TT_STATE p.1) (2 ^ 31 + 2 ^ 30 + p.2.controller % 128 * 2 ^ 8 + p.2.failState % 256)) s

/-- The expected values the safe state will use (R526). -/
def State.startSafeValues (s : State) : State :=
  (maskList 8 s.binding.c0Outputs).foldl (fun (t : State) k =>
    let v := t.c0Expected (t.spritesOn k 0 (fun n => ((t.sprite? n).map Sprite.failState).getD 0) true)
    { t with strg := { t.strg with safeExp := tabSet (fun _ => (0, 0)) t.strg.safeExp k v } }) s

/-- The secure sinks (R420, R432). -/
def State.startSinks (s : State) : State :=
  s.binding.sinks.foldl (fun (t : State) (x : Nat × BoundSink) =>
    let c : AudEpCfg := ⟨127, 1, 1, x.2.port, x.2.first, x.2.channels, 0, 0, 0, 0, 0, 0, x.2.limit, x.2.release, x.2.access⟩
    { t with aud := { t.aud with eps := tabSet (fun _ => {}) t.aud.eps (32 + x.1) { cfg := some c } } }) s

/-- The binding table is in effect. -/
def State.setBinding (s : State) (b : Binding) : State := { s with strg := { s.strg with bind := some b } }

/-- The binding table is applied and locked (R348, R349), and each output it gives a timing starts (R565). -/
def State.applyBinding (s : State) (b : Binding) : State :=
  let s := (s.setBinding b).setF STRG_STATUS STRG_STATUS_BIND_LOCKED 1
  let s := (s.setReg STRG_BOUND (b.boundTch % 16 + b.boundHap % 256 * 2 ^ 4 + b.boundTdm % 256 * 2 ^ 12)).setReg STRG_BOUND_CVU b.boundCvu
  let s := s.setReg STRG_WAYPART (b.l2Ways % 16 * 2 ^ 8 + b.l1Ways % 16)
  let s := s.setReg MEM_CARREL_LOCK (b.banks % 65536 * 65537)
  let s := (List.range 8).foldl (fun (t : State) k => t.setF (BND_C0 k) BND_C0_C0_EN (b2n (b.c0Outputs.testBit k))) s
  let s := (((s.startTelltales).startSafeValues).startSinks).strgVote
  let s := (List.range 8).foldl (fun (t : State) k => t.writeExpected k) s
  b.timings.foldl (fun (t : State) (x : Nat × List Byte) =>
    if x.1 < 8 then t.setOutp x.1 { t.outp x.1 with change := some ⟨none, timingOf x.2, 2, false, 0, false⟩ } else t) s

/-! ### The boot (R561, R563 to R566) -/

/-- The cold boot's records (R475, R481, R560): SESSION, the unsaved loss of the session before, the estimated calendar. -/
def State.bootRecords (s : State) (slot : Nat) (fell : Bool) : State :=
  let cold := s.fw.cold
  let s := if cold then { s with
      ledg := { s.ledg with coldBoots := s.ledg.coldBoots + 1, unsaved := s.ledg.unsaved + b2n (!s.fw.prevClosed), closed := false }
      fw := { s.fw with cold := false } } else s
  let s := s.ledgAppend 0x0B (leBytes 1 (b2n s.fw.prevClosed) ++ leBytes 1 (slot + 2 * b2n fell) ++ leBytes 6 0)
  let s := if cold ∧ ¬ s.fw.prevClosed then s.ledgerEvent 0x8C02 0 0 else s
  if cold then s.ledgerEvent 0x8C04 0 0 else s

/-- What the Strongroom firmware of a slot does first: it runs, and shows its version (Table 12.12). -/
def State.startStrongroom (s : State) (x : FwSlot) : State :=
  (s.setF STRG_STATUS STRG_STATUS_RUN 1).setReg STRG_VERSION (x.strgRollback % 256 * 2 ^ 24 + x.strgVersion % 2 ^ 24)

/-- What a channel's newest HAPTIC record says of its life (R412). -/
def State.hapFromLedger (s : State) : State :=
  (List.range 8).foldl (fun (t : State) c =>
    match t.newest 0x04 (fun r => decide (r.num 0 1 = c)) with
    | some r => (t.setHap c { t.hapc c with stalls := r.num 80 4, faults := r.num 84 4 }).setReg64 (HAP_CYCLES_LO c) (r.num 72 8)
    | none => t) s

/-- Region 0 over all DRAM, HASHED with Folio off, or the layout of the boot settings; none if DRAM training failed (R155, R566). -/
def State.startRegions (s : State) (x : FwSlot) : State :=
  if s.getF MEM_STATUS MEM_STATUS_DRAM_FAIL = 1 then s
  else
    let l := if x.regions = [] then [(0, 0, false, 0, s.mem.installedMib)] else x.regions
    let s := l.foldl (fun (t : State) r => if r.1 < 8 then t.putRegion r.1 true r.2.2.1 r.2.1 r.2.2.2.1 r.2.2.2.2 else t) s
    { s with shm := { s.shm with movePool := if x.movePool = 0 then 1024 else x.movePool } }

/-- The bin arena and the code store (R215). -/
def State.startArena (s : State) (x : FwSlot) : State :=
  let mib := if x.arenaMib = 0 then 256 else x.arenaMib
  let s := { s with mem := { s.mem with arena := (s.arenaRoom (16 * mib)).getD [] }, rnd := { s.rnd with goalMib := mib } }
  if x.codeMib = 0 then s else s.setF RND_CODE_STATUS RND_CODE_STATUS_CODE_MIB x.codeMib

/-- Step 8 of Table 21.3: the Clerk is released, and the device is ACTIVE. -/
def State.bootEnds (s : State) (slot : Nat) (x : FwSlot) (fell : Bool) (bootUs : Nat) : State :=
  let s := ((s.startRegions x).startArena x).hapFromLedger
  let s := s.setF MEM_CONFIG MEM_CONFIG_RATE x.rate
  let s := { s with fw := { s.fw with run := some x, damath := x.damathVersion, staged := none, switch := none } }
  let s := (s.setReg CLRK_FW_STATUS (slot * 2 ^ 29 + b2n fell * 2 ^ 28)).setReg CLRK_BOOT_US bootUs
  let s := ((s.setPolicy true).atState 3).putVotes 66 baseMask
  let s := if x.votes67 = 0 then s else s.putVotes 67 (s.votes 67 ||| (x.votes67 &&& voteMask))
  s.tellWoken 1 0

/-- Have MEM0 to MEM3 come up, or failed, and has DRAM been trained (step 7)? -/
def State.memorySettled (s : State) : Bool :=
  [5, 6, 7, 8].all (fun d => s.domainUp d || s.failedMask.testBit d) &&
    (decide (s.getF MEM_CONFIG MEM_CONFIG_DENSITY ≠ 0) || decide (s.getF MEM_STATUS MEM_STATUS_DRAM_FAIL = 1))

/-- BOOT_SEQUENCE (R558, R560 to R566): the boot ends; `own` is the level of XSPI_OWN at its start, `bootUs` the time since the wake command. -/
def execBootSequence (own : Bool) (bootUs : Nat) (s : State) : Host.Outcome State Fault Refusal :=
  .next (if s.getF PCU_STATE PCU_STATE_STATE ≠ 1 ∨ s.getF PCU_STATE PCU_STATE_WAKING = 0 ∨ ¬ s.pwr.booting ∨ ¬ s.allUp 0x1E then s
  else if own ∨ s.fw.ownWait then { s with fw := { s.fw with ownWait := true } }
  else match chooseSlot s.slotsToTry with
    | none => s.stepFails 1 4
    | some (slot, x, fell) =>
      if bit x.bad 1 then s.stepFails 1 4
      else if slotGood x then
        if s.memorySettled then (((s.bootRecords slot fell).startStrongroom x).applyBinding x.binding).bootEnds slot x fell bootUs
        else s
      else
        let s := (s.bootRecords slot fell).startStrongroom x
        let s := if bit x.bad 3 then s else s.applyBinding x.binding
        let s := (s.setReg CLRK_FW_STATUS (slot * 2 ^ 29 + b2n fell * 2 ^ 28)).setF HOST_ERR_STATUS HOST_ERR_STATUS_CLRK_DOWN 1
        (s.atState 3).putVotes 66 baseMask)

/-- XSPI_OWN_RELEASE (R558): the programmer lets go of the flash, which holds what it wrote; a boot that waits goes on. XSPI_OWN is sampled in HAIRSPRING
only. -/
def execXspiOwnRelease (slotA slotB : Option FwSlot) (s : State) : Host.Outcome State Fault Refusal :=
  .next (if s.getF PCU_STATE PCU_STATE_STATE = 1 then { s with fw := { s.fw with slotA := slotA, slotB := slotB, ownWait := false } } else s)

/-- ROLLBACK_RAISE (R562): the OTP counters rise to the running slot's values once the Clerk is ready. -/
def execRollbackRaise (s : State) : Host.Outcome State Fault Refusal :=
  .next (match s.fw.run with
    | some x =>
      if s.getF PCU_STATE PCU_STATE_STATE = 3 ∧ s.clerkRuns = true then
        { s with fw := { s.fw with otpStrg := max s.fw.otpStrg (min 255 x.strgRollback), otpDamath := max s.fw.otpDamath (min 255 x.damathRollback) } }
      else s
    | none => s)

/-! ### Time -/

/-- The bin of the thermal histogram for a temperature in 0.25 °C (Table 17.5). -/
def thermalBin (t : Int) : Nat := if t < -120 then 0 else min 16 ((t + 120).toNat / 40 + 1)

/-- One nanosecond passes (R12): ACTIVE_S counts, and at every second the hottest junction is noted (R587, Table 17.5). -/
def State.clock (s : State) : State :=
  let s := { s with now := s.now + 1 }
  let s := if s.getF PCU_STATE PCU_STATE_STATE = 3 then { s with ledg := { s.ledg with activeNs := s.ledg.activeNs + 1 } } else s
  if s.now % 10 ^ 9 = 0 ∧ s.getF PCU_TJ_HOT PCU_TJ_HOT_VALID = 1 then
    let b := thermalBin (signed 12 (s.getF PCU_TJ_HOT PCU_TJ_HOT_TEMP))
    { s with ledg := { s.ledg with thermal := s.ledg.thermal.set b (satAdd 0xFFFFFFFF (s.ledg.thermal.getD b 0) 1) } }
  else s

/-- With nothing commanded a nanosecond passes, and what waits only for other work to end goes on: resizes whose deficits are gone (R92), domains, a
restore whose timings are in effect (R106). In OFF nothing happens. -/
def State.tick (s : State) : State :=
  if s.pwr.off then s
  else if !s.safe then s.clock.settleResizes.settlePower.endRestore
  else s.clock.settlePower

end Sys2Proof.Machine
end

