-- ==== Sys2Proof/Machine/Firmware.lean ====
section
/-! DEFINITION. Staging firmware and switching it while the device runs (R567 to R575). -/

namespace Sys2Proof.Machine

/-- The inactive slot holds this from now on (R568). -/
def State.putInactive (s : State) (x : Option FwSlot) : State :=
  if s.getF CLRK_FW_STATUS CLRK_FW_STATUS_SLOT = 0 then { s with fw := { s.fw with slotB := x } } else { s with fw := { s.fw with slotA := x } }

/-- FW_STAGE (0x0E01, R568). -/
def cmdFwStage : Cmd := ⟨0x0E01, .manager, 2, none,
  [⟨16, 8, .mult 4096 0 0xFFFFFFFFFFFFFFFF⟩, ⟨24, 8, .mult 4096 4096 16777216⟩]⟩

/-- A FW_STAGE that fails leaves the inactive slot empty (R568). -/
def State.stageFails (s : State) (pk : Pkt) (st : Status) (detail : Nat) : State :=
  (((({ s with fw := { s.fw with staged := none } }).putInactive none).setF CLRK_FW_STATUS CLRK_FW_STATUS_STAGED 0).setReg CLRK_FW_STAGED_VER 0).complete
    pk st detail

/-- What FW_STAGE adds to the shared validation. -/
def hooksFwStage (s : State) : Hooks :=
  { post := fun _ => [⟨s.fw.switch.isNone, .busy, 1⟩] }

/-- The effect of FW_STAGE once it is admitted. -/
def effFwStage (pk : Pkt) (image : Option FwSlot) (readBack : Bool) (_p : List Byte) (t : State) : State :=
  if t.linkUp pk.fn = false then t else
  match image with
  | none => t.stageFails pk .faulted 5
  | some x =>
    if bit x.bad 0 then t.stageFails pk .integrityFail 1
    else if bit x.bad 4 then t.stageFails pk .versionMismatch 1
    else if ¬ t.accepts x ∨ t.fw.run.any (fun r => decide (x.seq ≤ r.seq)) = true then t.stageFails pk .versionMismatch 2
    else if ¬ slotGood x then t.stageFails pk .integrityFail 2
    else if ¬ readBack then t.stageFails pk .integrityFail 3
    else
      let t := ((t.commit pk).putInactive (some x)).setF CLRK_FW_STATUS CLRK_FW_STATUS_STAGED 2
      let t := ({ t with fw := { t.fw with staged := some x } }).setReg CLRK_FW_STAGED_VER (x.damathVersion % 2 ^ 24)
      (t.complete pk .ok 0 x.seq).postMgr 0x8E01 0 x.seq 0

/-- FW_STAGE (R568): the image the host buffer holds (none: the host bus reports an error) is checked, written and read back, and its Damath staged.
A link that is down is waited for (R602). -/
def execFwStage (pk : Pkt) (image : Option FwSlot) (readBack : Bool) (s : State) : Host.Outcome State Fault Refusal :=
  .next (runPkt cmdFwStage pk s (hooksFwStage s) (effFwStage pk image readBack))

/-- FW_SWITCH (0x0E02, R569). -/
def cmdFwSwitch : Cmd := ⟨0x0E02, .manager, 1, none, [⟨16, 1, .rng 0 3⟩, ⟨17, 7, .zero⟩]⟩

/-- The major number of a version. -/
def major (v : Nat) : Nat := v / 65536

/-- Does the staged slot bring a binding table, memory parameters or boot settings other than those running (R569)? -/
def State.needsColdBoot (s : State) (x : FwSlot) : Bool :=
  s.fw.run.any (fun r => decide (r.binding ≠ x.binding ∨ r.rate ≠ x.rate ∨ r.regions ≠ x.regions ∨ r.movePool ≠ x.movePool ∨
    r.arenaMib ≠ x.arenaMib ∨ r.codeMib ≠ x.codeMib ∨ r.votes67 ≠ x.votes67))

/-- What a switch pauses (R570 to R572). Damath: the Registrar's epochs, uncommitted packets withdrawn, to be validated again, the compiled shaders no
pass uses; the Strongroom firmware: requests; touch: frames and contacts; haptics: running effects brake, pending ones end. -/
def State.beginSwitch (s : State) (target : Nat) : State :=
  if target = 0 then
    let s := (s.flight.filter (fun f => !f.committed && decide (f.pk.ring ≠ windowRing))).foldl (fun (t : State) f => t.forget f.pk) s
    let s := s.setPolicy false
    { s with rnd := { s.rnd with progs := s.rnd.progs.filter s.progBusy } }
  else if target = 1 then s.setF STRG_STATUS STRG_STATUS_RUN 2
  else if target = 2 then
    (List.range 4).foldl (fun (t : State) n => let t := t.loseContacts n; t.setTctl n { t.tctl n with scanning := false }) s
  else (List.range 8).foldl (fun (t : State) c =>
    let t := t.endPending c .aborted 0
    t.setHap c { t.hapc c with run := (t.hapc c).run.map (fun r => { r with stop := true }) }) s

/-- What FW_SWITCH adds to the shared validation. -/
def hooksFwSwitch (pk : Pkt) (s : State) : Hooks :=
  { pre := fun _ => [⟨s.fw.staged.isSome, .notPermitted, 1⟩]
    post := fun p => [⟨decide (par p 16 1 ≠ 0) || s.fw.staged.all (fun x => decide (major x.damathVersion = major s.fw.damath)), .versionMismatch, 1⟩,
      ⟨!s.changing pk, .busy, 3⟩] }

/-- The effect of FW_SWITCH once it is admitted. -/
def effFwSwitch (pk : Pkt) (p : List Byte) (t : State) : State :=
  let t := t.commit pk
  let t := { t with fw := { t.fw with switch := some (pk, par p 16 1) } }
  let t := (t.setF CLRK_FW_STATUS CLRK_FW_STATUS_SWITCHING 1).setF CLRK_FW_STATUS CLRK_FW_STATUS_COLD_BOOT (b2n (t.fw.staged.any t.needsColdBoot))
  t.beginSwitch (par p 16 1)

/-- FW_SWITCH (R569). -/
def execFwSwitch (pk : Pkt) (s : State) : Host.Outcome State Fault Refusal :=
  .next (runPkt cmdFwSwitch pk s (hooksFwSwitch pk s) (effFwSwitch pk))

/-- What ends a switch once nothing hinders it: the version that runs from now on, and the state. -/
def State.endSwitch (s : State) (target : Nat) (x : FwSlot) : State :=
  if target = 0 then
    let s := ({ s with fw := { s.fw with damath := x.damathVersion } }).setPolicy true
    (s.mgrFn :: s.liveInsts).foldl (fun (t : State) f => t.capChangedFn f) s
  else if target = 1 then
    let s := { s with strg := { s.strg with tts := tabMap (fun _ => {}) s.strg.tts (fun _ y => { y with last := s.now }) } }
    s.startStrongroom x
  else s

/-- The version of the switched entry. -/
def switchedVersion (target : Nat) (x : FwSlot) : Nat :=
  if target = 0 then x.damathVersion else if target = 1 then x.strgVersion else if target = 2 then x.touchVersion else x.hapticVersion

/-- FW_SWITCH_COMPLETE (R570 to R572): the switched units run on the staged firmware; a haptic switch waits until every effect has braked. -/
def execFwSwitchComplete (s : State) : Host.Outcome State Fault Refusal :=
  .next (match s.fw.switch, s.fw.staged with
    | some (pk, target), some x =>
      if target = 3 ∧ (List.range 8).any (fun c => (s.hapc c).run.isSome) = true then s
      else
        let s := ({ s with fw := { s.fw with switch := none } }).setF CLRK_FW_STATUS CLRK_FW_STATUS_SWITCHING 0
        let s := s.endSwitch target x
        let s := (s.fns.map Prod.fst).foldl (fun (t : State) f => t.flushHeld f) s
        let cold := b2n (s.getF CLRK_FW_STATUS CLRK_FW_STATUS_COLD_BOOT = 1)
        let s := (s.complete pk .ok 0 cold).postMgr 0x8E02 target (switchedVersion target x) 0
        if target = 0 then s.liveInsts.foldl (fun (t : State) n => t.post n 0x8E02 0 x.damathVersion 0) s else s
    | _, _ => s)

/-- STRONGROOM_SWITCH_TIMEOUT (R571, R524): the new firmware does not run, which is a fault of the Strongroom. -/
def execStrongroomSwitchTimeout (s : State) : Host.Outcome State Fault Refusal :=
  .next (match s.fw.switch with
    | some (_, 1) =>
      let s := ({ s with fw := { s.fw with switch := none } }).setF CLRK_FW_STATUS CLRK_FW_STATUS_SWITCHING 0
      let c := s.fresh
      ((c.2.setF STRG_STATUS STRG_STATUS_RUN 3).record 13 0 3 0x0C 0xFF c.1 0).state
    | _ => s)

end Sys2Proof.Machine
end

