-- ==== Sys2Proof/Machine/System.lean ====
section
/-! DEFINITION. The system class: SYS_NOP, SYS_FENCE and the lending slips (R68, R69, R71 to R75). SYS_GET_CAPS stands
with the capability list (Machine/Caps.lean). -/

namespace Sys2Proof.Machine

/-- SYS_NOP (0x0000, R68). -/
def cmdSysNop : Cmd := ⟨0x0000, .any, 0, none, []⟩

/-- The effect of SYS_NOP once it is admitted. -/
def effSysNop (pk : Pkt) (_p : List Byte) (t : State) : State :=
  t.complete pk .ok

/-- SYS_NOP completes with OK once validated (R68). -/
def execSysNop (pk : Pkt) (s : State) : Host.Outcome State Fault Refusal :=
  .next (runPkt cmdSysNop pk s {} (effSysNop pk))

/-- SYS_FENCE (0x0002, R69). -/
def cmdSysFence : Cmd := ⟨0x0002, .any, 0, none, []⟩

/-- Is a packet fetched earlier from any ring of the function still in flight (R69)? -/
def State.fenceWaits (s : State) (pk : Pkt) : Bool := (s.earlier pk).any (fun f => decide (f.pk.fn = pk.fn) && decide (f.pk.ring < windowRing))

/-- The effect of SYS_FENCE once it is admitted. -/
def effSysFence (pk : Pkt) (_p : List Byte) (t : State) : State :=
  if t.fenceWaits pk then t else t.complete pk .ok

/-- SYS_FENCE completes once every packet its function fetched earlier, from any ring, has completed; until then it waits
(R69). -/
def execSysFence (pk : Pkt) (s : State) : Host.Outcome State Fault Refusal :=
  .next (runPkt cmdSysFence pk s {} (effSysFence pk))

/-- May an owner use slip `n`: the manager always, an instance by the slip's mask (R72, R74)? -/
def State.mayUseSlip (s : State) (owner n : Nat) : Bool := decide (owner = 0) || (s.slip n).mask.testBit (owner - 1)

/-- SYS_SLIP_ACQUIRE (0x0010, Table 2.26). -/
def cmdSysSlipAcquire : Cmd :=
  ⟨0x0010, .tenants, 1, none, [⟨16, 2, .rng 0 255⟩, ⟨18, 1, .rng 0 1⟩, ⟨19, 5, .zero⟩]⟩

/-- The outcomes of an acquire (R72): the free slip is taken (OK, or BROKEN_LOCK with the mark); a slip the sender holds
is BUSY with DETAIL 1; one held by another is BUSY with DETAIL 0 (MODE 1) or waited for in first-come order. -/
def acquireSlip (pk : Pkt) (n mode : Nat) (s : State) : State :=
  let me := s.ownerOf pk.fn
  match (s.slip n).owner with
  | none => (s.setSlip n { s.slip n with owner := some me, last := me }).complete pk (if (s.slip n).broken then .brokenLock else .ok)
  | some o =>
    if o = me then s.complete pk .busy 1
    else if mode = 1 then s.complete pk .busy 0
    else if (s.slip n).waiters.contains pk then s
    else s.setSlip n { s.slip n with waiters := (s.slip n).waiters ++ [pk] }

/-- What SYS_SLIP_ACQUIRE adds to the shared validation. -/
def hooksSysSlipAcquire (pk : Pkt) (s : State) : Hooks :=
  { pre := fun p => [⟨s.mayUseSlip (s.ownerOf pk.fn) (par p 16 2), .notPermitted, 1⟩] }

/-- The effect of SYS_SLIP_ACQUIRE once it is admitted. -/
def effSysSlipAcquire (pk : Pkt) (p : List Byte) (t : State) : State :=
  acquireSlip pk (par p 16 2) (par p 18 1) t

/-- SYS_SLIP_ACQUIRE (R72, R74). -/
def execSysSlipAcquire (pk : Pkt) (s : State) : Host.Outcome State Fault Refusal :=
  .next (runPkt cmdSysSlipAcquire pk s (hooksSysSlipAcquire pk s) (effSysSlipAcquire pk))

/-- SYS_SLIP_RELEASE (0x0011, R73). -/
def cmdSysSlipRelease : Cmd := ⟨0x0011, .tenants, 1, none, [⟨16, 2, .rng 0 255⟩, ⟨18, 6, .zero⟩]⟩

/-- Only the owner may release or clear a slip (R73). -/
def ownsSlip (pk : Pkt) (s : State) (p : List Byte) : List Chk :=
  [⟨(s.slip (par p 16 2)).owner = some (s.ownerOf pk.fn), .notPermitted, 1⟩]

/-- What SYS_SLIP_RELEASE adds to the shared validation. -/
def hooksSysSlipRelease (pk : Pkt) (s : State) : Hooks :=
  { pre := ownsSlip pk s }

/-- The effect of SYS_SLIP_RELEASE once it is admitted. -/
def effSysSlipRelease (pk : Pkt) (p : List Byte) (t : State) : State :=
  ((t.setSlip (par p 16 2) { t.slip (par p 16 2) with owner := none }).complete pk .ok).handSlip (par p 16 2)

/-- SYS_SLIP_RELEASE: the slip goes to the first waiter or becomes FREE (R73). -/
def execSysSlipRelease (pk : Pkt) (s : State) : Host.Outcome State Fault Refusal :=
  .next (runPkt cmdSysSlipRelease pk s (hooksSysSlipRelease pk s) (effSysSlipRelease pk))

/-- SYS_SLIP_CLEAR (0x0012, R73). -/
def cmdSysSlipClear : Cmd := ⟨0x0012, .tenants, 1, none, [⟨16, 2, .rng 0 255⟩, ⟨18, 6, .zero⟩]⟩

/-- What SYS_SLIP_CLEAR adds to the shared validation. -/
def hooksSysSlipClear (pk : Pkt) (s : State) : Hooks :=
  { pre := ownsSlip pk s }

/-- The effect of SYS_SLIP_CLEAR once it is admitted. -/
def effSysSlipClear (pk : Pkt) (p : List Byte) (t : State) : State :=
  (t.setSlip (par p 16 2) { t.slip (par p 16 2) with broken := false }).complete pk .ok

/-- SYS_SLIP_CLEAR removes the BROKEN mark; the slip stays held (R73). -/
def execSysSlipClear (pk : Pkt) (s : State) : Host.Outcome State Fault Refusal :=
  .next (runPkt cmdSysSlipClear pk s (hooksSysSlipClear pk s) (effSysSlipClear pk))

/-- SYS_SLIP_GRANT (0x0013, R74). -/
def cmdSysSlipGrant : Cmd :=
  ⟨0x0013, .manager, 2, none, [⟨16, 2, .rng 0 255⟩, ⟨18, 6, .zero⟩, ⟨24, 8, .any⟩]⟩

/-- Does no instance outside the mask hold or await the slip (R74)? -/
def State.maskKeepsUsers (s : State) (n mask : Nat) : Bool :=
  (match (s.slip n).owner with
    | some o => decide (o = 0) || mask.testBit (o - 1)
    | none => true) &&
  (s.slip n).waiters.all (fun q => decide (s.ownerOf q.fn = 0) || mask.testBit (s.ownerOf q.fn - 1))

/-- What SYS_SLIP_GRANT adds to the shared validation. -/
def hooksSysSlipGrant (s : State) : Hooks :=
  { post := fun p => [⟨s.maskKeepsUsers (par p 16 2) (par p 24 8), .busy, 3⟩] }

/-- The effect of SYS_SLIP_GRANT once it is admitted. -/
def effSysSlipGrant (pk : Pkt) (p : List Byte) (t : State) : State :=
  (t.setSlip (par p 16 2) { t.slip (par p 16 2) with mask := par p 24 8 }).complete pk .ok

/-- SYS_SLIP_GRANT sets the mask; BUSY with DETAIL 3 if it would remove an instance that holds or awaits the slip
(R74). -/
def execSysSlipGrant (pk : Pkt) (s : State) : Host.Outcome State Fault Refusal :=
  .next (runPkt cmdSysSlipGrant pk s (hooksSysSlipGrant s) (effSysSlipGrant pk))

/-- A slip's state word (Table 2.27): OWNER is the owner while HELD, the last owner while FREE. -/
def State.slipWord (s : State) (n : Nat) : Nat :=
  let x := s.slip n
  b2n x.owner.isSome * 2 ^ 31 + b2n x.broken * 2 ^ 30 + min 255 x.waiters.length * 2 ^ 16 + (x.owner.getD x.last) % 128

/-- SYS_SLIP_QUERY (0x0014, R75). -/
def cmdSysSlipQuery : Cmd := ⟨0x0014, .tenants, 1, none, [⟨16, 2, .rng 0 255⟩, ⟨18, 6, .zero⟩]⟩

/-- What SYS_SLIP_QUERY adds to the shared validation. -/
def hooksSysSlipQuery (pk : Pkt) (s : State) : Hooks :=
  { pre := fun p => [⟨s.mayUseSlip (s.ownerOf pk.fn) (par p 16 2), .notPermitted, 1⟩] }

/-- The effect of SYS_SLIP_QUERY once it is admitted. -/
def effSysSlipQuery (pk : Pkt) (p : List Byte) (t : State) : State :=
  t.complete pk .ok 0 (t.slipWord (par p 16 2))

/-- SYS_SLIP_QUERY returns the state word in RESULT0 to a function permitted to use the slip (R75). -/
def execSysSlipQuery (pk : Pkt) (s : State) : Host.Outcome State Fault Refusal :=
  .next (runPkt cmdSysSlipQuery pk s (hooksSysSlipQuery pk s) (effSysSlipQuery pk))

end Sys2Proof.Machine
end

