-- ==== Sys2Proof/Machine/Views.lean ====
section
/-! DEFINITION. Status registers that mirror other state: what a read of them returns is computed here, each by the table of its chapter. -/

namespace Sys2Proof.Machine

/-! ### Instances (Tables 3.11 to 3.19) -/

/-- The code of an instance state (Table 3.2). -/
def InstState.code : InstState → Nat
  | .absent => 0
  | .running => 1
  | .freezing => 2
  | .frozen => 3
  | .contained => 4
  | .destroying => 5

/-- INST<n>_STATE (Table 3.11). -/
def State.viewInst (s : State) (n : Nat) : Nat :=
  let x := s.inst n
  if x.state = .absent then 0
  else b2n x.resize.isSome * 2 ^ 31 + b2n x.fixed * 2 ^ 30 + b2n x.c1 * 2 ^ 29 + b2n x.span * 2 ^ 28 + x.port % 2 * 2 ^ 24 + x.vf % 128 * 2 ^ 16 +
    bits x.shelfBase 11 3 * 8 + x.state.code

/-- Is the index in no instance's range? -/
def State.indexFree (s : State) (i : Nat) : Bool :=
  s.liveInsts.all (fun n => decide (i < (s.inst n).shelfBase) || decide ((s.inst n).shelfBase + (s.inst n).grant.shelf ≤ i))

/-- INST_POOL_FREE_MEM (Table 3.13). -/
def State.viewFreeMem (s : State) : Nat := s.quotaPool - s.granted Grant.mem

/-- INST_POOL_FREE_UNITS (Table 3.14). -/
def State.viewFreeUnits (s : State) : Nat :=
  (64 - s.granted Grant.counters) * 2 ^ 22 + (16 - s.granted Grant.scalers) * 2 ^ 17 + (128 - s.granted Grant.layers) * 2 ^ 9 +
    (256 - s.granted Grant.shader)

/-- INST_POOL_FREE_UNITS2 (Table 3.15). -/
def State.viewFreeUnits2 (s : State) : Nat :=
  (128 - s.granted Grant.audio) * 2 ^ 22 + (256 - s.granted Grant.touch) * 2 ^ 13 + ((List.range 4096).filter s.indexFree).length

/-- INST_POOL_FREE_MASKS (Table 3.16). -/
def State.viewFreeMasks (s : State) : Nat :=
  ((List.range 8).map (fun k => b2n (decide (s.hapOwner k = 0)) * 2 ^ (8 + k) + b2n (decide (s.outOwner k = 0)) * 2 ^ k)).foldl (· + ·) 0

/-- The instances from `lo` up to 32 more whose I2M_FULL is set (Table 3.19). -/
def State.viewPending (s : State) (lo : Nat) : Nat :=
  ((List.range 32).map (fun j => b2n (bit (s.reg (CLRK_MBOX_STATUS (lo + j))) 0) * 2 ^ j)).foldl (· + ·) 0

/-! ### Rings and errors -/

/-- CQ_STALL (Table 2.12): packets wait and no completion slot can be reserved for them (R57). -/
def State.stalled (s : State) (f : Nat) : Bool :=
  s.cqOn f && (decide ((s.fnState f).heldReplies ≠ []) || decide (s.spareSlots f = 0)) &&
    (List.range 3).any (fun p => decide (s.getF (CLRK_SQ_CTRL f p) CLRK_SQ_CTRL_EN = 1) &&
      decide ((s.fnState f).tails.getD p 0 ≠ BitVec.ofNat 32 (s.reg (CLRK_SQ_HEAD f p))))

/-- The records not acknowledged. -/
def State.unacked (s : State) : List (Nat × ErrRec) := s.err.slots.filter (fun p => !p.2.acked)

/-- HOST_ERR_STATUS (Table 19.10): SAFE shows the safe state; UNACKED and HIGHEST count the journal's records. -/
def State.viewErrStatus (s : State) : Nat :=
  setBits (setBits (setBits (s.reg HOST_ERR_STATUS) 31 31 (b2n s.err.safe)) 23 16 (min 255 s.unacked.length)) 1 0
    ((s.unacked.map (fun p => p.2.tier)).foldl max 0)

/-- HOST_ERR_NEXT (R516): of the records not acknowledged, that of the highest tier, the oldest first within a tier. -/
def State.viewErrNext (s : State) : Nat :=
  match minBy (fun p : Nat × ErrRec => (3 - p.2.tier) * 2 ^ 96 + p.2.time * 65536 + p.2.seq) s.unacked with
  | some p => 2 ^ 31 + p.1
  | none => 0

/-- A word of a record (Table 19.13): words 1 to 7 as latched by a read of word 0 of the slot. -/
def State.viewErrRec (s : State) (slot j : Nat) : Nat :=
  match s.err.latched with
  | some (k, ws) => if k = slot ∧ 0 < j then (ws.getD j 0).toNat else leNat (slice (((s.errRec? slot).map ErrRec.bytes).getD []) (4 * j) 4)
  | none => leNat (slice (((s.errRec? slot).map ErrRec.bytes).getD []) (4 * j) 4)

/-! ### The Bindery (Tables 9.10 to 9.19) -/

/-- No layer has this key. -/
def noLayer : Nat := 128 * 256

/-- Is the C0 plane being composed in pipe `k`? -/
def State.viewC0 (s : State) (k : Nat) : Bool := (s.pipe k).scene.c0On

/-- BND<k>_STATUS (Table 9.10). -/
def State.viewPipe (s : State) (k : Nat) : Nat :=
  b2n (s.viewC0 k) * 2 ^ 31 + (s.pipe k).mode % 4 * 2 ^ 29 +
    ((List.range 16).filter (fun v => s.bnd.layers.any (fun p => p.2.held.slots.contains (16 * k + v)))).length * 2 ^ 16 +
    min 65535 (ceilDiv (s.chargedBy noLayer k LayerRes.pool) 1024)

/-- BND<k>_FETCH (Table 9.11). -/
def State.viewFetch (s : State) (k : Nat) : Nat := min 65535 (ceilDiv (s.chargedBy noLayer k LayerRes.fetch) 1000000)

/-- The fill of a layer's part in a slot, saturating at 63 (R276): as much as it can hold where none has been reported. -/
def Layer.fillIn (x : Layer) (slot : Nat) : Nat := min 63 ((tabGet (fun _ => none) x.fills slot).getD ((x.cur.map LayerSet.depth).getD 0))

/-- BND_SLOT<v>_STATE (Table 9.13). -/
def State.viewSlot (s : State) (v : Nat) : Nat :=
  match s.bnd.layers.find? (fun p => p.2.held.slots.contains v) with
  | some (key, x) =>
    2 ^ 31 + ((x.cur.map LayerSet.cls).getD 0) % 4 * 2 ^ 29 + (min 2 (ceilDiv x.held.scalers.length (max 1 x.held.slots.length))) * 2 ^ 27 +
      key / 128 % 128 * 2 ^ 20 + key % 128 * 2 ^ 13 + x.fillIn v * 128
  | none => 0

/-- BND_LAYER<i>_STATUS (Table 9.19). -/
def State.viewLayer (s : State) (key : Nat) : Nat :=
  let x := s.layer key
  match x.cur with
  | some c =>
    2 ^ 31 + b2n x.buf.isSome * 2 ^ 30 + b2n x.late * 2 ^ 29 + b2n x.poison * 2 ^ 28 + b2n x.clamped * 2 ^ 27 + x.policy % 8 * 2 ^ 24 +
      c.output % 16 * 2 ^ 20 + x.held.slots.length % 4 * 2 ^ 18 + x.held.scalers.length % 8 * 2 ^ 15 +
      ((minBy id (x.held.slots.map x.fillIn)).getD 0)
  | none => 0

/-! ### Render, debug -/

/-- Is committed work in progress in the clusters? -/
def State.rendering (s : State) : Bool := s.rnd.works.any Work.committed

/-- RND_CLUSTER_BUSY (Table 7.21), TEX_UNIT_BUSY (Table 8.10): which of the clusters that are up work just now the spec does not tell; none does with no pass
or dispatch in progress. -/
def State.viewBusy (s : State) : Nat := if s.rendering then s.showClusterUp &&& (Config.free s.freeCount).toNat else 0

/-- What DBG_WAVE_SEL selects (R553): the value, if the wave of that unit is halted and the ID is live in that lane. -/
def State.waveValue (s : State) : Option Nat :=
  let sel := s.reg DBG_WAVE_SEL
  match tabGet (fun _ => none) s.dbg.waves (bits sel 31 27) with
  | some h => if h.unit = bits sel 26 25 then (h.live.find? (fun x => x.1 = bits sel 24 20 ∧ x.2.1 = bits sel 19 0)).map (fun x => x.2.2) else none
  | none => none

/-- DBG_WAVE_STATUS. -/
def DBG_WAVE_STATUS : Nat := 0x440408

/-! ### The value a register shows -/

/-- Is the address that of word `j` of an array of `n` registers at stride `d`? Its index. -/
def arrayIndex (base d n a : Nat) : Option Nat :=
  if base ≤ a ∧ (a - base) % d = 0 ∧ (a - base) / d < n then some ((a - base) / d) else none

/-- Registers of an array that mirror other state. -/
def State.viewArray (s : State) (a : Nat) : Option Nat :=
  match arrayIndex (INST_STATE 1) 0x10 64 a, arrayIndex (INST_MEM_USED 1) 0x10 64 a, arrayIndex (CLRK_SLIP_STATE 0) 4 256 a with
  | some n, _, _ => some (s.viewInst (n + 1))
  | _, some n, _ => some (s.memUsed (n + 1))
  | _, _, some n => some (s.slipWord n)
  | _, _, _ =>
  match arrayIndex (BND_STATUS 0) 0x100 8 a, arrayIndex (BND_FETCH 0) 0x100 8 a, arrayIndex (BND_SLOT_STATE 0) 4 128 a with
  | some k, _, _ => some (s.viewPipe k)
  | _, some k, _ => some (s.viewFetch k)
  | _, _, some v => some (s.viewSlot v)
  | _, _, _ =>
  match arrayIndex (HOST_ERR_REC_W 0 0) 4 512 a, arrayIndex (CLRK_RING_STATUS 0) 0x100 66 a, arrayIndex (CLRK_RING_STATUS 128) 0x100 128 a with
  | some n, _, _ => some (s.viewErrRec (n / 8) (n % 8))
  | _, some f, _ => some (s.reg a + b2n (s.stalled f) * 256)
  | _, _, some f => some (s.reg a + b2n (s.stalled (128 + f)) * 256)
  | _, _, _ => none

/-- Single registers that mirror other state, with what they show. -/
def State.singles (s : State) : List (Nat × (Unit → Nat)) :=
  [(INST_POOL_FREE_MEM, fun _ => s.viewFreeMem), (INST_POOL_FREE_UNITS, fun _ => s.viewFreeUnits), (INST_POOL_FREE_UNITS2, fun _ => s.viewFreeUnits2),
   (INST_POOL_FREE_MASKS, fun _ => s.viewFreeMasks), (INST_MBOX_PENDING_LO, fun _ => s.viewPending 1), (INST_MBOX_PENDING_HI, fun _ => s.viewPending 33),
   (REGR_STATUS, fun _ => setBits (s.reg REGR_STATUS) 15 0 (min 65535 s.shm.moves.length)), (REGR_RESERVE_FREE, fun _ => s.reserveFree),
   (HOST_ERR_STATUS, fun _ => s.viewErrStatus), (HOST_ERR_NEXT, fun _ => s.viewErrNext),
   (LEDG_CAL_LO, fun _ => s.calendar % 2 ^ 32), (LEDG_CAL_HI, fun _ => s.calendar / 2 ^ 32),
   (LEDG_OFFSET_LO, fun _ => unsigned 64 s.ledg.offset % 2 ^ 32), (LEDG_OFFSET_HI, fun _ => unsigned 64 s.ledg.offset / 2 ^ 32),
   (MEM_TOL_MIN, fun _ => s.showTolMin), (MEM_SCRUB_STATUS, fun _ => setBits (s.reg MEM_SCRUB_STATUS) 6 0 s.scrubPercent),
   (RND_CLUSTER_UP, fun _ => s.showClusterUp), (RND_CLUSTER_BUSY, fun _ => s.viewBusy), (TEX_UNIT_BUSY, fun _ => s.viewBusy),
   (FAB_TIME_LO, fun _ => s.fabricTime % 2 ^ 32), (FAB_TIME_HI, fun _ => s.fabricTime / 2 ^ 32 % 2 ^ 32),
   (DBG_WAVE_VALUE, fun _ => (s.waveValue.getD 0)), (DBG_WAVE_STATUS, fun _ => b2n s.waveValue.isSome),
   (DBG_CROWN_STATUS, fun _ => setBits (s.reg DBG_CROWN_STATUS) 29 28 Config.debugLock.toNat)]

/-- What the register at `a` shows: the computed value of one that mirrors other state, else what is stored. -/
def State.view (s : State) (a : Nat) : Nat :=
  match s.viewArray a with
  | some v => v % 2 ^ 32
  | none =>
    match s.singles.find? (fun x => x.1 = a) with
    | some x => x.2 () % 2 ^ 32
    | none =>
      if 0x3000000 ≤ a ∧ a < 0x3000000 + 0x1000 * 65 ∧ a % 0x1000 < 0x200 ∧ a % 4 = 0 then s.viewLayer ((a - 0x3000000) / 0x1000 * 128 + a % 0x1000 / 4)
      else s.reg a

/-! ### Pins -/

/-- The levels of the always-on outputs (Table 22.3): the two enables; PWR_FAIL_N, STRG_ALERT_N and WAKE#, open-drain, low when asserted and
released in OFF (R593). -/
structure Pins where
  pwrEnMain : Bool
  pwrEnDram : Bool
  pwrFailN : Bool
  strgAlertN : Bool
  wakeN : Bool
  deriving DecidableEq, Repr

/-- What stands at the pins (R362, R390, R456, R470, R593). -/
def State.pins (s : State) : Pins where
  pwrEnMain := s.enables
  pwrEnDram := s.enables
  pwrFailN := s.pwr.off || !s.ledg.pwrFail
  strgAlertN := s.pwr.off || decide (s.strg.alerts = [])
  wakeN := s.pwr.off || !s.tch.wakePin

end Sys2Proof.Machine
end

