-- ==== Sys2Proof/Machine/Caps.lean ====
section
/-! DEFINITION. The capability list of each function (R5, R22, R70, R77 to R79 and the entry of each chapter), and SYS_GET_CAPS. Entries stand in the order of
their IDs from CAP offset 0x1000. -/

namespace Sys2Proof.Machine

/-- The view a function has of a pool: an instance its grant, the manager and the standby the total. -/
def State.capGrant (s : State) (f : Nat) : Grant :=
  if isInst f then (s.inst f).grant
  else { mem := s.quotaPool, shelf := 4096, shader := 256, touch := 256, layers := 128, scalers := 16, audio := 128, counters := 64, outOwn := 255,
         outLayer := 255, hap := 255 }

/-- The 20 bytes of a grant record (Table 3.6). -/
def grantBytes (g : Grant) : List Byte :=
  leBytes 4 g.mem ++ leBytes 2 g.shelf ++ leBytes 2 g.shader ++ leBytes 2 g.touch ++ leBytes 1 g.layers ++ leBytes 1 g.scalers ++ leBytes 1 g.audio ++
    leBytes 1 g.counters ++ leBytes 1 g.outOwn ++ leBytes 1 g.outLayer ++ leBytes 1 g.hap ++ leBytes 3 0

/-- Is the function in the manager's place: the manager, or the fabric manager, which acts with its rights (R501)? -/
def State.asManager (s : State) (f : Nat) : Bool := decide (s.ownerOf f = 0)

/-- A page of granted registers in the reader's BAR0: fixed in the manager's map, the device's choice in an instance's (R22, Table 2.5). -/
def pageOf (f id fixed : Nat) : Nat := if isInst f then Config.pageOffset f id else fixed

/-- A mask of 8 units from a test. -/
def mask8 (p : Nat → Bool) : Nat := ((List.range 8).map (fun k => b2n (p k) * 2 ^ k)).foldl (· + ·) 0

/-- Identity (Table 0.3). -/
def State.capIdentity (s : State) : List Byte :=
  leBytes 2 0x0880 ++ leBytes 1 0xA1 ++ leBytes 1 (if Config.gradeE then 0x45 else 0x49) ++ leBytes 4 0 ++ leBytes 8 Config.uid.toNat ++ leBytes 1 (s.fw.damath / 65536 % 256) ++
    leBytes 1 (s.fw.damath / 256 % 256) ++ leBytes 1 (s.fw.damath % 256) ++ leBytes 5 0

/-- Instances (Table 3.27). -/
def State.capInstances (s : State) (f : Nat) : List Byte :=
  let x := s.inst f
  leBytes 1 (if isInst f then f else 0) ++ leBytes 1 (if isInst f then 0 else if s.asManager f then 1 else 2) ++
    leBytes 2 (if isInst f then b2n x.span * 4 + b2n x.c1 * 2 + b2n x.fixed else 0) ++ leBytes 2 (if isInst f then x.shelfBase else 0) ++ leBytes 2 0 ++
    grantBytes (s.capGrant f) ++ leBytes 12 0

/-- The Registrar (Table 4.23). -/
def State.capRegistrar (s : State) : List Byte :=
  leBytes 2 4096 ++ leBytes 1 16 ++ leBytes 1 38 ++ leBytes 2 1000 ++ leBytes 2 (s.getF REGR_CTRL REGR_CTRL_MOVE_BUDGET) ++ leBytes 4 262144 ++
    leBytes 4 (s.getF REGR_CTRL REGR_CTRL_SPAN_EN + 2 * s.getF REGR_CTRL REGR_CTRL_PREFETCH_EN + 4 * s.getF REGR_CTRL REGR_CTRL_PAUSE) ++ leBytes 8 0

/-- Memory (Table 5.25). -/
def State.capMemory (s : State) : List Byte :=
  leBytes 4 (if s.getF MEM_STATUS MEM_STATUS_DRAM_FAIL = 1 then 0 else s.mem.installedMib) ++ leBytes 2 (s.getF MEM_CONFIG MEM_CONFIG_RATE) ++ leBytes 1 16 ++
    leBytes 1 (mask8 (fun n => bit (s.reg (MEM_REGION_CFG n)) 31)) ++ leBytes 1 (mask8 (fun n => bit (s.reg (MEM_REGION_CFG n)) 30)) ++ leBytes 1 16 ++
    leBytes 2 (s.getF MEM_CARREL_LOCK MEM_CARREL_LOCK_LOCKED) ++ leBytes 12 0

/-- Render (Table 7.24). -/
def capRender : List Byte :=
  leBytes 1 24 ++ leBytes 1 32 ++ leBytes 2 128 ++ leBytes 2 1800 ++ leBytes 1 32 ++ leBytes 1 5 ++ leBytes 2 16384 ++ leBytes 2 256 ++ leBytes 1 1 ++ leBytes 1 6 ++
    leBytes 2 1024 ++ leBytes 2 64 ++ leBytes 2 64 ++ leBytes 4 0

/-- Rays and sparse (Table 8.18). -/
def State.capRays (s : State) : List Byte :=
  leBytes 1 24 ++ leBytes 1 4 ++ leBytes 1 1 ++ leBytes 1 2 ++ leBytes 1 1 ++ leBytes 1 8 ++ leBytes 1 64 ++ leBytes 1 0 ++
    leBytes 2 (s.getF TEX_RAY_CTRL TEX_RAY_CTRL_STEP_LIMIT) ++ leBytes 14 0
def State.capSparse (s : State) : List Byte :=
  leBytes 1 16 ++ leBytes 1 (s.getF TEX_CTRL TEX_CTRL_FEEDBACK_EN) ++ leBytes 2 0 ++ leBytes 4 262144 ++ leBytes 16 0

/-- The Bindery (Table 9.20). -/
def State.capBindery (s : State) (f : Nat) : List Byte :=
  leBytes 1 8 ++ leBytes 1 16 ++ leBytes 1 16 ++ leBytes 1 (s.capGrant f).layers ++ leBytes 2 5120 ++ leBytes 2 10240 ++ leBytes 1 8 ++ leBytes 1 6 ++ leBytes 1 64 ++
    leBytes 1 (b2n (s.getF BND_MOTION_CTRL BND_MOTION_CTRL_SRC ≠ 0)) ++ leBytes 2 1024 ++ leBytes 2 2048 ++ leBytes 4 28800 ++ leBytes 4 (pageOf f 0x50 0) ++ leBytes 16 0

/-- Outputs (Table 10.28). -/
def State.capOutputs (s : State) (f : Nat) : List Byte :=
  leBytes 1 8 ++ leBytes 1 (mask8 (fun k => decide (s.outOwner k = s.ownerOf f))) ++ leBytes 1 (s.capGrant f).outLayer ++ leBytes 1 0xF0 ++ leBytes 2 5120 ++
    leBytes 2 3840 ++ leBytes 4 1100000 ++ leBytes 2 384 ++ leBytes 1 6 ++ leBytes 1 3 ++ leBytes 1 64 ++ leBytes 7 0

/-- Collation (Table 11.22). -/
def State.capCollation (s : State) (f : Nat) : List Byte :=
  leBytes 1 32 ++ leBytes 1 16 ++ leBytes 1 0x0F ++ leBytes 1 3 ++
    leBytes 4 (((List.range 32).map (fun n => b2n (decide (tabGet (fun _ => 0) s.coll.holders n = s.ownerOf f)) * 2 ^ n)).foldl (· + ·) 0) ++
    leBytes 4 (pageOf f 0x70 0x181000) ++ leBytes 4 (pageOf f 0x10070 0x184000) ++ leBytes 8 0

/-- Touch (Table 13.14). -/
def State.capTouch (s : State) (f : Nat) : List Byte :=
  leBytes 1 4 ++ leBytes 1 96 ++ leBytes 1 40 ++ leBytes 1 56 ++ leBytes 1 240 ++ leBytes 1 16 ++ leBytes 2 (s.capGrant f).touch ++
    leBytes 4 (pageOf f 0x80 (Config.pageOffset f 0x80)) ++
    ((List.range 4).flatMap (fun c => leBytes 1 (b2n (s.tctl c).panel.isSome + 2 * b2n (bit (s.reg STRG_BOUND) c)))) ++ leBytes 8 0

/-- Haptics (Table 14.14). -/
def State.capHaptics (s : State) (f : Nat) : List Byte :=
  leBytes 1 8 ++ leBytes 1 16 ++ leBytes 1 8 ++ leBytes 1 (mask8 (fun c => decide (s.hapOwner c = s.ownerOf f))) ++ leBytes 2 16000 ++ leBytes 1 100 ++
    leBytes 1 (s.getF HAP_BOOST_CTRL HAP_BOOST_CTRL_VHV_SET) ++ leBytes 4 (pageOf f 0x90 0x300000) ++
    leBytes 1 (mask8 (fun c => decide (s.getF (HAP_STATUS c) HAP_STATUS_CALIBRATED = 1))) ++ leBytes 11 0

/-- Audio (Table 15.13). -/
def State.capAudio (s : State) (f : Nat) : List Byte :=
  let n := (s.capGrant f).audio
  leBytes 1 32 ++ leBytes 1 32 ++ leBytes 1 n ++ leBytes 1 ((n + 1) / 2) ++ leBytes 1 8 ++ leBytes 1 4 ++ leBytes 1 32 ++ leBytes 1 40 ++ leBytes 4 96000 ++
    leBytes 4 (pageOf f 0xA0 0x341000) ++ leBytes 4 (pageOf f 0x100A0 0x342000) ++ leBytes 2 500 ++ leBytes 2 0

/-- The voter a reader is: none is the standby. -/
def State.capVoter (s : State) (f : Nat) : Nat := if isInst f ∨ s.asManager f = true then s.voterOf f else 255

/-- Power (Table 16.15). -/
def State.capPower (s : State) (f : Nat) : List Byte :=
  let v := s.capVoter f
  leBytes 1 22 ++ leBytes 1 72 ++ leBytes 1 14 ++ leBytes 1 v ++ leBytes 4 (s.voteRights v) ++ leBytes 4 (if v = 255 then 0 else s.votes v) ++ leBytes 4 s.upMask ++
    leBytes 4 s.failedMask ++ leBytes 4 0

/-- The fabric (Table 18.12). -/
def State.capFabric (s : State) : List Byte :=
  let fm := s.getF FAB_STATUS FAB_STATUS_FM_PRESENT = 1
  let out := s.domainUp 18 = false ∨ s.getF FAB_STATUS FAB_STATUS_EXCLUDED = 1
  leBytes 1 (if out then 255 else s.getF FAB_STATUS FAB_STATUS_ADDR) ++ leBytes 1 (s.getF FAB_STATUS FAB_STATUS_DEVICES) ++
    leBytes 1 (if fm then s.getF FAB_STATUS FAB_STATUS_FM_ADDR else 255) ++ leBytes 1 4 ++ leBytes 4 (s.reg FAB_GEN) ++
    leBytes 8 (if fm then s.uidOf (s.getF FAB_STATUS FAB_STATUS_FM_ADDR) else 0) ++
    leBytes 1 (s.getF FAB_STATUS FAB_STATUS_FM + 2 * s.getF REGR_CTRL REGR_CTRL_SPAN_EN + 4 * s.getF FAB_STATUS FAB_STATUS_TIME_HOLD) ++ leBytes 7 0

/-- The Ledger (Table 17.14). -/
def State.capLedger (s : State) : List Byte :=
  leBytes 2 8192 ++ leBytes 2 2048 ++ leBytes 2 96 ++ leBytes 2 600 ++ leBytes 1 64 ++ leBytes 1 36 ++
    leBytes 1 (s.getF LEDG_STATUS LEDG_STATUS_CAL_VALID + 2 * s.getF LEDG_STATUS LEDG_STATUS_ARMED + 4 * s.getF LEDG_STATUS LEDG_STATUS_CAP_LOW) ++ leBytes 1 0 ++
    leBytes 2 (s.getF LEDG_CAP LEDG_CAP_C_UF) ++ leBytes 10 0

/-- Telemetry and debug (Table 20.20). -/
def State.capTelemetry (s : State) (f : Nat) : List Byte :=
  leBytes 1 64 ++ leBytes 1 8 ++ leBytes 1 48 ++ leBytes 1 (s.capGrant f).counters ++ leBytes 4 (pageOf f 0xE0 (Config.pageOffset f 0xE0)) ++ leBytes 4 10 ++ leBytes 4 1000000 ++
    leBytes 1 64 ++ leBytes 1 8 ++ leBytes 6 0
def State.capDebug (s : State) : List Byte :=
  leBytes 1 50 ++ leBytes 1 Config.debugLock.toNat ++ leBytes 1 (s.getF DBG_CROWN_STATUS DBG_CROWN_STATUS_LEVEL) ++ leBytes 1 0x84 ++ leBytes 20 0

/-- Strongroom services (Table 12.24). -/
def State.capStrongroom (s : State) (f : Nat) : List Byte :=
  let o := s.ownerOf f
  let mgr := s.asManager f
  let tts := if mgr ∨ isInst f then s.binding.sprites.filter (fun p => decide (p.2.controller = o)) else []
  let pipe := minBy id (tts.map (fun p => p.1 / 32))
  leBytes 4 (match pipe with
    | some k => ((List.range 32).map (fun t => b2n (tts.any (fun p => decide (p.1 = 32 * k + t))) * 2 ^ t)).foldl (· + ·) 0
    | none => 0) ++ leBytes 1 (pipe.getD 255) ++ leBytes 1 0 ++
    leBytes 2 (((List.range 16).map (fun n => b2n ((mgr || isInst f) && s.binding.chimes.any (fun c => decide (c.1 = n) && c.2.controllers.contains o)) * 2 ^ n)).foldl (· + ·) 0) ++
    [BitVec.ofNat 8 (s.reg STRG_VERSION / 65536), BitVec.ofNat 8 (s.reg STRG_VERSION / 256), BitVec.ofNat 8 (s.reg STRG_VERSION)] ++
    leBytes 1 (s.getF STRG_STATUS STRG_STATUS_BIND_LOCKED + 2 * b2n mgr) ++
    leBytes 2 (if mgr then ((List.range 16).map (fun n => b2n (s.hasKey n) * 2 ^ n)).foldl (· + ·) 0 else 0) ++ leBytes 10 0

/-- The entries a function sees, with their IDs; one with no instance bound sees the identity only (R40). -/
def State.capEntries (s : State) (f : Nat) : List (Nat × List Byte) :=
  (0x0001, s.capIdentity) :: (if 128 ≤ f then [] else
    [(0x0010, s.capInstances f), (0x0020, s.capRegistrar), (0x0030, s.capMemory), (0x0040, capRender), (0x0041, s.capRays), (0x0042, s.capSparse),
     (0x0050, s.capBindery f), (0x0060, s.capOutputs f), (0x0070, s.capCollation f), (0x0080, s.capTouch f), (0x0090, s.capHaptics f), (0x00A0, s.capAudio f),
     (0x00B0, s.capPower f), (0x00C0, s.capFabric), (0x00D0, s.capLedger), (0x00E0, s.capTelemetry f), (0x00F0, s.capDebug), (0x0100, s.capStrongroom f)])

/-- The list from CAP offset `at`: each entry behind its header (Table 2.29), the last with NEXT 0. -/
def capChain : Nat → List (Nat × List Byte) → List Byte
  | _, [] => []
  | at_, (id, b) :: r =>
    let n := (8 + b.length) / 16
    leBytes 2 id ++ leBytes 1 1 ++ leBytes 1 n ++ leBytes 4 (if r = [] then 0 else at_ + 16 * n) ++ b ++ capChain (at_ + 16 * n) r

/-- The capability list of a function. -/
def State.capList (s : State) (f : Nat) : List Byte := capChain 0x1000 (s.capEntries f)

/-- SYS_GET_CAPS (0x0001, Table 2.25). -/
def cmdSysGetCaps : Cmd :=
  ⟨0x0001, .any, 2, none, [⟨16, 4, .write⟩, ⟨20, 4, .mult 16 0 0xFFFFFFFF⟩, ⟨24, 4, .mult 16 16 4096⟩, ⟨28, 4, .zero⟩]⟩

/-- What SYS_GET_CAPS adds to the shared validation. -/
def hooksSysGetCaps (pk : Pkt) (s : State) : Hooks :=
  { dyn := fun p => [(2, decide (par p 20 4 < s.objSize (par p 16 4))), (3, decide (par p 20 4 + par p 24 4 ≤ s.objSize (par p 16 4)))]
    more := fun p => [⟨(s.capList pk.fn).length ≤ par p 24 4, .outOfRange, 3⟩]
    failRes := fun p st d => if st = .outOfRange ∧ d = 3 ∧ inRange (.mult 16 16 4096) (par p 24 4) = true ∧
        par p 20 4 + par p 24 4 ≤ s.objSize (par p 16 4) then ((s.capList pk.fn).length, 0) else (0, 0) }

/-- The effect of SYS_GET_CAPS once it is admitted. -/
def effSysGetCaps (pk : Pkt) (p : List Byte) (t : State) : State :=
  t.storeReply pk (par p 16 4) (par p 20 4) (t.capList pk.fn) (t.capList pk.fn).length (t.fnState pk.fn).capGen

/-- SYS_GET_CAPS (R70): a copy of the sender's capability list; too little room returns OUT_OF_RANGE with the length needed. -/
def execSysGetCaps (pk : Pkt) (s : State) : Host.Outcome State Fault Refusal :=
  .next (runPkt cmdSysGetCaps pk s (hooksSysGetCaps pk s) (effSysGetCaps pk))

end Sys2Proof.Machine
end

