-- ==== Sys2Proof/Machine/Rings.lean ====
section
/-! DEFINITION. Host ports and rings (R39 to R51, R57, R63, R66, R67, R602): writes of a ring register set, doorbells, fetching, timeouts, the host
links; and packets the management tree delivers (R501, R502). -/

namespace Sys2Proof.Machine

/-! ### Ring register sets (R48, R49) -/

/-- Is the writer the function that owns a ring set or doorbell page? The Crown port acts as the manager (R551). -/
def State.isFn (s : State) (w f : Nat) : Bool := decide (w = f) || (decide (w = crownWriter) && decide (f = s.mgrFn))

/-- A write of `w` to the ring set or doorbell page of function `f`: the owner's takes effect; the manager may not write the rings of another (R14,
Table 2.15), and nobody else sees them (R45). -/
def State.ringWrite (s : State) (w f addr v : Nat) (g : State → State) : State :=
  s.gated w addr (fun t =>
    if t.isFn w f then g t
    else if t.writerOwner w = 0 ∧ v ≠ t.reg addr then t.badWrite w addr
    else t)

/-- A configuration write is refused (R48, Table 2.23). -/
def State.cfgErr (s : State) (f : Nat) : State := s.setF (CLRK_RING_STATUS f) CLRK_RING_STATUS_CFG_ERR 1

/-- A ring depth the device accepts (R46). -/
def depthOk (log2 : Nat) : Bool := decide (6 ≤ log2) && decide (log2 ≤ 16)

/-- A write to CLRK_SQp_CTRL by its owner (R48, R49): EN rising zeroes head and stored doorbell; a change of LOG2_DEPTH while EN is 1 is discarded. -/
def State.setSqCtrl (s : State) (f p v : Nat) : State :=
  let a := CLRK_SQ_CTRL f p
  let d := v % 32
  if bit (s.reg a) 31 then
    if d ≠ s.reg a % 32 then s.cfgErr f else s.setReg a (d + b2n (bit v 31) * 2 ^ 31)
  else if ¬ bit v 31 then s.setReg a d
  else if depthOk d then
    ((s.setReg a (d + 2 ^ 31)).setReg (CLRK_SQ_HEAD f p) 0).setFn f { s.fnState f with tails := (s.fnState f).tails.set p 0 }
  else (s.setReg a d).cfgErr f

/-- What waits for the manager's rings is told once they run (R390, R460, R467). -/
def State.tellManager (s : State) : State := s.tellWake.tellXtal.tellLedger

/-- A write to CLRK_CQ_CTRL by its owner (R48, R49): EN rising zeroes tail and consumer count, and what is held is written; WB_EN, COAL_COUNT and
LOG2_DEPTH do not change while EN is 1. -/
def State.setCqCtrl (s : State) (f v : Nat) : State :=
  let a := CLRK_CQ_CTRL f
  let v := v &&& 0xC0FFFFFF
  if bit (s.reg a) 31 then
    if (v ^^^ s.reg a) &&& 0x40FF001F ≠ 0 then s.cfgErr f else s.setReg a v
  else if ¬ bit v 31 then s.setReg a v
  else if depthOk (v % 32) && decide (bits v 23 16 ≠ 0) then
    let s := (s.setReg a v).setReg (CLRK_CQ_TAIL f) 0
    let s := (s.setFn f { s.fnState f with cqHead := 0, unsignalled := 0, cqEver := true }).flushHeld f
    if f = s.mgrFn then s.tellManager else s
  else (s.setReg a (v % 2 ^ 31)).cfgErr f

/-- A write to a BASE register by its owner: it does not change while EN is 1. -/
def State.setRingBase (s : State) (f ring a v : Nat) : State :=
  let on := if ring < 3 then bit (s.reg (CLRK_SQ_CTRL f ring)) 31 else s.cqOn f
  let v := if a % 16 = 0 then v / 4096 * 4096 else v
  if on ∧ v ≠ s.reg a then s.cfgErr f else s.setReg a v

/-- A write to CLRK_VECMAP by its owner (Table 2.23). -/
def State.setVecmap (s : State) (f k v : Nat) : State :=
  let v := v % 2 ^ 30
  if (List.range (if k = 2 then 4 else 6)).any (fun j => decide (bits v (5 * j + 4) (5 * j) < 2)) then s.cfgErr f else s.setReg (CLRK_VECMAP f k) v

/-- SQ_ENABLE (R48): a write to CLRK_SQp_CTRL with EN set. -/
def execSqEnable (writer fn ring value : Nat) (s : State) : Host.Outcome State Fault Refusal :=
  .next (if 2 < ring then s
  else s.ringWrite writer fn (CLRK_SQ_CTRL fn ring) (setBits value 31 31 1) (fun t => t.setSqCtrl fn ring (setBits value 31 31 1)))

/-- SQ_DISABLE (R49): a write that clears EN and leaves the depth; fetched packets go on, the others are dropped, HEAD stays. -/
def execSqDisable (writer fn ring : Nat) (s : State) : Host.Outcome State Fault Refusal :=
  let v := s.reg (CLRK_SQ_CTRL fn ring) % 2 ^ 31
  .next (if 2 < ring then s else s.ringWrite writer fn (CLRK_SQ_CTRL fn ring) v (fun t => t.setSqCtrl fn ring v))

/-- CQ_ENABLE (R48, R49): a write to CLRK_CQ_CTRL with EN set. -/
def execCqEnable (writer fn value : Nat) (s : State) : Host.Outcome State Fault Refusal :=
  .next (s.ringWrite writer fn (CLRK_CQ_CTRL fn) (setBits value 31 31 1) (fun t => t.setCqCtrl fn (setBits value 31 31 1)))

/-- CQ_DISABLE (R49): a write that clears EN and leaves the other fields; replies and notices are held from now on. -/
def execCqDisable (writer fn : Nat) (s : State) : Host.Outcome State Fault Refusal :=
  let v := s.reg (CLRK_CQ_CTRL fn) % 2 ^ 31
  .next (s.ringWrite writer fn (CLRK_CQ_CTRL fn) v (fun t => t.setCqCtrl fn v))

/-! ### Doorbells (R50) -/

/-- The stored producer count of a submission ring. -/
def State.sqTail (s : State) (f p : Nat) : Word := (s.fnState f).tails.getD p 0

/-- Does a count lie at most `d` ahead of another (mod 2³²)? -/
def within (v from_ : Word) (d : Nat) : Bool := decide ((v - from_).toNat ≤ d)

/-- A doorbell is refused: ring 3 is the CQ. -/
def State.badDoorbell (s : State) (f ring : Nat) : State := (s.setBit (CLRK_RING_STATUS f) ring true).post f 0x8001 ring 0 0

/-- A submission doorbell of the owner. -/
def State.ringSq (s : State) (f p v : Nat) : State :=
  let t := BitVec.ofNat 32 v
  let d := 2 ^ s.getF (CLRK_SQ_CTRL f p) CLRK_SQ_CTRL_LOG2_DEPTH
  if s.getF (CLRK_SQ_CTRL f p) CLRK_SQ_CTRL_EN = 1 ∧ within t (s.sqTail f p) d = true ∧ within t (BitVec.ofNat 32 (s.reg (CLRK_SQ_HEAD f p))) d = true then
    s.setFn f { s.fnState f with tails := (s.fnState f).tails.set p t }
  else s.badDoorbell f p

/-- A completion doorbell of the owner: slots come free, and what is held is written. -/
def State.ringCq (s : State) (f v : Nat) : State :=
  let h := BitVec.ofNat 32 v
  let d := s.cqDepth f
  if s.cqOn f = true ∧ within h (s.fnState f).cqHead d = true ∧ within (BitVec.ofNat 32 (s.reg (CLRK_CQ_TAIL f))) h d = true then
    (s.setFn f { s.fnState f with cqHead := h }).flushHeld f
  else s.badDoorbell f 3

/-- DOORBELL_SQ (R50). -/
def execDoorbellSq (writer fn ring value : Nat) (s : State) : Host.Outcome State Fault Refusal :=
  .next (if 2 < ring then s else s.ringWrite writer fn (CLRK_DB_SQ fn ring) value (fun t => t.ringSq fn ring value))

/-- DOORBELL_CQ (R50). -/
def execDoorbellCq (writer fn value : Nat) (s : State) : Host.Outcome State Fault Refusal :=
  .next (s.ringWrite writer fn (CLRK_DB_CQ fn) value (fun t => t.ringCq fn value))

/-! ### Fetching (R49, R57, R63, R602) -/

/-- FAB_FORWARD (0x0B02, R502): DEST, then the packet to deliver. -/
def cmdFabForward : Cmd := ⟨0x0B02, .manager, 0, some (72, 72), [⟨16, 1, .rng 0 63⟩, ⟨17, 7, .zero⟩]⟩

/-- The command rows of the packet opcodes. -/
def commands : List Cmd :=
  [cmdSysNop, cmdSysGetCaps, cmdSysFence, cmdSysSlipAcquire, cmdSysSlipRelease, cmdSysSlipClear, cmdSysSlipGrant, cmdSysSlipQuery] ++
  [cmdInstCreate, cmdInstDestroy, cmdInstResize, cmdInstFreeze, cmdInstThaw, cmdInstSave, cmdInstRestore, cmdInstTakeover] ++
  [cmdShmAlloc, cmdShmFree, cmdShmAllocSparse, cmdShmSetResidency, cmdShmHint, cmdShmUpload, cmdShmDownload, cmdShmQuery, cmdMemSetRegion,
   cmdMemSetReserve, cmdMemLockBank, cmdMemUnlockBank] ++
  [cmdRndCompile, cmdRndPass, cmdRndDispatch, cmdRndSetArena, cmdBndSetLayer, cmdBndFlip, cmdBndSetLut, cmdBndSetPose] ++
  [cmdOutSetTiming, cmdOutAux, cmdCollAssignUnit, cmdCollCompute, cmdCollSetWindow, cmdCollExpect] ++
  [cmdTchSetPanel, cmdTchSetRegion, cmdTchRecalibrate, cmdTchCapture, cmdTchSetWake] ++
  [cmdHapSetChannel, cmdHapLoadEffect, cmdHapPlay, cmdHapStop, cmdHapCalibrate] ++
  [cmdAudSetPort, cmdAudSetEndpoint, cmdAudSetNode, cmdAudSetRoute, cmdAudCommit] ++
  [cmdPwrVote, cmdPwrClearFail, cmdPwrMemIdlePermit, cmdPwrSetState, cmdFabSetRole, cmdFabForward, cmdFabSetRelay, cmdFabWake, cmdFabQuery] ++
  [cmdLedgRead, cmdLedgSetCalendar, cmdLedgFlush, cmdLedgGetCalendar, cmdPmuSetCounter, cmdPmuControl, cmdPmuSetSamples, cmdPmuSetDump] ++
  [cmdFwStage, cmdFwSwitch, cmdStrgGetInfo, cmdStrgSetTelltale, cmdStrgChime, cmdStrgHandover, cmdStrgKeyLoad, cmdStrgPermitTiming]

/-- The row of an opcode. -/
def commandOf (op : Nat) : Option Cmd := commands.find? (fun c => decide (c.op = op))

/-- The Clerk cores that run: neither reset (R521) nor halted by the debugger (R552). -/
def State.coresUp (s : State) : List Nat :=
  (List.range 4).filter (fun c => decide (s.getF (DBG_CORE_CTRL c) DBG_CORE_CTRL_HALTED = 0) && !s.err.coresDown.contains c)

/-- Does the Clerk fetch at all: ACTIVE, no entry to another state in progress (R456), running, with a core to do it? -/
def State.clerkFetches (s : State) : Bool :=
  decide (s.getF PCU_STATE PCU_STATE_STATE = 3) && s.pwr.entry.isNone && s.clerkRuns && decide (s.coresUp ≠ [])

/-- Packets wait in a submission ring. -/
def State.sqWaits (s : State) (f p : Nat) : Bool :=
  decide (s.getF (CLRK_SQ_CTRL f p) CLRK_SQ_CTRL_EN = 1) && decide (s.sqTail f p ≠ BitVec.ofNat 32 (s.reg (CLRK_SQ_HEAD f p)))

/-- May a packet of the function be fetched: packets wait, its ring runs with a slot to reserve and nothing held, its link is up, its instance runs? -/
def State.mayFetch (s : State) (f : Nat) : Bool :=
  (List.range 3).any (s.sqWaits f) && s.cqOn f && s.linkUp f && decide ((s.fnState f).heldReplies = []) && decide (0 < s.spareSlots f) &&
    (!isInst f || decide ((s.inst f).state = .running))

/-- The ring the next packet of a function comes from (R63). -/
def State.nextRing (s : State) (f : Nat) : Option Nat :=
  let x := s.fnState f
  if s.sqWaits f 1 ∧ 8 ≤ x.runHigh then some 1
  else if s.sqWaits f 2 ∧ 8 ≤ x.runUpper then some 2
  else (List.range 3).find? (s.sqWaits f)

/-- The runs of fetches after one from a ring. -/
def FnState.afterFetch (x : FnState) (p : Nat) : FnState :=
  if p = 0 then { x with runHigh := min 8 (x.runHigh + 1), runUpper := min 8 (x.runUpper + 1) }
  else if p = 1 then { x with runHigh := 0, runUpper := min 8 (x.runUpper + 1) }
  else { x with runHigh := 0, runUpper := 0 }

/-- The visits of a round, as function and 1,024 more for a second visit, which the holder of the C1 right has. -/
def State.visits (s : State) : List Nat :=
  let fs := (s.fns.map Prod.fst).filter s.mayFetch
  fs ++ (fs.filter (fun f => isInst f && (s.inst f).c1)).map (fun f => 1024 + f)

/-- The visit the next fetch belongs to: the present one for up to 4 packets, else the next of the round with packets, else the first. -/
def State.nextVisit (s : State) : Option Nat :=
  let v := s.visits
  if s.rrTaken < 4 ∧ v.contains s.rrPos = true then some s.rrPos
  else match v.find? (fun k => decide (s.rrPos < k)) with
    | some k => some k
    | none => v.head?

/-- A packet that has been copied out of its ring meets steps 1 to 6 of Table 2.21. -/
def State.takePacket (s : State) (op : Nat) (pk : Pkt) (block : Option (List Byte)) : State :=
  let bad := match commandOf op with
    | none => firstFail [⟨pk.fn < 128, .notPermitted, 0⟩, ⟨false, .badOpcode, 0⟩]
    | some c => firstFail (headerChecks c pk s)
  let s' := (s.readBlock pk bad).fetched op pk (match block with
    | some b => b
    | none => if usesBlock pk ∧ bad.isNone then paramBytes pk s else [])
  match bad with
  | some e => s'.complete pk e.1 e.2
  | none => s'

/-- CLRK_FETCH_PACKET (R49, R57, R63): the Clerk fetches the next packet, whose slot in host memory holds `slot`, and the notices that wait for it are
told. -/
def execClrkFetchPacket (slot : List Byte) (s : State) : Host.Outcome State Fault Refusal :=
  .next (if ¬ s.clerkFetches then s
  else match s.nextVisit with
    | none => s
    | some k =>
      let f := k % 1024
      match s.nextRing f with
      | none => s
      | some p =>
        let s := { s with rrTaken := if k = s.rrPos ∧ s.rrTaken < 4 then s.rrTaken + 1 else 1, rrPos := k }
        let s := (s.setFn f ((s.fnState f).afterFetch p)).setReg (CLRK_SQ_HEAD f p) (s.reg (CLRK_SQ_HEAD f p) + 1)
        let q := packetOf f p (slice slot 0 64)
        s.takePacket q.1 q.2 none)

/-- COMMAND_TIMEOUT (R66): the timeout of a packet that has not committed has passed. A host buffer it wrote is undefined (R119), and the slot a FW_STAGE
was to fill is empty (R568). -/
def execCommandTimeout (pk : Pkt) (s : State) : Host.Outcome State Fault Refusal :=
  .next (match s.flightOf pk with
    | some f =>
      if f.committed ∨ s.clerkStopped = true then s
      else
        let s := s.spoilBuffer pk
        if f.op = 0x0E01 then (s.forget pk).stageFails pk .timedOut 0 else s.endPkt pk .timedOut 0
    | none => s)

/-- COALESCE_TIMEOUT (R67): COAL_TIME has passed since the first unsignalled reply. -/
def execCoalesceTimeout (fn : Nat) (s : State) : Host.Outcome State Fault Refusal :=
  .next (if 0 < (s.fnState fn).unsignalled ∧ s.getF (CLRK_CQ_CTRL fn) CLRK_CQ_CTRL_COAL_TIME ≠ 0 ∧ s.linkUp fn = true then s.signalReplies fn else s)

/-! ### Host links (R42, R440, R602) -/

/-- The functions of a port: its physical function, the instances bound to it, its other virtual functions. -/
def State.portFns (s : State) (port : Nat) : List Nat :=
  (65 * port) :: (s.liveInsts.filter (fun n => decide ((s.inst n).port = port)) ++
    (s.fns.map Prod.fst).filter (fun f => decide (128 + 64 * port ≤ f) && decide (f < 192 + 64 * port)))

/-- The state of a port's link changes: shown, told to the manager (Table 2.28). -/
def State.hostLink (s : State) (port up speed width : Nat) : State :=
  let a := HOST_LINK_STATUS port
  let s := ((s.setF a HOST_LINK_STATUS_UP up).setF a HOST_LINK_STATUS_SPEED speed).setF a HOST_LINK_STATUS_WIDTH width
  (s.showStandby).postMgr 0x8006 port (s.reg a) 0

/-- HOST_LINK_DOWN (R602): from now on what falls due for the port's functions is held. -/
def execHostLinkDown (port : Nat) (s : State) : Host.Outcome State Fault Refusal :=
  .next (if port < 2 ∧ s.getF (HOST_LINK_STATUS port) HOST_LINK_STATUS_UP = 1 then s.hostLink port 0 0 0 else s)

/-- HOST_LINK_UP (R602): with HOST up and PERST# released a link trains; what was held is written in order. -/
def execHostLinkUp (port speed width : Nat) (s : State) : Host.Outcome State Fault Refusal :=
  .next (if port < 2 ∧ s.domainUp 3 ∧ s.getF (HOST_LINK_STATUS port) HOST_LINK_STATUS_PERST = 0 ∧ s.getF (HOST_LINK_STATUS port) HOST_LINK_STATUS_UP = 0 ∧
      1 ≤ speed ∧ speed ≤ 5 ∧ (width = 4 ∨ width = 8) then
    let s := s.hostLink port 1 speed width
    (s.portFns port).foldl (fun (t : State) f => t.flushHeld f) s
  else s)

/-- PERST_ASSERT (R42): the port's link goes down and its functions are reset; on the manager's port it also asks for a recovery reset, which acts only
in the safe state and while CLRK_DOWN is set (R528). -/
def execPerstAssert (port : Nat) (s : State) : Host.Outcome State Fault Refusal :=
  .next (if 2 ≤ port ∨ s.getF (HOST_LINK_STATUS port) HOST_LINK_STATUS_PERST = 1 then s
  else
    let s := s.setF (HOST_LINK_STATUS port) HOST_LINK_STATUS_PERST 1
    let s := if s.getF (HOST_LINK_STATUS port) HOST_LINK_STATUS_UP = 1 then s.hostLink port 0 0 0 else s
    let s := (s.portFns port).foldl (fun (t : State) f => if isInst f then t.resetBound f else t.loseRings f (t.ownerOf f)) s
    if s.mgrFn = 65 * port ∧ s.clerkStopped = true then s.recoveryReset else s)

/-- PERST_RELEASE (R440): a wake command in DORMANT and HAIRSPRING; the link may train. -/
def execPerstRelease (port : Nat) (s : State) : Host.Outcome State Fault Refusal :=
  .next (if 2 ≤ port ∨ s.pwr.off = true ∨ s.getF (HOST_LINK_STATUS port) HOST_LINK_STATUS_PERST = 0 then s
  else (s.setF (HOST_LINK_STATUS port) HOST_LINK_STATUS_PERST 0).beginWake (2 + port))

/-! ### Packets over the management tree (R490, R501, R502) -/

/-- FLIT_MGMT_PACKET (R501): a worker takes a packet from its fabric manager, with the block it carries, and says that it has accepted it. -/
def execFlitMgmtPacket (tag : Nat) (packet block : List Byte) (s : State) : Host.Outcome State Fault Refusal := if s.safe then .next s else
  .next (if ¬ s.fab.worker ∨ s.domainUp 18 = false ∨ ¬ s.clerkFetches then s
  else
    let q := packetOf fabricFn tag (slice packet 0 64)
    (s.emit (.fabric 0 tag (.reply q.2.seq .ok 0 s.now 0 0))).takePacket q.1 q.2
      (some (if usesBlock q.2 then slice block 0 (blockLength q.2) else [])))

/-- Steps 2 to 5 of Table 2.21 for the packet to deliver. -/
def forwardable (q : Nat × Pkt) : Bool :=
  decide (q.2.flags.toNat < 8) && decide (q.2.rsv = 0) && decide (q.2.timeout ≤ 60000000) && decide (q.2.plen ≤ 6) &&
    (commandOf q.1).all (fun c => lengthOk c q.2)

/-- The packet a FAB_FORWARD delivers. -/
def forwardOf (p : List Byte) : Nat × Pkt := packetOf fabricFn 0 (slice p 8 64)

/-- What FAB_FORWARD adds to the shared validation. -/
def hooksFabForward (pk : Pkt) (s : State) : Hooks :=
  { dyn := fun p => [(1, decide (par p 16 1 ≠ s.getF FAB_STATUS FAB_STATUS_ADDR))]
    more := fun p => [⟨forwardable (forwardOf p), .outOfRange, 3⟩] ++ (blockChecks { (forwardOf p).2 with fn := pk.fn } s).map (fun c => { c with detail := 3 })
    pre := fun _ => fabPre s ++ [⟨s.getF FAB_STATUS FAB_STATUS_FM = 1, .notPermitted, 2⟩]
    post := fun p => [⟨s.fab.reach.contains (s.uidOf (par p 16 1)), .linkDown, 1⟩] }

/-- The effect of FAB_FORWARD once it is admitted. -/
def effFabForward (pk : Pkt) (p : List Byte) (t : State) : State :=
  if t.fab.deliveries.any (fun d => decide (d.1 = pk)) then t
  else
    let tag := (t.fab.tag + 1) % 65536
    let q := { (forwardOf p).2 with fn := pk.fn }
    ({ t with fab := { t.fab with tag := tag, deliveries := t.fab.deliveries ++ [(pk, tag)] } }).emit
      (.mgmt (par p 16 1) tag (slice p 8 64)
        (if usesBlock q then t.objBytes (handleIndex (blockHandle q)) (blockOffset q) (blockLength q) else []))

/-- FAB_FORWARD (R502): the packet goes down the tree with a block of its sender's; it commits when the worker has accepted it (FLIT_MGMT_REPLY). -/
def execFabForward (pk : Pkt) (s : State) : Host.Outcome State Fault Refusal :=
  .next (runPkt cmdFabForward pk s (hooksFabForward pk s) (effFabForward pk))

end Sys2Proof.Machine
end

