-- ==== Sys2Proof/Machine/Access.lean ====
section
/-! DEFINITION. Register accesses of the hosts (R13 to R17, R45, R97, R441, R564, R599): who sees a register, what a read returns and clears, what a
write changes. Addresses are those of the manager's map and of the pages keyed above it (assumption 3). -/

namespace Sys2Proof.Machine

/-! ### The address space -/

/-- Is the address inside the manager's BAR0 or a page keyed above it? -/
def addressExists (a : Nat) : Bool :=
  decide (a < 0x1000000) || (decide (0x2000000 ≤ a) && decide (a < 0x2010000)) || (decide (0x2800000 ≤ a) && decide (a < 0x2900000)) ||
    (decide (0x3000000 ≤ a) && decide (a < 0x3042000)) || (decide (0x4000000 ≤ a) && decide (a < 0x4084000)) ||
    (decide (0x5000000 ≤ a) && decide (a < 0x5042000))

/-- Is it one of a function that may access registers: a physical function, an instance, a virtual function with no instance? -/
def isFunction (f : Nat) : Bool := decide (f ≤ 65) || (decide (128 ≤ f) && decide (f < 256))

/-- The function whose ring register set holds the address. -/
def ringFn (a : Nat) : Option Nat :=
  if 0x38000 ≤ a ∧ a < 0x38000 + 66 * 0x100 then some ((a - 0x38000) / 0x100)
  else if 0x2008000 ≤ a ∧ a < 0x2010000 then some ((a - 0x2000000) / 0x100)
  else none

/-- The function whose doorbell page holds it. -/
def bellFn (a : Nat) : Option Nat :=
  if 0x800000 ≤ a ∧ a < 0x842000 then some ((a - 0x800000) / 0x1000)
  else if 0x2880000 ≤ a ∧ a < 0x2900000 then some ((a - 0x2800000) / 0x1000)
  else none

/-- The owner whose page above the map holds it. -/
def pageOwner (a : Nat) : Option Nat :=
  if 0x3000000 ≤ a ∧ a < 0x3042000 then some ((a - 0x3000000) / 0x1000)
  else if 0x4000000 ≤ a ∧ a < 0x4084000 then some ((a - 0x4000000) / 0x2000)
  else if 0x5000000 ≤ a ∧ a < 0x5042000 then some ((a - 0x5000000) / 0x1000)
  else none

/-- The index of an element of an array of `n` blocks of `d` bytes. -/
def blockIndex (base d n a : Nat) : Option Nat := if base ≤ a ∧ (a - base) / d < n then some ((a - base) / d) else none

/-- The owner of the unit whose register stands at the address: the instance that has the unit, else the manager (0). -/
def State.ownerAt (s : State) (a : Nat) : Nat :=
  match blockIndex 0x100000 0x100 8 a, blockIndex 0x140000 0x4000 8 a, blockIndex 0x181000 0x40 32 a, blockIndex 0x184000 0x400 8 a with
  | some k, _, _, _ => s.outOwner k
  | _, some k, _, _ => s.outOwner k
  | _, _, some n, _ => s.cvuHolder n
  | _, _, _, some k => s.outOwner k
  | _, _, _, _ =>
  match blockIndex 0x300000 0x100 8 a, blockIndex 0x341000 0x10 64 a, blockIndex 0x342000 0x10 128 a, blockIndex 0x400100 0x10 64 a with
  | some c, _, _, _ => s.hapOwner c
  | _, some e, _, _ => ((s.audEp e).cfg.map AudEpCfg.owner).getD 0
  | _, _, some n, _ => ((s.aud.nodes.find? (fun p => p.2.phys = n)).map (fun p => p.1 / 128)).getD 0
  | _, _, _, some n => s.getF (PMU_CNT_CFG n) PMU_CNT_CFG_HOLDER
  | _, _, _, _ => (pageOwner a).getD 0

/-- Does an instance see the register of a unit granted to it (R45 and the visibility rule of each chapter)? -/
def State.instanceSees (s : State) (n a : Nat) : Bool :=
  match blockIndex 0x100000 0x100 8 a, blockIndex 0x184000 0x40 128 a, blockIndex 0x341000 0x10 64 a with
  | some k, _, _ => decide (s.outOwner k = n) && (decide (a = BND_BG k) || decide (a = BND_STATUS k))
  | _, some j, _ => decide (s.outOwner (j / 16) = n) || (s.win j).cfg.any (fun c => decide (c.supplier = n))
  | _, _, some e => s.mayRoute n e
  | _, _, _ => decide (0 < n) && decide (s.ownerAt a = n)

/-- Does a reader or writer see the register at an address? The manager, and the Crown port in its place, sees its map; the standby the same without the STRG
block (R97); an instance its own ring set, doorbell page and units; a function with no instance its own ring set and doorbell page. -/
def State.sees (s : State) (r a : Nat) : Bool :=
  if (ringFn a).any (fun f => s.isFn r f) || (bellFn a).any (fun f => s.isFn r f) then true
  else if s.writerOwner r = 0 then decide (a < 0x1000000) || decide (pageOwner a = some 0)
  else if r = s.standbyFn then decide (a < 0x1000000) && !(decide (0x280000 ≤ a) && decide (a < 0x2C0000))
  else isInst r && s.instanceSees r a

/-- Is it a register of a unit in the secure world, which reads as zero (R346)? -/
def State.secureUnit (s : State) (a : Nat) : Bool :=
  match blockIndex 0x2C0000 0x400 4 a, blockIndex 0x300000 0x100 8 a, blockIndex 0x340100 4 8 a, blockIndex 0x181000 0x40 32 a with
  | some n, _, _, _ => (s.getF STRG_BOUND STRG_BOUND_TCH).testBit n
  | _, some n, _, _ => (s.getF STRG_BOUND STRG_BOUND_HAP).testBit n
  | _, _, some n, _ => (s.getF STRG_BOUND STRG_BOUND_TDM).testBit n
  | _, _, _, some n => s.cvuSecure n
  | _, _, _, _ => false

/-! ### Reads -/

/-- The bits of a field. -/
def FieldSpec.mask (f : FieldSpec) : Nat := 2 ^ (f.hi + 1) - 2 ^ f.lo

/-- The bits of the fields of a register that satisfy a test. -/
def maskOf (a : Nat) (p : FieldSpec → Bool) : Nat := (((fieldsAt a).filter p).map FieldSpec.mask).foldl (· ||| ·) 0

/-- The register whose _SNAP companion stands at an address (R599). -/
def snapOf (a : Nat) : Option RegSpec := regTable.find? (fun r => decide (0 < r.snap) && decide (r.snap ≤ a) && (r.index (a - r.snap)).isSome)

/-- The low words of 64-bit quantities (R16): first address and dimensions. -/
def lowWords : List (Nat × List (Nat × Nat)) :=
  [(0x38000, [(66, 0x100), (4, 0x10)]), (REGR_EPOCH_LO, []), (BND_POSE_TIME_LO, []), (OUT_FRAME_LO 0, [(8, 0x4000)]), (OUT_LATCH_TIME_LO 0, [(8, 0x4000)]),
   (HAP_CYCLES_LO 0, [(8, 0x100)]), (LEDG_CAL_LO, []), (LEDG_OFFSET_LO, []), (FAB_TIME_LO, []), (PMU_CNT_LO 0, [(64, 0x10)]), (PMU_FIX_LO 0, [(8, 0x8)]),
   (DBG_MEM_BASE_LO, []), (DBG_BP_ADDR_LO 0, [(4, 0x10)]), (DBG_SBP_KEY_LO 0, [(8, 0x10)])]

/-- Is it the low word of a 64-bit quantity? -/
def isLowWord (a : Nat) : Bool := lowWords.any (fun w => decide (w.1 ≤ canonAddr a) && (indexOf w.2 (canonAddr a - w.1)).isSome)

/-- What a register shows to a reader that sees it: its _SNAP as kept, a WO field as zero (R13), the reader's own CAP_LIST_GEN and list (R77, R79). -/
def State.shows (s : State) (r a : Nat) : Nat :=
  if a = CAP_LIST_GEN then (s.fnState r).capGen
  else if 0x1000 ≤ a ∧ a < 0x2000 then leNat (slice (s.capList r) (a - 0x1000) 4)
  else if (snapOf a).isSome ∨ a = DBG_WAVE_STATUS then s.view a
  else s.view a &&& maskOf a (fun f => decide (f.acc ≠ .wo))

/-- The value a read of the aligned word at `a` returns: all ones in DORMANT (R441), zero until a boot has reached step 8 (R564), for what the reader does
not see (R17, R45) and for a unit in the secure world; the high word of a 64-bit quantity as it was when its low word was read (R16). -/
def State.readWord (s : State) (r a : Nat) : Nat :=
  if s.dormant then 0xFFFFFFFF
  else if s.getF PCU_STATE PCU_STATE_STATE = 1 then 0
  else if a = CAP_LIST_GEN ∨ (0x1000 ≤ a ∧ a < 0x2000) then s.shows r a
  else if ¬ s.sees r a ∨ s.secureUnit a then 0
  else match tabGet (fun _ => none) s.wideHigh a with
    | some v => v.toNat
    | none => s.shows r a

/-- Does a read reach the register itself? -/
def State.reaches (s : State) (r a : Nat) : Bool :=
  !s.dormant && decide (s.getF PCU_STATE PCU_STATE_STATE ≠ 1) && s.sees r a && !s.secureUnit a

/-- The state after a read returned `v`. What a busy register shows is open at each read. -/
def State.afterRead (s : State) (a v : Nat) : State :=
  { s with lastRead := v, wideHigh := tabSet (fun _ => none) s.wideHigh a none, freeCount := s.freeCount + 1 }

/-- A read clears the RC fields of the register, and on the MSD its _SNAP keeps the value (R13, R599). -/
def State.clearRc (s : State) (a : Nat) : State :=
  let m := maskOf a (fun f => decide (f.acc = .rc))
  if m = 0 then s
  else
    let v := s.view a
    let s := s.setReg a (s.reg a &&& (0xFFFFFFFF - m))
    match regAt a with
    | some x => if 0 < x.snap then s.setReg (a + x.snap) v else s
    | none => s

/-- RC_REGISTER_READ (R13, R599, KL-01): the value and then the clearing. Where the response of a read over the die-to-die link was `resent`, the resend finds
the register cleared. -/
def execRcRegisterRead (reader addr : Nat) (resent : Bool) (s : State) : Host.Outcome State Fault Refusal :=
  let a := addr / 4 * 4
  if ¬ addressExists a then .fault (.noSuchAddress addr)
  else if ¬ isFunction reader ∨ ¬ s.arrives reader then .next s
  else
    let msd := (regAt a).any (fun x => decide (0 < x.snap))
    let again := resent && msd && s.reaches reader a
    let v := s.readWord reader a
    let t := if s.reaches reader a then s.clearRc a else s
    .next ((if again then (t.count PCU_D2D_CRC_COUNT).count PCU_D2D_REPLAY_COUNT else t).afterRead a
      (if again then v &&& (0xFFFFFFFF - maskOf a (fun f => decide (f.acc = .rc))) else v))

/-- LOW_WORD_READ_LATCH (R16, Table 19.13): the high word is latched for its next read; word 0 of an error record latches the others. -/
def execLowWordReadLatch (reader addr : Nat) (s : State) : Host.Outcome State Fault Refusal :=
  if ¬ addressExists addr then .fault (.noSuchAddress addr)
  else if ¬ isFunction reader ∨ ¬ s.arrives reader then .next s
  else
    let v := s.readWord reader addr
    let t := if ¬ s.reaches reader addr then s
      else if isLowWord addr then
        { s with wideHigh := tabSet (fun _ => none) s.wideHigh (addr + 4) (some (BitVec.ofNat 32 (s.shows reader (addr + 4)))) }
      else match arrayIndex (HOST_ERR_REC_W 0 0) 0x20 64 addr with
        | some k =>
          let bs := ((s.errRec? k).map ErrRec.bytes).getD []
          { s with err := { s.err with latched := some (k, (List.range 8).map (fun j => BitVec.ofNat 32 (leNat (slice bs (4 * j) 4)))) } }
        | none => s
    .next (t.afterRead addr v)

/-! ### Writes of plain registers -/

/-- May a writer change a field of a unit's register (the Writer column, R14)? -/
def State.mayChange (s : State) (w a : Nat) (f : FieldSpec) : Bool :=
  match f.wr with
  | .hw => false
  | .s => false
  | .m => decide (s.writerOwner w = 0)
  | .i => decide (s.writerOwner w = s.ownerAt a)
  | .im => decide (s.writerOwner w = s.ownerAt a)
  | .crown => decide (w = crownWriter)

/-- A field after a write that takes effect (R13). -/
def written (old v : Nat) (f : FieldSpec) (acc : Nat) : Nat :=
  let x := bits v f.hi f.lo
  let y := bits old f.hi f.lo
  match f.acc with
  | .rw => setBits acc f.hi f.lo x
  | .rwl => setBits acc f.hi f.lo x
  | .w1c => setBits acc f.hi f.lo (y - (y &&& x))
  | .w1s => setBits acc f.hi f.lo (y ||| x)
  | .wo => acc
  | .ro => acc
  | .rc => acc

/-- The value of a register after a write that takes effect. -/
def newValue (a old v : Nat) : Nat := (fieldsAt a).foldl (fun acc f => written old v f acc) old

/-- The clock range of a sensor bus: SPI, I3C. -/
def busClockOk (i3c : Bool) (khz : Nat) : Bool := decide (1000 ≤ khz) && decide (khz ≤ if i3c then 12500 else 25000)

/-- Are the fields of a register inside the ranges its table states? -/
def State.fieldsOk (s : State) (a v : Nat) : Bool :=
  let inR := fun (x lo hi : Nat) => decide (lo ≤ x) && decide (x ≤ hi)
  if a = REGR_CTRL then inR (bits v 26 16) 0 1024 && inR (bits v 15 8) 1 255 && inR (bits v 7 0) 1 100
  else if a = REGR_CARREL_THRESH then inR (bits v 15 0) 1 65535
  else if a = MEM_CTRL then inR (bits v 15 0) 5 10000
  else if a = MEM_RETRAIN_CTRL then
    inR (bits v 23 16) 2 64 && inR (bits v 15 8) 1 64 && decide (bits v 15 8 ≤ bits v 23 16) && inR (bits v 7 0) 1 255
  else if a = MEM_SCRUB_CTRL then inR (bits v 15 0) 1 720
  else if a = ESC_CTRL then inR (bits v 26 24) 0 6 && inR (bits v 23 16) 8 255 && inR (bits v 11 8) 0 (min 8 (bits v 23 16 / 4))
  else if a = ESC_HOLD_CTRL then inR (bits v 15 0) 64 65535
  else if a = RND_WATCHDOG then inR (bits v 31 16) 100 10000 && inR (bits v 15 0) 1 10000
  else if a = TEX_CTRL then inR (bits v 4 0) 1 16
  else if a = TEX_RAY_CTRL then inR (bits v 15 0) 1 65535
  else if a = BND_MOTION_BUS then busClockOk (decide (s.getF BND_MOTION_CTRL BND_MOTION_CTRL_SRC = 2)) (bits v 15 0)
  else if a = HAP_BOOST_CTRL then
    inR (bits v 7 0) 60 110 && (List.range 8).all (fun c =>
      decide (s.getF (HAP_CFG c) HAP_CFG_ENABLE = 0) || decide (s.getF (HAP_CFG c) HAP_CFG_VMAX_V + 10 ≤ bits v 7 0))
  else if a = HAP_SENSOR_BUS then decide (bits v 31 30 ≠ 3) && busClockOk (decide (bits v 31 30 = 2)) (bits v 15 0)
  else if a = LEDG_SAG_CTRL then inR (bits v 8 0) 175 330
  else if a = HOST_ERR_CTRL then inR (bits v 4 0) 2 31
  else match blockIndex 0x140000 0x4000 8 a with
    | some k =>
      if a = OUT_CTRL k then decide (bits v 1 0 ≠ 3) && !(bit v 31 && decide (s.getF (BND_C0 k) BND_C0_C0_EN = 1))
      else if a = OUT_TE k then inR (bits v 9 0) 1 1000
      else if a = OUT_HPD k then inR (bits v 7 0) 1 250
      else true
    | none => true

/-- A HEAD written beyond its TAIL (R47). -/
def State.headOk (s : State) (head tail v : Nat) : Bool :=
  within (BitVec.ofNat 32 v) (BitVec.ofNat 32 (s.reg head)) (BitVec.ofNat 32 (s.reg tail) - BitVec.ofNat 32 (s.reg head)).toNat

/-- Consumer and host positions: a HEAD stays behind its TAIL; AUD_EP<e>_HOST_POS stays behind DEV_POS for a sink, and at most the depth before it for a
source (Tables 13.12, 15.11, 20.10). -/
def State.positionOk (s : State) (a v : Nat) : Bool :=
  if 0x4000000 ≤ a ∧ a < 0x4084000 ∧ a % 0x10 = 0 then s.headOk a (a + 4) v
  else if 0x5000000 ≤ a ∧ a < 0x5042000 ∧ (a % 0x1000 = 0x800 ∨ a % 0x1000 = 0x808) then s.headOk a (a + 4) v
  else match arrayIndex (AUD_EP_HOST_POS 0) 0x10 64 a with
    | some e =>
      match (s.audEp e).cfg with
      | some c =>
        if c.dir = 0 then within (BitVec.ofNat 32 v) (BitVec.ofNat 32 (s.reg (AUD_EP_DEV_POS e))) (2 ^ c.logDepth) else s.headOk a (AUD_EP_DEV_POS e) v
      | none => true
    | none => true

/-- The half of a 64-bit quantity that waits for its high word is stored (R16). -/
def State.holdLow (s : State) (a : Nat) (v : Option Nat) : State :=
  { s with wideLow := tabSet (fun _ => none) s.wideLow a (v.map (BitVec.ofNat 32)) }

/-- A write that its writer may make takes effect: the low word of a 64-bit quantity waits for the high word (R16). -/
def State.putPlain (s : State) (a v : Nat) : State :=
  let x := newValue a (s.reg a) v
  if isLowWord a then s.holdLow a (some x)
  else match tabGet (fun _ => none) s.wideLow (a - 4) with
    | some lo => if 4 ≤ a ∧ isLowWord (a - 4) then ((s.setReg (a - 4) lo.toNat).holdLow (a - 4) none).setReg a x else s.setReg a x
    | none => s.setReg a x

/-- A write to a register with no effect beyond its fields (R13, R14): discarded whole if it attempts to change a field its writer may not write, or puts a
field outside its range. -/
def State.writePlain (s : State) (w a v : Nat) : State :=
  s.gated w a (fun t =>
    if ¬ t.sees w a then t
    else if (fieldsAt a).any (fun f => !t.mayChange w a f && attempts (t.reg a) v f) then t.badWrite w a
    else if ¬ (t.fieldsOk a (newValue a (t.reg a) v) ∧ t.positionOk a v) then t.badWrite w a
    else t.putPlain a v)

/-! ### Writes with an effect of their own -/

/-- A direct write of a timing register of output `k` (R303): its fields only; discarded and counted where R303 does not allow it. -/
def State.writeTiming (s : State) (w k a v : Nat) : State :=
  s.regWrite w a (s.outOwner k) v (fun t =>
    match t.writeTimingReg k a (v &&& maskOf a (fun _ => true)) with
    | some u => u
    | none => t.badWrite w a)

/-- A write of OUTk_LATCH (R292, R305). -/
def State.writeLatch (s : State) (w k v : Nat) : State :=
  s.regWrite w (OUT_LATCH k) (s.outOwner k) v (fun t =>
    let r := t.writeAdvance k (bits v 22 16)
    if r.2 then r.1 else t.badWrite w (OUT_LATCH k))

/-- OUT_TIMING_REG_WRITE (R303, KL-04). -/
def execOutTimingRegWrite (writer addr value : Nat) (s : State) : Host.Outcome State Fault Refusal :=
  .next (match blockIndex 0x140000 0x4000 8 addr with
    | some k =>
      if [OUT_HACTIVE k, OUT_HPORCH k, OUT_HSYNC k, OUT_VACTIVE k, OUT_VPORCH k, OUT_VSYNC k].contains addr then s.writeTiming writer k addr value else s
    | none => s)

/-- OUT_ADVANCE_WRITE (R292). -/
def execOutAdvanceWrite (writer out value : Nat) (s : State) : Host.Outcome State Fault Refusal :=
  .next (if out < 8 then s.writeLatch writer out (value * 2 ^ 16) else s)

/-- A mailbox word (R95, R96): the sender writes it while its message is not waiting; else it is discarded and ERR set. -/
def State.writeMbox (s : State) (w f a v : Nat) : State :=
  s.gated w a (fun t =>
    let i2m := decide (a % 0x100 < 0xC0)
    let mine := if i2m then decide (w = f) else decide (t.writerOwner w = 0)
    if ¬ isInst f ∨ ¬ (t.writerOwner w = 0 ∨ w = f) then t
    else if ¬ mine then (if v = t.reg a then t else t.badWrite w a)
    else if (t.inst f).state = .absent then t.badWrite w a
    else if bit (t.reg (CLRK_MBOX_STATUS f)) (if i2m then 0 else 1) then t.setF (CLRK_MBOX_STATUS f) CLRK_MBOX_STATUS_ERR 1
    else t.setReg a v)

/-- CLRK_MBOX_STATUS (Table 3.18): the instance clears M2I_FULL, the manager I2M_FULL, either ERR. -/
def State.writeMboxStatus (s : State) (w f v : Nat) : State :=
  s.gated w (CLRK_MBOX_STATUS f) (fun t =>
    let b := 1 - t.mboxBit w
    if ¬ isInst f ∨ ¬ (t.writerOwner w = 0 ∨ w = f) then t
    else if (t.inst f).state = .absent ∨ bit v (1 - b) then (if v % 8 = 0 then t else t.badWrite w (CLRK_MBOX_STATUS f))
    else
      let t := if bit v 2 then t.setF (CLRK_MBOX_STATUS f) CLRK_MBOX_STATUS_ERR 0 else t
      if bit v b then t.clearFull f b else t)

/-- A write of CLRK_RING_STATUS: what is written 1 is cleared. -/
def State.clearRingStatus (s : State) (f v : Nat) : State :=
  s.setReg (CLRK_RING_STATUS f) (newValue (CLRK_RING_STATUS 0) (s.reg (CLRK_RING_STATUS f)) v)

/-- A base address (R16, R48): the low word waits for the high word; while EN is 1 neither changes. -/
def State.setBaseLow (s : State) (f ring a v : Nat) : State :=
  let on := if ring < 3 then bit (s.reg (CLRK_SQ_CTRL f ring)) 31 else s.cqOn f
  if on ∧ v / 4096 * 4096 ≠ s.reg a then s.cfgErr f else s.holdLow a (some (v / 4096 * 4096))
def State.setBaseHigh (s : State) (f ring a v : Nat) : State :=
  let low := tabGet (fun _ => none) s.wideLow (a - 4)
  let s := (s.holdLow (a - 4) none).setRingBase f ring a v
  match low with
  | some x => if s.reg a = v % 2 ^ 32 then s.setRingBase f ring (a - 4) x.toNat else s
  | none => s

/-- A write to the ring register set of function `f` at offset `o` (R46 to R49, R67, R95). -/
def State.writeRingSet (s : State) (w f a v : Nat) : State :=
  let o := a % 0x100
  let p := o / 0x10
  let own := fun (attempt : Nat) (g : State → State) => s.gated w a (fun t =>
    if t.isFn w f then g t else if t.writerOwner w = 0 ∧ attempt ≠ 0 then t.badWrite w a else t)
  let differs := v ^^^ s.reg a
  if o < 0x40 then
    if o % 0x10 = 0 then own (differs / 4096) (fun t => t.setBaseLow f p a v)
    else if o % 0x10 = 4 then own differs (fun t => t.setBaseHigh f p a v)
    else if o = 0x38 then own (differs &&& 0xC0FFFFFF) (fun t => t.setCqCtrl f v)
    else if o % 0x10 = 8 then own (differs &&& 0x8000001F) (fun t => t.setSqCtrl f p v)
    else s.gated w a id
  else if o = 0x40 then own (v % 32) (fun t => t.clearRingStatus f v)
  else if o = 0x48 ∨ o = 0x4C ∨ o = 0x50 then own (differs % 2 ^ 30) (fun t => t.setVecmap f ((o - 0x48) / 4) v)
  else if o = 0x60 then s.writeMboxStatus w f v
  else if 0x80 ≤ o then s.writeMbox w f a v
  else s.gated w a id

/-- A write to the doorbell page of function `f` (R50, R96). -/
def State.writeBell (s : State) (w f a v : Nat) : State :=
  let o := a % 0x1000
  if o < 0xC then s.ringWrite w f a v (fun t => t.ringSq f (o / 4) v)
  else if o = 0xC then s.ringWrite w f a v (fun t => t.ringCq f v)
  else if o = 0x10 ∧ bit v 0 then s.ringMbox w f
  else s.gated w a id

/-- A write to check-value unit `n` (R325 to R328). -/
def State.writeUnit (s : State) (w n a v : Nat) : State :=
  let o := a % 0x40
  if o = 0 then s.writeCvuCfg w n v
  else if o = 4 then s.writeCvuData w n a 1 v
  else if o = 8 then s.writeCvuData w n a 2 v
  else if o = 0xC then s.writeCvuData w n a 4 v
  else if o = 0x10 then s.writeCvuValue w n v
  else if o = 0x18 then s.writeCvuExpect w n v
  else if o = 0x20 then (if 512 ≤ v then s.cvuWrite w n a v (fun t => t.badWrite w a) else s.writeCvuAlive w n v)
  else if o = 0x24 then s.cvuWrite w n a v (fun t => t.setReg a (newValue a (t.reg a) v))
  else s.gated w a id

/-- The Strongroom's request window (R354, R367): its packet words while no request runs, its doorbell. -/
def State.writeWindow (s : State) (w a v : Nat) : State :=
  if a = STRG_REQ_DB then
    if v = 1 then (match execStrgReqDoorbell w s with
      | .next t => t
      | _ => s)
    else s.regWrite w a 0 v (fun t => if v = 0 then t else t.badWrite w a)
  else s.regWrite w a 0 v (fun t => if t.getF STRG_REQ_STATUS STRG_REQ_STATUS_BUSY = 1 then t.badWrite w a else t.setReg a v)

/-- HOST_ERR_ACK (Table 19.10): a value outside the stated ones is discarded and counted. -/
def State.writeErrAck (s : State) (w v : Nat) : State :=
  s.regWrite w HOST_ERR_ACK 0 v (fun t =>
    if bits v 30 16 ≠ 0 then t.badWrite w HOST_ERR_ACK
    else t.ackRecords (fun q => bit v 31 || decide (q = v % 2 ^ 16)))

/-- TCH_WAKE_STATUS: clearing PENDING releases WAKE# (R390). -/
def State.writeWakeStatus (s : State) (w v : Nat) : State :=
  s.regWrite w TCH_WAKE_STATUS 0 v (fun t =>
    if bit v 31 then
      let t := t.setF TCH_WAKE_STATUS TCH_WAKE_STATUS_PENDING 0
      { t with tch := { t.tch with wakePin := false } }
    else t)

/-- An aligned write of 32 bits by a function (R14). -/
def State.writeReg (s : State) (w a v : Nat) : State :=
  match ringFn a, bellFn a, blockIndex 0x181000 0x40 32 a, blockIndex 0x140000 0x4000 8 a with
  | some f, _, _, _ => s.writeRingSet w f a v
  | _, some f, _, _ => s.writeBell w f a v
  | _, _, some n, _ => s.writeUnit w n a v
  | _, _, _, some k =>
    if a = OUT_LATCH k then s.writeLatch w k v
    else if [OUT_HACTIVE k, OUT_HPORCH k, OUT_HSYNC k, OUT_VACTIVE k, OUT_VPORCH k, OUT_VSYNC k].contains a then s.writeTiming w k a v
    else s.writePlain w a v
  | _, _, _, _ =>
    if a = INST_MGR_CTRL then s.writeMgrCtrl w v
    else if a = MEM_FOLIO_INJECT then s.writeInject w v
    else if a = FAB_CTRL then s.writeFabCtrl w v
    else if a = FAB_RELAY_HEAD then s.writeRelayHead w v
    else if a = PCU_WAKE then s.writePcuWake w v
    else if a = HOST_SAFE_CTRL then s.writeSafeCtrl w v
    else if a = HOST_ERR_ACK then s.writeErrAck w v
    else if a = TCH_WAKE_STATUS then s.writeWakeStatus w v
    else if a = STRG_REQ_DB ∨ (arrayIndex (STRG_REQ_PKT 0) 4 16 a).isSome then s.writeWindow w a v
    else s.writePlain w a v

/-- REGISTER_WRITE (R13 to R17): a write of any size but 32 bits, or not aligned, is discarded and counted. -/
def execRegisterWrite (writer addr size value : Nat) (s : State) : Host.Outcome State Fault Refusal :=
  let v := value % 2 ^ 32
  if ¬ addressExists addr then .fault (.noSuchAddress addr)
  else if ¬ isFunction writer then .next s
  else if size ≠ 4 ∨ addr % 4 ≠ 0 then .next (s.gated writer (addr / 4 * 4) (fun t => if t.sees writer (addr / 4 * 4) then t.badWrite writer addr else t))
  else .next (s.writeReg writer addr v)

end Sys2Proof.Machine
end

