-- ==== Sys2Proof/Machine/Crown.lean ====
section
/-! DEFINITION. The Crown debug port (R546 to R554): frames, levels and authentication, what the port reaches, halts of Clerk cores, of shader clusters and
of the Strongroom core. The bits on the pins are not modelled: a request arrives whole. -/

namespace Sys2Proof.Machine

/-! ### Levels -/

/-- The session level: 0 LOCKED, 1 NORMAL, 2 SECURE. -/
def State.level (s : State) : Nat := s.getF DBG_CROWN_STATUS DBG_CROWN_STATUS_LEVEL

/-- The session ends: LOCKED, and the votes of voter 68 are withdrawn (R548, R551). -/
def State.endSession (s : State) : State :=
  (((s.setF DBG_CROWN_STATUS DBG_CROWN_STATUS_LEVEL 0).setF DBG_CROWN_STATUS DBG_CROWN_STATUS_AUTH 0).setReg DBG_VOTE 0).withdrawVotes 68 0

/-- The highest level the OTP debug lock permits (R548). -/
def levelCap : Nat := 2 - Config.debugLock.toNat

/-! ### Transactions (R547) -/

/-- What a request comes to: the state, the reason of a fault (0: none), the words read. -/
abbrev Answer := State × Nat × List Nat

/-- The answer of a request that faults. -/
def refuse (s : State) (reason : Nat) : Answer := (s.setF DBG_CROWN_STATUS DBG_CROWN_STATUS_FAULT reason, reason, [])

/-- Two requests identical in every bit. -/
def sameFrame (f g : CrownFrame) : Bool := decide (f.count = g.count ∧ f.addr = g.addr ∧ f.words = g.words)

/-- The STATUS byte: DONE or REFUSED. -/
def statusOf (reason : Nat) : Nat := if reason = 0 then 0x00 else 0xCC

/-- One transaction (R547): no response to a bad CRC or COUNT, nor in OFF; the result of a request that was answered AGAIN is returned when it comes
again, without acting; a result not ready in time is kept. -/
def State.transact (s : State) (op : Nat) (f : CrownFrame) (countOk : Bool) (act : State → Answer) : State :=
  if s.pwr.off ∨ f.crcOk = false ∨ countOk = false then s
  else
    let fresh := fun (t : State) =>
      let r := act t
      if f.late then ({ r.1 with dbg := { r.1.dbg with again := some (op, f, statusOf r.2.1, r.2.2) } }).emit (.crown 0x33 [])
      else r.1.emit (.crown (statusOf r.2.1) r.2.2)
    match s.dbg.again with
    | some (o, g, st, ws) =>
      let t := { s with dbg := { s.dbg with again := none } }
      if o = op ∧ sameFrame f g then t.emit (.crown st ws) else fresh t
    | none => fresh s

/-- CROWN_ID (R4, R547): IDCODE (Table 0.2), UID, DBG_CROWN_STATUS. -/
def execCrownId (f : CrownFrame) (s : State) : Host.Outcome State Fault Refusal :=
  .next (s.transact 1 f (f.count = 4) (fun t =>
    (t, 0, [0x1 * 2 ^ 28 + 0x0880 * 2 ^ 12 + 0x5A3 * 2 + 1, Config.uid.toNat % 2 ^ 32, Config.uid.toNat / 2 ^ 32, t.view DBG_CROWN_STATUS])))

/-- Free values as the bytes of a nonce. -/
def State.freshBytes : Nat → State → List Byte × State
  | 0, s => ([], s)
  | n + 1, s =>
    let x := s.fresh
    let r := freshBytes n x.2
    (leBytes 8 x.1 ++ r.1, r.2)

/-- The words of bytes. -/
def wordsOf (n : Nat) (b : List Byte) : List Nat := (List.range n).map (fun i => leNat (slice b (4 * i) 4))

/-- CROWN_CHALLENGE (R549): a nonce for one attempt at a level. -/
def execCrownChallenge (f : CrownFrame) (s : State) : Host.Outcome State Fault Refusal :=
  .next (s.transact 2 f (f.count = 11) (fun t =>
    if t.dbg.lockout then refuse t 7
    else if t.getF PCU_STATE PCU_STATE_STATE ≠ 3 ∨ t.domainUp 1 = false then refuse t 6
    else if f.addr = 0 ∨ levelCap < f.addr then refuse t 1
    else
      let r := t.freshBytes 4
      ({ r.2 with dbg := { r.2.dbg with nonce := some (r.1, f.addr), sig := [] } }, 0,
        wordsOf 8 r.1 ++ [Config.uid.toNat % 2 ^ 32, Config.uid.toNat / 2 ^ 32, f.addr])))

/-- CROWN_RESPONSE (R549): half of the signature; with both the Strongroom begins to verify it, which uses the nonce up. -/
def execCrownResponse (f : CrownFrame) (s : State) : Host.Outcome State Fault Refusal :=
  .next (s.transact 3 f (decide (f.count = 12) && decide (f.words.length = 12)) (fun t =>
    if t.domainUp 1 = false then refuse t 6
    else if f.addr ≠ 0 ∧ f.addr ≠ 12 then refuse t 1
    else
      let t := { t with dbg := { t.dbg with sig := tabSet (fun _ => []) t.dbg.sig f.addr f.words } }
      match t.dbg.nonce with
      | some x =>
        if tabGet (fun _ => []) t.dbg.sig 0 ≠ [] ∧ tabGet (fun _ => []) t.dbg.sig 12 ≠ [] then
          (({ t with dbg := { t.dbg with nonce := none, verifying := some x } }).setF DBG_CROWN_STATUS DBG_CROWN_STATUS_AUTH 2, 0, [])
        else (t, 0, [])
      | none => (t, 0, [])))

/-- The signed bytes: "CRWN", UID, nonce, level. -/
def crownMessage (nonce : List Byte) (level : Nat) : List Byte :=
  [0x43, 0x52, 0x57, 0x4E] ++ leBytes 8 Config.uid.toNat ++ nonce ++ leBytes 1 level

/-- CROWN_AUTH_VERIFIED (R549, R550): the level is granted and the manager told, or refused; after three refusals CHALLENGE faults for 10 s. -/
def execCrownAuthVerified (s : State) : Host.Outcome State Fault Refusal :=
  .next (match s.dbg.verifying with
    | none => s
    | some (nonce, lv) =>
      let sig := (tabGet (fun _ => []) s.dbg.sig 0 ++ tabGet (fun _ => []) s.dbg.sig 12).flatMap (leBytes 4)
      let ok := s.fw.run.any FwSlot.debugKey && Config.crownSigned (Config.sha384 (crownMessage nonce lv)) sig
      let s := { s with dbg := { s.dbg with verifying := none, sig := [] } }
      if s.domainUp 1 = false then s.setF DBG_CROWN_STATUS DBG_CROWN_STATUS_AUTH 0
      else if ok then
        let s := { s with dbg := { s.dbg with refusals := 0 } }
        ((s.setF DBG_CROWN_STATUS DBG_CROWN_STATUS_AUTH 1).setF DBG_CROWN_STATUS DBG_CROWN_STATUS_LEVEL lv).postMgr 0x8D03 0 lv 0
      else
        let n := s.dbg.refusals + 1
        ({ s with dbg := { s.dbg with refusals := n % 3, lockout := s.dbg.lockout || decide (n = 3) } }).setF
          DBG_CROWN_STATUS DBG_CROWN_STATUS_AUTH 3)

/-- CROWN_LOCKOUT_END (R549). -/
def execCrownLockoutEnd (s : State) : Host.Outcome State Fault Refusal := .next { s with dbg := { s.dbg with lockout := false } }

/-- CROWN_END (R548). -/
def execCrownEnd (f : CrownFrame) (s : State) : Host.Outcome State Fault Refusal :=
  .next (s.transact 15 f (f.count = 0) (fun t => (t.endSession, 0, [])))

/-- CROWN_SESSION_TIMEOUT (R548): 60 s have passed without a valid request. -/
def execCrownSessionTimeout (s : State) : Host.Outcome State Fault Refusal := .next (if s.level = 0 then s else s.endSession)

/-! ### Halts (R552 to R554) -/

/-- A core or cluster has halted: the manager is told unless every core is halted. -/
def State.tellHalt (s : State) (detail : Nat) : State :=
  if (List.range 4).all (fun c => decide (s.getF (DBG_CORE_CTRL c) DBG_CORE_CTRL_HALTED = 1)) then s else s.postMgr 0x8D04 detail 0 0

/-- Clerk core `c` halts for a cause. -/
def State.haltCore (s : State) (c cause : Nat) : State :=
  (((s.setF (DBG_CORE_CTRL c) DBG_CORE_CTRL_HALTED 1).setF (DBG_CORE_CTRL c) DBG_CORE_CTRL_HALT_PENDING 0).setF (DBG_CORE_CTRL c)
    DBG_CORE_CTRL_CAUSE cause).tellHalt (0x100 + c)

/-- HALT of a core (R552): at NORMAL one in the secure partition halts only once it has left it. -/
def State.askHalt (s : State) (c : Nat) (secure : Bool) : State :=
  if s.getF (DBG_CORE_CTRL c) DBG_CORE_CTRL_HALTED = 1 then s
  else if secure ∧ s.level ≠ 2 then s.setF (DBG_CORE_CTRL c) DBG_CORE_CTRL_HALT_PENDING 1
  else s.haltCore c 1

/-- RESUME of a core. -/
def State.resumeCore (s : State) (c : Nat) : State := s.setReg (DBG_CORE_CTRL c) 0

/-- STEP of a halted core: one instruction, and it halts again. -/
def State.stepCore (s : State) (c : Nat) : State :=
  if s.getF (DBG_CORE_CTRL c) DBG_CORE_CTRL_HALTED = 1 then s.haltCore c 2 else s

/-- DBG_CORE_HALT (R552): HALT written at NORMAL or above, or a pending halt whose core has left the secure partition. -/
def execDbgCoreHalt (core : Nat) (secure : Bool) (s : State) : Host.Outcome State Fault Refusal :=
  .next (if core < 4 ∧ s.pwr.off = false ∧ (0 < s.level ∨ s.getF (DBG_CORE_CTRL core) DBG_CORE_CTRL_HALT_PENDING = 1) then s.askHalt core secure else s)

/-- The halted wave of a cluster. -/
def State.waveOf (s : State) (cl : Nat) : Option WaveHalt := tabGet (fun _ => none) s.dbg.waves cl
def State.setWave (s : State) (cl : Nat) (w : Option WaveHalt) : State :=
  { s with dbg := { s.dbg with waves := tabSet (fun _ => none) s.dbg.waves cl w } }

/-- DBG_CORE_RESUME (R552, R553): a target of 0x100 and above is a Clerk core, one below 24 a cluster. -/
def execDbgCoreResume (target : Nat) (s : State) : Host.Outcome State Fault Refusal :=
  .next (if s.level = 0 then s
  else if 0x100 ≤ target ∧ target < 0x104 then s.resumeCore (target - 0x100)
  else if target < 24 then s.setWave target none
  else s)

/-- DBG_CORE_STEP (R552, R553): a core runs one instruction; a wave goes on to its next SPIR-V instruction, where `live` is live. -/
def execDbgCoreStep (target : Nat) (live : List (Nat × Nat × Nat)) (s : State) : Host.Outcome State Fault Refusal :=
  .next (if s.level = 0 then s
  else if 0x100 ≤ target ∧ target < 0x104 then s.stepCore (target - 0x100)
  else match s.waveOf target with
    | some w => (s.setWave target (some { w with live := live })).tellHalt target
    | none => s)

/-- CLERK_BREAKPOINT_HIT (R552): a running core reaches an enabled breakpoint whose mask names it. -/
def execClerkBreakpointHit (core addr : Nat) (s : State) : Host.Outcome State Fault Refusal :=
  .next (if core < 4 ∧ s.getF (DBG_CORE_CTRL core) DBG_CORE_CTRL_HALTED = 0 ∧
      (List.range 4).any (fun k => bit (s.reg (DBG_BP_CTRL k)) 31 && bit (s.reg (DBG_BP_CTRL k)) core && decide (s.reg64 (DBG_BP_ADDR_LO k) = addr)) = true then
    s.haltCore core 3
  else s)

/-- SHADER_BREAKPOINT_HIT (R553): a wave of wave unit `unit` reaches an enabled breakpoint's instruction: `key` holds bytes 0 to 7 of the program key's digest,
`offset` the SPIR-V byte offset, `live` the values live there. -/
def execShaderBreakpointHit (cluster unit key offset : Nat) (live : List (Nat × Nat × Nat)) (s : State) : Host.Outcome State Fault Refusal :=
  .next (if cluster < 24 ∧ s.showClusterUp.testBit cluster ∧ (s.waveOf cluster).isNone ∧ unit < 4 ∧ offset % 4 = 0 ∧
      (List.range 8).any (fun k => bit (s.reg (DBG_SBP_OFFSET k)) 31 && decide (s.reg (DBG_SBP_OFFSET k) % 2 ^ 23 = offset / 4) &&
        decide (s.reg64 (DBG_SBP_KEY_LO k) = key)) = true then
    (s.setWave cluster (some ⟨unit, live⟩)).tellHalt cluster
  else s)

/-- The Strongroom core halts or resumes (R554): while it is halted STRG_ALERT_N is asserted; its watchdog and supervision pause. -/
def State.strgHalt (s : State) (on : Bool) : State := ({ s with dbg := { s.dbg with strgHalted := on } }).setAlert 17 on

/-- DBG_STRG_HALT (R554): at SECURE only. -/
def execDbgStrgHalt (s : State) : Host.Outcome State Fault Refusal := .next (if s.level = 2 ∧ s.domainUp 1 = true then s.strgHalt true else s)

/-- DBG_STRG_RESUME (R554): at SECURE only. -/
def execDbgStrgResume (s : State) : Host.Outcome State Fault Refusal := .next (if s.level = 2 then s.strgHalt false else s)

/-- The votes of voter 68 (R551): domains 9 to 21. -/
def State.voteCrown (s : State) (v : Nat) : State :=
  let m := v &&& 0x3FFE00
  (s.setReg DBG_VOTE m).putVotes 68 m

/-- DBG_VOTE_WRITE (R551): at NORMAL and above. -/
def execDbgVoteWrite (value : Nat) (s : State) : Host.Outcome State Fault Refusal := .next (if s.level = 0 then s else s.voteCrown value)

/-! ### Registers (R549, R551, R555) -/

/-- The power domain of a register (Table 16.2). -/
def regDomain (a : Nat) : Nat :=
  if a < 0x30000 then 3
  else if a < 0x80000 then 2
  else if a < 0x100000 then 4
  else if a < 0x140000 then 15
  else if a < 0x160000 then (if (a - 0x140000) / 0x4000 < 4 then 16 else 17)
  else if a < 0x184000 then 15
  else if a < 0x188000 then (if (a - 0x184000) / 0x400 < 4 then 16 else 17)
  else if a < 0x1C0000 then 15
  else if 0x1C1000 ≤ a ∧ a < 0x1C1400 then 5 + (a - 0x1C1000) / 0x40 / 4
  else if a < 0x240000 then 4
  else if a < 0x280000 then 18
  else if a < 0x2C0000 then 1
  else if a = TCH_WAKE_STATUS then 0
  else if a < 0x300000 then 19
  else if a < 0x340000 then 20
  else if a < 0x380000 then 21
  else if a < 0x400000 then 0
  else if a < 0x440000 then 2
  else if a < 0x480000 then 0
  else 3

/-- The registers a LOCKED session may read (R549). -/
def openRegs : List Nat := [PCU_STATE, PCU_DOMAIN_FAILED, PCU_EVENTS, PCU_CLK_STATUS, LEDG_STATUS, HOST_ERR_STATUS]

/-- The addresses of a request. -/
def frameAddrs (f : CrownFrame) : List Nat := (List.range f.count).map (fun i => f.addr + 4 * i)

/-- Why a register request faults: 1 level too low, 2 register not permitted, 3 domain down; 0: it does not. -/
def State.regFault (s : State) (f : CrownFrame) (write : Bool) : Nat :=
  if write ∧ s.level = 0 then 1
  else if s.level = 0 ∧ ¬ (frameAddrs f).all (fun a => openRegs.contains a) then 2
  else if f.addr % 4 ≠ 0 ∨ 0x1000000 < f.addr + 4 * f.count then 2
  else if ¬ (frameAddrs f).all (fun a => decide (regDomain a = 0) || (s.domainUp (regDomain a) && decide (s.getF PCU_STATE PCU_STATE_STATE ≠ 2))) then 3
  else 0

/-- The port reads one register as the manager does (R16, R551, R599). -/
def State.crownRead (s : State) (a : Nat) : Nat × State :=
  let v := if s.secureUnit a then 0 else match tabGet (fun _ => none) s.wideHigh a with
    | some x => x.toNat
    | none => s.shows s.mgrFn a
  let t := if s.secureUnit a then s else s.clearRc a
  let t := { t with wideHigh := tabSet (fun _ => none) t.wideHigh a none, freeCount := t.freeCount + 1 }
  (v, if isLowWord a then { t with wideHigh := tabSet (fun _ => none) t.wideHigh (a + 4) (some (BitVec.ofNat 32 (s.shows s.mgrFn (a + 4)))) } else t)

/-- CROWN_READ_REG (R549, R551). -/
def execCrownReadReg (f : CrownFrame) (s : State) : Host.Outcome State Fault Refusal :=
  .next (s.transact 4 f (decide (1 ≤ f.count) && decide (f.count ≤ 15)) (fun t =>
    if t.regFault f false ≠ 0 then refuse t (t.regFault f false)
    else
      let r := (frameAddrs f).foldl (fun (x : List Nat × State) a => (x.1 ++ [(x.2.crownRead a).1], (x.2.crownRead a).2)) ([], t)
      (r.2, 0, r.1)))

/-- The port writes one register as the manager does; the DBG registers act (R551 to R554). `secure`: the cores that run in the secure partition. -/
def State.crownWrite (s : State) (secure a v : Nat) : State :=
  match arrayIndex (DBG_CORE_CTRL 0) 0x10 4 a with
  | some c =>
    let s := if bit v 30 then s.resumeCore c else s
    let s := if bit v 29 then s.stepCore c else s
    if bit v 31 then s.askHalt c (secure.testBit c) else s
  | none =>
    if a = DBG_VOTE then s.voteCrown v
    else if a = DBG_STRG_CTRL then
      if s.level ≠ 2 then s.badWrite crownWriter a
      else if bit v 1 then s.strgHalt false
      else if bit v 0 ∧ s.domainUp 1 then s.strgHalt true
      else s
    else s.writeReg crownWriter a v

/-- CROWN_WRITE_REG (R551). -/
def execCrownWriteReg (f : CrownFrame) (s : State) : Host.Outcome State Fault Refusal :=
  .next (s.transact 5 f (decide (1 ≤ f.count) && decide (f.count ≤ 15) && decide (f.words.length = f.count)) (fun t =>
    if t.regFault f true ≠ 0 then refuse t (t.regFault f true)
    else (((frameAddrs f).zip f.words).foldl (fun (x : State) q => x.crownWrite f.secure q.1 (q.2 % 2 ^ 32)) t, 0, [])))

/-! ### Memory (R551) -/

/-- The first byte of a memory request in its object. -/
def State.crownOff (s : State) (f : CrownFrame) : Nat := s.reg64 DBG_MEM_BASE_LO + f.addr

/-- Does the range touch storage that holds C0 content, or none? -/
def State.crownSecret (s : State) (h off n : Nat) : Bool :=
  match s.obj? h with
  | some o => (granRange off n).any (fun g => match o.place g with
    | .bank b => s.bankHeld b
    | _ => false)
  | none => false

/-- Why a memory request faults: 1 level too low, 3 domain down, 4 outside the object, 5 a poisoned beat. -/
def State.memFault (s : State) (f : CrownFrame) (write : Bool) : Nat :=
  let h := s.reg DBG_MEM_HANDLE
  let off := s.crownOff f
  let n := 4 * f.count
  if s.level = 0 ∨ (s.crownSecret h off n ∧ (write ∨ s.level ≠ 2)) then 1
  else if s.getF PCU_STATE PCU_STATE_STATE ≠ 3 ∨ s.domainUp 4 = false then 3
  else if (s.obj? h).isNone ∨ s.objSize h < off + n ∨ (s.residentOf h).any (fun l => !(granRange off n).all (fun g => l.contains g)) then 4
  else if (if write then (s.partBad? (handleIndex h) off n).isSome else (s.badBeat? (handleIndex h) off n).isSome) then 5
  else 0

/-- CROWN_READ_MEM (R551). -/
def execCrownReadMem (f : CrownFrame) (s : State) : Host.Outcome State Fault Refusal :=
  .next (s.transact 6 f (decide (1 ≤ f.count) && decide (f.count ≤ 15)) (fun t =>
    let i := handleIndex (t.reg DBG_MEM_HANDLE)
    let off := t.crownOff f
    if t.memFault f false ≠ 0 then
      refuse (match t.memFault f false, t.badBeat? i off (4 * f.count) with
        | 5, some b => t.postUe i (32 * b)
        | _, _ => t) (t.memFault f false)
    else (t.noteRead i off (4 * f.count), 0, wordsOf f.count (t.objBytes i off (4 * f.count)))))

/-- CROWN_WRITE_MEM (R551). -/
def execCrownWriteMem (f : CrownFrame) (s : State) : Host.Outcome State Fault Refusal :=
  .next (s.transact 7 f (decide (1 ≤ f.count) && decide (f.count ≤ 15) && decide (f.words.length = f.count)) (fun t =>
    let i := handleIndex (t.reg DBG_MEM_HANDLE)
    let off := t.crownOff f
    if t.memFault f true ≠ 0 then
      refuse (match t.memFault f true, t.partBad? i off (4 * f.count) with
        | 5, some b => t.postUe i (32 * b)
        | _, _ => t) (t.memFault f true)
    else (t.store i off (f.words.flatMap (leBytes 4)), 0, [])))

end Sys2Proof.Machine
end

