-- ==== Sys2Proof/Machine/Dispatch.lean ====
section
/-! DEFINITION. One arm for each command: a direct call of its meaning, or a refusal by name. -/

namespace Sys2Proof.Machine

/-- The effect of a command on everything but the queue. -/
def exec (i : Instr) (s : State) : Host.Outcome State Fault Refusal :=
  match i with
  | .powerOnReset pwrAuto => Sys2Proof.Machine.execPowerOnReset pwrAuto s
  | .vsaveArmed chargeUs => Sys2Proof.Machine.execVsaveArmed chargeUs s
  | .sagDetected durationUs mv mvAfter => Sys2Proof.Machine.execSagDetected durationUs mv mvAfter s
  | .perstAssert port => Sys2Proof.Machine.execPerstAssert port s
  | .perstRelease port => Sys2Proof.Machine.execPerstRelease port s
  | .functionLevelReset port vf => Sys2Proof.Machine.execFunctionLevelReset port vf s
  | .hostLinkDown port => Sys2Proof.Machine.execHostLinkDown port s
  | .hostLinkUp port speed width => Sys2Proof.Machine.execHostLinkUp port speed width s
  | .managerLoss byLink => Sys2Proof.Machine.execManagerLoss byLink s
  | .mgrBeat writer => Sys2Proof.Machine.execMgrBeat writer s
  | .mgrHandover writer => Sys2Proof.Machine.execMgrHandover writer s
  | .mgrHbPeriodWrite writer period => Sys2Proof.Machine.execMgrHbPeriodWrite writer period s
  | .registerWrite writer addr size value => Sys2Proof.Machine.execRegisterWrite writer addr size value s
  | .rcRegisterRead reader addr resent => Sys2Proof.Machine.execRcRegisterRead reader addr resent s
  | .d2dLinkRetrain resends offset failedTwice => Sys2Proof.Machine.execD2dLinkRetrain resends offset failedTwice s
  | .lowWordReadLatch reader addr => Sys2Proof.Machine.execLowWordReadLatch reader addr s
  | .sqEnable writer fn ring value => Sys2Proof.Machine.execSqEnable writer fn ring value s
  | .sqDisable writer fn ring => Sys2Proof.Machine.execSqDisable writer fn ring s
  | .cqEnable writer fn value => Sys2Proof.Machine.execCqEnable writer fn value s
  | .cqDisable writer fn => Sys2Proof.Machine.execCqDisable writer fn s
  | .doorbellSq writer fn ring value => Sys2Proof.Machine.execDoorbellSq writer fn ring value s
  | .doorbellCq writer fn value => Sys2Proof.Machine.execDoorbellCq writer fn value s
  | .doorbellMbox writer fn => Sys2Proof.Machine.execDoorbellMbox writer fn s
  | .mboxFullClear writer fn => Sys2Proof.Machine.execMboxFullClear writer fn s
  | .clrkFetchPacket slot => Sys2Proof.Machine.execClrkFetchPacket slot s
  | .commandTimeout pk => Sys2Proof.Machine.execCommandTimeout pk s
  | .coalesceTimeout fn => Sys2Proof.Machine.execCoalesceTimeout fn s
  | .sysNop pk => Sys2Proof.Machine.execSysNop pk s
  | .sysGetCaps pk => Sys2Proof.Machine.execSysGetCaps pk s
  | .sysFence pk => Sys2Proof.Machine.execSysFence pk s
  | .sysSlipAcquire pk => Sys2Proof.Machine.execSysSlipAcquire pk s
  | .sysSlipRelease pk => Sys2Proof.Machine.execSysSlipRelease pk s
  | .sysSlipClear pk => Sys2Proof.Machine.execSysSlipClear pk s
  | .sysSlipGrant pk => Sys2Proof.Machine.execSysSlipGrant pk s
  | .sysSlipQuery pk => Sys2Proof.Machine.execSysSlipQuery pk s
  | .instCreate pk => Sys2Proof.Machine.execInstCreate pk s
  | .instResize pk => Sys2Proof.Machine.execInstResize pk s
  | .resizeGraceEnd inst => Sys2Proof.Machine.execResizeGraceEnd inst s
  | .instFreeze pk => Sys2Proof.Machine.execInstFreeze pk s
  | .freezeComplete inst => Sys2Proof.Machine.execFreezeComplete inst s
  | .instSave pk => Sys2Proof.Machine.execInstSave pk s
  | .instRestore pk image => Sys2Proof.Machine.execInstRestore pk image s
  | .instThaw pk => Sys2Proof.Machine.execInstThaw pk s
  | .instDestroy pk => Sys2Proof.Machine.execInstDestroy pk s
  | .destroyComplete inst => Sys2Proof.Machine.execDestroyComplete inst s
  | .instTakeover pk => Sys2Proof.Machine.execInstTakeover pk s
  | .shmAlloc pk => Sys2Proof.Machine.execShmAlloc pk s
  | .shmFree pk => Sys2Proof.Machine.execShmFree pk s
  | .storageDrainComplete index => Sys2Proof.Machine.execStorageDrainComplete index s
  | .shmHint pk => Sys2Proof.Machine.execShmHint pk s
  | .shmUpload pk host => Sys2Proof.Machine.execShmUpload pk host s
  | .shmDownload pk busError => Sys2Proof.Machine.execShmDownload pk busError s
  | .shmQuery pk => Sys2Proof.Machine.execShmQuery pk s
  | .shmAllocSparse pk => Sys2Proof.Machine.execShmAllocSparse pk s
  | .shmSetResidency pk => Sys2Proof.Machine.execShmSetResidency pk s
  | .memSetRegion pk => Sys2Proof.Machine.execMemSetRegion pk s
  | .memSetReserve pk => Sys2Proof.Machine.execMemSetReserve pk s
  | .memLockBank pk => Sys2Proof.Machine.execMemLockBank pk s
  | .memUnlockBank pk => Sys2Proof.Machine.execMemUnlockBank pk s
  | .epochDecisionsPublished moves allot shadows mirrors => Sys2Proof.Machine.execEpochDecisionsPublished moves allot shadows mirrors s
  | .granuleCopyPassDone index gran => Sys2Proof.Machine.execGranuleCopyPassDone index gran s
  | .granuleFlip index gran => Sys2Proof.Machine.execGranuleFlip index gran s
  | .moveReadDrain index gran => Sys2Proof.Machine.execMoveReadDrain index gran s
  | .moveTimeLimit index gran => Sys2Proof.Machine.execMoveTimeLimit index gran s
  | .xdevWaitExpiry pk => Sys2Proof.Machine.execXdevWaitExpiry pk s
  | .remoteSegmentLost pk peer => Sys2Proof.Machine.execRemoteSegmentLost pk peer s
  | .rndCompile pk => Sys2Proof.Machine.execRndCompile pk s
  | .rndPass pk => Sys2Proof.Machine.execRndPass pk s
  | .partialRender pk held blocks => Sys2Proof.Machine.execPartialRender pk held blocks s
  | .passComplete pk blocks saw => Sys2Proof.Machine.execPassComplete pk blocks saw s
  | .rndDispatch pk => Sys2Proof.Machine.execRndDispatch pk s
  | .dispatchComplete pk saw => Sys2Proof.Machine.execDispatchComplete pk saw s
  | .rndSetArena pk => Sys2Proof.Machine.execRndSetArena pk s
  | .tileWatchdog pk cluster => Sys2Proof.Machine.execTileWatchdog pk cluster s
  | .clusterStallTimeout pk => Sys2Proof.Machine.execClusterStallTimeout pk s
  | .bndSetLayer pk => Sys2Proof.Machine.execBndSetLayer pk s
  | .bndFlip pk => Sys2Proof.Machine.execBndFlip pk s
  | .bndSetLut pk => Sys2Proof.Machine.execBndSetLut pk s
  | .bndSetPose pk => Sys2Proof.Machine.execBndSetPose pk s
  | .motionSample q => Sys2Proof.Machine.execMotionSample q s
  | .bndComposeLine pipe fills => Sys2Proof.Machine.execBndComposeLine pipe fills s
  | .outSetTiming pk => Sys2Proof.Machine.execOutSetTiming pk s
  | .outLinkStopped out => Sys2Proof.Machine.execOutLinkStopped out s
  | .outPllLocked out hz => Sys2Proof.Machine.execOutPllLocked out hz s
  | .outLinkTrained out outcome outcomeOdd => Sys2Proof.Machine.execOutLinkTrained out outcome outcomeOdd s
  | .outTimingStarted out => Sys2Proof.Machine.execOutTimingStarted out s
  | .outAux pk outcome r0 r1 => Sys2Proof.Machine.execOutAux pk outcome r0 r1 s
  | .outTimingRegWrite writer addr value => Sys2Proof.Machine.execOutTimingRegWrite writer addr value s
  | .outAdvanceWrite writer out value => Sys2Proof.Machine.execOutAdvanceWrite writer out value s
  | .outLineStart out line bad => Sys2Proof.Machine.execOutLineStart out line bad s
  | .outLatch out => Sys2Proof.Machine.execOutLatch out s
  | .flipPreviousReleased out => Sys2Proof.Machine.execFlipPreviousReleased out s
  | .outFrameStart out => Sys2Proof.Machine.execOutFrameStart out s
  | .teEdge out => Sys2Proof.Machine.execTeEdge out s
  | .tePeriodMissed out => Sys2Proof.Machine.execTePeriodMissed out s
  | .hpdPlug out => Sys2Proof.Machine.execHpdPlug out s
  | .hpdUnplug out => Sys2Proof.Machine.execHpdUnplug out s
  | .hpdIrq out => Sys2Proof.Machine.execHpdIrq out s
  | .tolMessage out => Sys2Proof.Machine.execTolMessage out s
  | .tolLost out => Sys2Proof.Machine.execTolLost out s
  | .escGrant target arrived => Sys2Proof.Machine.execEscGrant target arrived s
  | .escRoundEnd target => Sys2Proof.Machine.execEscRoundEnd target s
  | .escCutoff port target urg cls index src => Sys2Proof.Machine.execEscCutoff port target urg cls index src s
  | .selfRefreshEntry ch => Sys2Proof.Machine.execSelfRefreshEntry ch s
  | .selfRefreshExit ch request mr4 => Sys2Proof.Machine.execSelfRefreshExit ch request mr4 s
  | .retrainStep lane eye => Sys2Proof.Machine.execRetrainStep lane eye s
  | .retrainStarved lane => Sys2Proof.Machine.execRetrainStarved lane s
  | .mr4Poll ch mr4 hot => Sys2Proof.Machine.execMr4Poll ch mr4 hot s
  | .folioInjectArm writer value => Sys2Proof.Machine.execFolioInjectArm writer value s
  | .dramTraining densities eyes failed => Sys2Proof.Machine.execDramTraining densities eyes failed s
  | .collSetWindow pk => Sys2Proof.Machine.execCollSetWindow pk s
  | .collExpect pk => Sys2Proof.Machine.execCollExpect pk s
  | .collAssignUnit pk => Sys2Proof.Machine.execCollAssignUnit pk s
  | .collCompute pk => Sys2Proof.Machine.execCollCompute pk s
  | .cvuStart writer unit => Sys2Proof.Machine.execCvuStart writer unit s
  | .cvuAlgChange writer unit value => Sys2Proof.Machine.execCvuAlgChange writer unit value s
  | .cvuData8 writer unit value => Sys2Proof.Machine.execCvuData8 writer unit value s
  | .cvuData16 writer unit value => Sys2Proof.Machine.execCvuData16 writer unit value s
  | .cvuData32 writer unit value => Sys2Proof.Machine.execCvuData32 writer unit value s
  | .cvuValueWrite writer unit value => Sys2Proof.Machine.execCvuValueWrite writer unit value s
  | .cvuExpectWrite writer unit value => Sys2Proof.Machine.execCvuExpectWrite writer unit value s
  | .cvuAliveValue writer unit value => Sys2Proof.Machine.execCvuAliveValue writer unit value s
  | .cvuAliveNext writer unit => Sys2Proof.Machine.execCvuAliveNext writer unit s
  | .cvuAliveReset writer unit => Sys2Proof.Machine.execCvuAliveReset writer unit s
  | .windowOutcome out win => Sys2Proof.Machine.execWindowOutcome out win s
  | .gpcOutcome out fault => Sys2Proof.Machine.execGpcOutcome out fault s
  | .strgGetInfo pk => Sys2Proof.Machine.execStrgGetInfo pk s
  | .strgSetTelltale pk => Sys2Proof.Machine.execStrgSetTelltale pk s
  | .strgChime pk => Sys2Proof.Machine.execStrgChime pk s
  | .strgHandover pk => Sys2Proof.Machine.execStrgHandover pk s
  | .strgKeyLoad pk => Sys2Proof.Machine.execStrgKeyLoad pk s
  | .strgPermitTiming pk => Sys2Proof.Machine.execStrgPermitTiming pk s
  | .permitExpiry out => Sys2Proof.Machine.execPermitExpiry out s
  | .strgReqDoorbell writer => Sys2Proof.Machine.execStrgReqDoorbell writer s
  | .telltaleRefreshExpiry tt => Sys2Proof.Machine.execTelltaleRefreshExpiry tt s
  | .blinkPhaseUpdate out => Sys2Proof.Machine.execBlinkPhaseUpdate out s
  | .chimeVoiceFree pattern => Sys2Proof.Machine.execChimeVoiceFree pattern s
  | .tchSetPanel pk => Sys2Proof.Machine.execTchSetPanel pk s
  | .tchSetRegion pk => Sys2Proof.Machine.execTchSetRegion pk s
  | .tchRecalibrate pk => Sys2Proof.Machine.execTchRecalibrate pk s
  | .tchSetWake pk => Sys2Proof.Machine.execTchSetWake pk s
  | .tchCapture pk => Sys2Proof.Machine.execTchCapture pk s
  | .touchFrameStart ctl => Sys2Proof.Machine.execTouchFrameStart ctl s
  | .touchFrameEnd ctl raw selfRaw listen => Sys2Proof.Machine.execTouchFrameEnd ctl raw selfRaw listen s
  | .suspectStableTimeout ctl node => Sys2Proof.Machine.execSuspectStableTimeout ctl node s
  | .contactStuck ctl id => Sys2Proof.Machine.execContactStuck ctl id s
  | .touchBaselineSave ctl frozen => Sys2Proof.Machine.execTouchBaselineSave ctl frozen s
  | .wakeScan ctl raw cycles => Sys2Proof.Machine.execWakeScan ctl raw cycles s
  | .wakePendingClear writer => Sys2Proof.Machine.execWakePendingClear writer s
  | .hapSetChannel pk => Sys2Proof.Machine.execHapSetChannel pk s
  | .hapLoadEffect pk => Sys2Proof.Machine.execHapLoadEffect pk s
  | .hapPlay pk => Sys2Proof.Machine.execHapPlay pk s
  | .hapStop pk => Sys2Proof.Machine.execHapStop pk s
  | .hapCalibrate pk => Sys2Proof.Machine.execHapCalibrate pk s
  | .calibrationComplete ch trip cNf f0 g0 gains => Sys2Proof.Machine.execCalibrationComplete ch trip cNf f0 g0 gains s
  | .hapLoopPeriod ch m => Sys2Proof.Machine.execHapLoopPeriod ch m s
  | .vhvSag vhv => Sys2Proof.Machine.execVhvSag vhv s
  | .vhaptLoss vhapt => Sys2Proof.Machine.execVhaptLoss vhapt s
  | .audSetPort pk => Sys2Proof.Machine.execAudSetPort pk s
  | .audSetEndpoint pk => Sys2Proof.Machine.execAudSetEndpoint pk s
  | .audSetNode pk => Sys2Proof.Machine.execAudSetNode pk s
  | .audSetRoute pk => Sys2Proof.Machine.execAudSetRoute pk s
  | .audCommit pk => Sys2Proof.Machine.execAudCommit pk s
  | .audioBlock ins chime poison => Sys2Proof.Machine.execAudioBlock ins chime poison s
  | .tdmPortLost port => Sys2Proof.Machine.execTdmPortLost port s
  | .tdmPortRelock port => Sys2Proof.Machine.execTdmPortRelock port s
  | .pwrVote pk => Sys2Proof.Machine.execPwrVote pk s
  | .pwrSetState pk => Sys2Proof.Machine.execPwrSetState pk s
  | .pwrMemIdlePermit pk => Sys2Proof.Machine.execPwrMemIdlePermit pk s
  | .pwrClearFail pk => Sys2Proof.Machine.execPwrClearFail pk s
  | .pcuWake writer value => Sys2Proof.Machine.execPcuWake writer value s
  | .dormantWriteDrop writer addr => Sys2Proof.Machine.execDormantWriteDrop writer addr s
  | .domainStepReady domain => Sys2Proof.Machine.execDomainStepReady domain s
  | .domainStepTimeout domain => Sys2Proof.Machine.execDomainStepTimeout domain s
  | .domainDrop domain => Sys2Proof.Machine.execDomainDrop domain s
  | .pllLockLoss pll failed => Sys2Proof.Machine.execPllLockLoss pll failed s
  | .fabLinkUp link width uid => Sys2Proof.Machine.execFabLinkUp link width uid s
  | .fabLinkLoss link => Sys2Proof.Machine.execFabLinkLoss link s
  | .flitResend link seq => Sys2Proof.Machine.execFlitResend link seq s
  | .flitDiscovery link d => Sys2Proof.Machine.execFlitDiscovery link d s
  | .flitObjectRead link f => Sys2Proof.Machine.execFlitObjectRead link f s
  | .flitObjectData link f => Sys2Proof.Machine.execFlitObjectData link f s
  | .flitObjectWrite link f => Sys2Proof.Machine.execFlitObjectWrite link f s
  | .flitWriteAck link f => Sys2Proof.Machine.execFlitWriteAck link f s
  | .flitMgmtPacket tag packet block => Sys2Proof.Machine.execFlitMgmtPacket tag packet block s
  | .flitMgmtReply kind src tag time e => Sys2Proof.Machine.execFlitMgmtReply kind src tag time e s
  | .flitTime time calendar => Sys2Proof.Machine.execFlitTime time calendar s
  | .managementWake link => Sys2Proof.Machine.execManagementWake link s
  | .fabSetRole pk => Sys2Proof.Machine.execFabSetRole pk s
  | .fabForward pk => Sys2Proof.Machine.execFabForward pk s
  | .fabSetRelay pk => Sys2Proof.Machine.execFabSetRelay pk s
  | .fabWake pk => Sys2Proof.Machine.execFabWake pk s
  | .fabQuery pk => Sys2Proof.Machine.execFabQuery pk s
  | .ledgRead pk => Sys2Proof.Machine.execLedgRead pk s
  | .ledgSetCalendar pk => Sys2Proof.Machine.execLedgSetCalendar pk s
  | .ledgFlush pk => Sys2Proof.Machine.execLedgFlush pk s
  | .ledgGetCalendar pk => Sys2Proof.Machine.execLedgGetCalendar pk s
  | .pmuSetCounter pk => Sys2Proof.Machine.execPmuSetCounter pk s
  | .pmuControl pk => Sys2Proof.Machine.execPmuControl pk s
  | .pmuSetDump pk => Sys2Proof.Machine.execPmuSetDump pk s
  | .pmuSetSamples pk => Sys2Proof.Machine.execPmuSetSamples pk s
  | .pmuDumpPeriod owner adv fixed busy => Sys2Proof.Machine.execPmuDumpPeriod owner adv fixed busy s
  | .pmuSample counter n kind unit inst skid loc0 loc1 loc2 fixed => Sys2Proof.Machine.execPmuSample counter n kind unit inst skid loc0 loc1 loc2 fixed s
  | .crownId f => Sys2Proof.Machine.execCrownId f s
  | .crownChallenge f => Sys2Proof.Machine.execCrownChallenge f s
  | .crownResponse f => Sys2Proof.Machine.execCrownResponse f s
  | .crownReadReg f => Sys2Proof.Machine.execCrownReadReg f s
  | .crownWriteReg f => Sys2Proof.Machine.execCrownWriteReg f s
  | .crownReadMem f => Sys2Proof.Machine.execCrownReadMem f s
  | .crownWriteMem f => Sys2Proof.Machine.execCrownWriteMem f s
  | .crownEnd f => Sys2Proof.Machine.execCrownEnd f s
  | .dbgCoreHalt core secure => Sys2Proof.Machine.execDbgCoreHalt core secure s
  | .dbgCoreResume target => Sys2Proof.Machine.execDbgCoreResume target s
  | .dbgCoreStep target live => Sys2Proof.Machine.execDbgCoreStep target live s
  | .clerkBreakpointHit core addr => Sys2Proof.Machine.execClerkBreakpointHit core addr s
  | .shaderBreakpointHit cluster unit key offset live => Sys2Proof.Machine.execShaderBreakpointHit cluster unit key offset live s
  | .dbgVoteWrite value => Sys2Proof.Machine.execDbgVoteWrite value s
  | .errorRecord subsys unit tier code inst info0 info1 src => Sys2Proof.Machine.execErrorRecord subsys unit tier code inst info0 info1 src s
  | .errorAck writer seq => Sys2Proof.Machine.execErrorAck writer seq s
  | .errorAckAll writer => Sys2Proof.Machine.execErrorAckAll writer s
  | .clerkCoreException core cause held => Sys2Proof.Machine.execClerkCoreException core cause held s
  | .clerkRestart core cause fourth => Sys2Proof.Machine.execClerkRestart core cause fourth s
  | .supplyMonitorTrip rail mv request => Sys2Proof.Machine.execSupplyMonitorTrip rail mv request s
  | .thermalTrip temps => Sys2Proof.Machine.execThermalTrip temps s
  | .recoveryReset writer key => Sys2Proof.Machine.execRecoveryReset writer key s
  | .bootSequence own bootUs => Sys2Proof.Machine.execBootSequence own bootUs s
  | .xspiOwnRelease slotA slotB => Sys2Proof.Machine.execXspiOwnRelease slotA slotB s
  | .fwStage pk image readBack => Sys2Proof.Machine.execFwStage pk image readBack s
  | .fwSwitch pk => Sys2Proof.Machine.execFwSwitch pk s
  | .tdmFsEdge port ps => Sys2Proof.Machine.execTdmFsEdge port ps s
  | .vhvSagEnd vhv => Sys2Proof.Machine.execVhvSagEnd vhv s
  | .vhaptRestored vhapt => Sys2Proof.Machine.execVhaptRestored vhapt s
  | .clerkRestartComplete core => Sys2Proof.Machine.execClerkRestartComplete core s
  | .xtal32Qualified => Sys2Proof.Machine.execXtal32Qualified s
  | .xtal32QualifyTimeout => Sys2Proof.Machine.execXtal32QualifyTimeout s
  | .vsaveArmTimeout => Sys2Proof.Machine.execVsaveArmTimeout s
  | .vddaoRecovered => Sys2Proof.Machine.execVddaoRecovered s
  | .vsaveExhausted => Sys2Proof.Machine.execVsaveExhausted s
  | .ledgerPeriodicUpdate => Sys2Proof.Machine.execLedgerPeriodicUpdate s
  | .wearSaveBufferAdd => Sys2Proof.Machine.execWearSaveBufferAdd s
  | .retrainHourRecord => Sys2Proof.Machine.execRetrainHourRecord s
  | .managerLossCleared => Sys2Proof.Machine.execManagerLossCleared s
  | .placementEpoch => Sys2Proof.Machine.execPlacementEpoch s
  | .epochOverrun => Sys2Proof.Machine.execEpochOverrun s
  | .arenaChunkFreed => Sys2Proof.Machine.execArenaChunkFreed s
  | .poseStale => Sys2Proof.Machine.execPoseStale s
  | .scrubPeriodEnd => Sys2Proof.Machine.execScrubPeriodEnd s
  | .handoverQuiesced => Sys2Proof.Machine.execHandoverQuiesced s
  | .boostUp => Sys2Proof.Machine.execBoostUp s
  | .drainComplete => Sys2Proof.Machine.execDrainComplete s
  | .wakeFromDormant => Sys2Proof.Machine.execWakeFromDormant s
  | .wakeFromHairspring => Sys2Proof.Machine.execWakeFromHairspring s
  | .refclkStop => Sys2Proof.Machine.execRefclkStop s
  | .fabricConverged => Sys2Proof.Machine.execFabricConverged s
  | .fabricTimeHold => Sys2Proof.Machine.execFabricTimeHold s
  | .crownAuthVerified => Sys2Proof.Machine.execCrownAuthVerified s
  | .crownSessionTimeout => Sys2Proof.Machine.execCrownSessionTimeout s
  | .crownLockoutEnd => Sys2Proof.Machine.execCrownLockoutEnd s
  | .dbgStrgHalt => Sys2Proof.Machine.execDbgStrgHalt s
  | .dbgStrgResume => Sys2Proof.Machine.execDbgStrgResume s
  | .strgWatchdogExpiry => Sys2Proof.Machine.execStrgWatchdogExpiry s
  | .safeStateEntry => Sys2Proof.Machine.execSafeStateEntry s
  | .rollbackRaise => Sys2Proof.Machine.execRollbackRaise s
  | .strongroomSwitchTimeout => Sys2Proof.Machine.execStrongroomSwitchTimeout s
  | .refclkHoldoverEnd => Sys2Proof.Machine.execRefclkHoldoverEnd s
  | .takeoverComplete => Sys2Proof.Machine.execTakeoverComplete s
  | .fwSwitchComplete => Sys2Proof.Machine.execFwSwitchComplete s
  | .stateEntryComplete => Sys2Proof.Machine.execStateEntryComplete s

end Sys2Proof.Machine
end

