-- ==== Sys2Proof/Safety.lean ====
section
/-! DEFINITION. What counts as a good state and as a safe run, in the terms the statements use: the canonical forms, a packet that
the shared validation lets through, what a command leaves alone. -/

namespace Sys2Proof.Machine

/-- The object memory is in its one canonical form: addresses strictly rising, no entry equal to what an unlisted address
holds. -/
abbrev Memory.wf (m : MemState) : Prop := tabWf unwritten m.data = true

/-- The register file is in its one canonical form: addresses strictly rising, no entry equal to the reset value. -/
abbrev Registers.wf (s : State) : Prop := tabWf resetValue s.regs = true

/-- The invariant of the machine: registers and object memory are in canonical form, so equal contents are equal data. -/
def State.Inv (s : State) : Prop := Registers.wf s ∧ Memory.wf s.mem

/-- The step answers a next state: no fault, no refusal. -/
def State.Completes (s : State) : Prop := ∃ t, step s = .next t

/-- The state in which a new packet that passes steps 1 to 6 of Table 2.21 is in flight (R57), its block read (R54). -/
def State.taken (s : State) (c : Cmd) (pk : Pkt) (h : Hooks) : State :=
  (s.readBlock pk none).letIn c.op pk (if usesBlock pk then paramBytes pk s else []) (objectsNamed c (paramBytes pk s) h)
    (objectsWritten c (paramBytes pk s) h)

/-- The shared validation lets a new packet through to its effect at once: it is not in flight yet, the Clerk runs (or the packet
came by the direct window), every check of Table 2.21 holds, and neither a fence (R65) nor an earlier writer of its objects (R64)
holds it back. -/
def State.admitted (s : State) (c : Cmd) (pk : Pkt) (h : Hooks) : Bool :=
  (s.flightOf pk).isNone && (decide (pk.ring = windowRing) || s.clerkRuns) && (firstFail (headerChecks c pk s)).isNone &&
    (firstFail (bodyChecks c pk s (paramBytes pk s) h)).isNone && !(s.taken c pk h).fenceHolds pk &&
    !(s.taken c pk h).hazard pk (objectsNamed c (paramBytes pk s) h) &&
    !(decide (pk.fn = fabricFn) && namesBus c.op (paramBytes pk s) && !s.linkUp fabricFn)

/-- The same for a packet the Strongroom runs: it does not restart (R571). -/
def State.strgAdmitted (s : State) (c : Cmd) (pk : Pkt) (h : Hooks) : Bool :=
  decide (s.getF STRG_STATUS STRG_STATUS_RUN ≠ 2) && s.admitted c pk h

/-- The packet is let through, its parameters are `p` and `t` is the state in which it is in flight. -/
def State.Accepts (s : State) (c : Cmd) (pk : Pkt) (h : Hooks) (p : List Byte) (t : State) : Prop :=
  s.admitted c pk h = true ∧ p = paramBytes pk s ∧ t = s.taken c pk h

/-- The same for a packet the Strongroom runs. -/
def State.StrgAccepts (s : State) (c : Cmd) (pk : Pkt) (h : Hooks) (p : List Byte) (t : State) : Prop :=
  s.strgAdmitted c pk h = true ∧ p = paramBytes pk s ∧ t = s.taken c pk h

/-- A register write by this function, not the standby's, reaches its register: its link is up, the device is ACTIVE, and the Clerk is neither
halted nor in the safe state (R97, R441, R464, R524, R527). -/
def State.Writes (s : State) (w : Nat) : Prop :=
  w < 66 ∧ w ≠ s.standbyFn ∧ s.linkUp w = true ∧ s.getF PCU_STATE PCU_STATE_STATE = 3 ∧ s.clerkStopped = false

/-- The same for the active Exhibition Manager. -/
def State.MgrWrites (s : State) : Prop := s.Writes s.mgrFn

/-- A write by this function to a check-value unit is taken (R329, R330, R346): the function holds the unit, and is not frozen; the unit is in the normal
world, is not moving to the other, and is not BUSY. -/
def State.CvuWrites (s : State) (w n : Nat) : Prop :=
  s.Writes w ∧ s.writerOwner w = s.cvuHolder n ∧ s.cvuSecure n = false ∧ s.closing 3 n = false ∧ s.isFrozen w = false ∧
    s.getF (CVU_STATUS n) CVU_STATUS_BUSY = 0

/-- An object flit of this TYPE for this device comes in good order over a link that is up: its CRC and its length are right, it is of the present
generation, and each beat decodes clean (R490 to R492, R497). -/
def State.FlitArrives (s : State) (link : Nat) (f : Flit) (typ : Nat) : Prop :=
  s.safe = false ∧ link < 4 ∧ s.linkState link = 2 ∧ f.crcOk = true ∧ f.typ = typ ∧ typ < 8 ∧ 8 * ceilDiv (35 * f.beats.length) 8 ≤ 1120 ∧
    f.fgen = s.reg FAB_GEN % 16 ∧ s.getF FAB_STATUS FAB_STATUS_EXCLUDED = 0 ∧ f.dest = s.getF FAB_STATUS FAB_STATUS_ADDR ∧
    ∀ c ∈ f.beats, folioDecode c = .clean

/-- A Crown request is answered at once: the device is not OFF, the request's CRC is right, its result is ready in time, and none answered AGAIN is
kept (R547). -/
def State.CrownAnswers (s : State) (f : CrownFrame) : Prop := s.pwr.off = false ∧ f.crcOk = true ∧ f.late = false ∧ s.dbg.again = none

/-- Is the address in a ring register set (R44)? Those of the model's function indices from 128 on stand above the map (assumption 2). -/
def inRings (a : Nat) : Bool := (decide (0x38000 ≤ a) && decide (a < 0x40000)) || decide (0x2008000 ≤ a)

/-- From `s` to `t` only replies and notices have been written (R56 to R59, R501 to R503): nothing differs but the rings' registers, what functions have
beside them, what the device has written to its hosts, the packets in flight, and what a worker holds for its fabric manager. -/
def State.Tells (s t : State) : Prop :=
  t = { s with regs := t.regs, fns := t.fns, out := t.out, flight := t.flight, fab := t.fab } ∧
    t.fab = { s.fab with held := t.fab.held, heldLost := t.fab.heldLost } ∧ ∀ a, inRings a = false → t.reg a = s.reg a

end Sys2Proof.Machine
end

