-- ==== Sys2Proof/WellFormed.lean ====
section
/-! DEFINITION. Which commands are well formed: every operand within the width or the count the spec gives the thing it
names (Table 2.16 for packets; the ports, outputs, pipes, controllers, channels, links and units of chapter 1). A meaning is
total all the same: it does not rest on this check. -/

namespace Sys2Proof

open Sys2Proof.Machine

/-- The functions of the device by index: two physical functions and 64 virtual functions on each host port, the fabric
manager (66), the Crown writer (68) and the virtual functions above the table (assumption 2). -/
def fnWf (f : Nat) : Bool :=
  decide (f < 256)

/-- A packet slot (Table 2.16): four rings, PLEN of six 8-byte units at most, 48 bytes from offset 16 on. -/
def Pkt.wf (p : Pkt) : Bool :=
  fnWf p.fn && decide (p.ring < 4) && decide (p.plen < 256) && decide (p.seq < 2 ^ 32) && decide (p.timeout < 2 ^ 32)
    && decide (p.rsv < 2 ^ 32) && decide (p.params.length = 48)

/-- A register value (R15). -/
def wordWf (v : Nat) : Bool := decide (v < 2 ^ 32)

/-- An eye of a byte lane: 8-bit codes. -/
def Eye.wf (e : Eye) : Bool :=
  decide (e.width < 256) && decide (e.height < 256) && decide (e.delay < 256) && decide (e.vref < 256)

/-- A Crown request (R547): COUNT in eight bits, a 32-bit address, 32-bit words. -/
def CrownFrame.wf (f : CrownFrame) : Bool :=
  decide (f.count < 256) && wordWf f.addr && f.words.all wordWf

/-- An object flit (R490): beats of 35 bytes each. -/
def Flit.wf (f : Flit) : Bool :=
  decide (f.typ < 256) && wordWf f.handle && f.beats.all (fun b => decide (b.length = 35))

/-- Is the command well formed? -/
def Instr.wf (i : Instr) : Bool :=
  match i with
  | .powerOnReset _ => true
  | .xtal32Qualified => true
  | .xtal32QualifyTimeout => true
  | .vsaveArmed _ => true
  | .vsaveArmTimeout => true
  | .sagDetected durationUs mv mvAfter => wordWf durationUs && wordWf mv && wordWf mvAfter
  | .vddaoRecovered => true
  | .vsaveExhausted => true
  | .ledgerPeriodicUpdate => true
  | .wearSaveBufferAdd => true
  | .retrainHourRecord => true
  | .perstAssert port => decide (port < 2)
  | .perstRelease port => decide (port < 2)
  | .functionLevelReset port vf => decide (port < 2) && decide (vf < 65)
  | .hostLinkDown port => decide (port < 2)
  | .hostLinkUp port speed width => decide (port < 2) && decide (speed < 16) && decide (width < 32)
  | .managerLoss _ => true
  | .managerLossCleared => true
  | .mgrBeat writer => fnWf writer
  | .mgrHandover writer => fnWf writer
  | .mgrHbPeriodWrite writer period => fnWf writer && wordWf period
  | .registerWrite writer addr size value => fnWf writer && wordWf addr && wordWf size && wordWf value
  | .rcRegisterRead reader addr _ => fnWf reader && wordWf addr
  | .d2dLinkRetrain resends offset _ => wordWf resends && wordWf offset
  | .lowWordReadLatch reader addr => fnWf reader && wordWf addr
  | .sqEnable writer fn ring value => fnWf writer && fnWf fn && decide (ring < 4) && wordWf value
  | .sqDisable writer fn ring => fnWf writer && fnWf fn && decide (ring < 4)
  | .cqEnable writer fn value => fnWf writer && fnWf fn && wordWf value
  | .cqDisable writer fn => fnWf writer && fnWf fn
  | .doorbellSq writer fn ring value => fnWf writer && fnWf fn && decide (ring < 4) && wordWf value
  | .doorbellCq writer fn value => fnWf writer && fnWf fn && wordWf value
  | .doorbellMbox writer fn => fnWf writer && fnWf fn
  | .mboxFullClear writer fn => fnWf writer && fnWf fn
  | .clrkFetchPacket slot => decide (slot.length = 64)
  | .commandTimeout pk => pk.wf
  | .coalesceTimeout fn => fnWf fn
  | .sysNop pk => pk.wf
  | .sysGetCaps pk => pk.wf
  | .sysFence pk => pk.wf
  | .sysSlipAcquire pk => pk.wf
  | .sysSlipRelease pk => pk.wf
  | .sysSlipClear pk => pk.wf
  | .sysSlipGrant pk => pk.wf
  | .sysSlipQuery pk => pk.wf
  | .instCreate pk => pk.wf
  | .instResize pk => pk.wf
  | .resizeGraceEnd inst => decide (inst < 256)
  | .instFreeze pk => pk.wf
  | .freezeComplete inst => decide (inst < 256)
  | .instSave pk => pk.wf
  | .instRestore pk _ => pk.wf
  | .instThaw pk => pk.wf
  | .instDestroy pk => pk.wf
  | .destroyComplete inst => decide (inst < 256)
  | .instTakeover pk => pk.wf
  | .shmAlloc pk => pk.wf
  | .shmFree pk => pk.wf
  | .storageDrainComplete index => decide (index < 4096)
  | .shmHint pk => pk.wf
  | .shmUpload pk _ => pk.wf
  | .shmDownload pk _ => pk.wf
  | .shmQuery pk => pk.wf
  | .shmAllocSparse pk => pk.wf
  | .shmSetResidency pk => pk.wf
  | .memSetRegion pk => pk.wf
  | .memSetReserve pk => pk.wf
  | .memLockBank pk => pk.wf
  | .memUnlockBank pk => pk.wf
  | .placementEpoch => true
  | .epochDecisionsPublished _ _ _ _ => true
  | .epochOverrun => true
  | .granuleCopyPassDone index gran => decide (index < 4096) && decide (gran < 2 ^ 20)
  | .granuleFlip index gran => decide (index < 4096) && decide (gran < 2 ^ 20)
  | .moveReadDrain index gran => decide (index < 4096) && decide (gran < 2 ^ 20)
  | .moveTimeLimit index gran => decide (index < 4096) && decide (gran < 2 ^ 20)
  | .xdevWaitExpiry pk => pk.wf
  | .remoteSegmentLost pk peer => pk.wf && decide (peer < 2 ^ 64)
  | .rndCompile pk => pk.wf
  | .rndPass pk => pk.wf
  | .partialRender pk held _ => pk.wf && wordWf held
  | .arenaChunkFreed => true
  | .passComplete pk _ _ => pk.wf
  | .rndDispatch pk => pk.wf
  | .dispatchComplete pk _ => pk.wf
  | .rndSetArena pk => pk.wf
  | .tileWatchdog pk cluster => pk.wf && decide (cluster < 24)
  | .clusterStallTimeout pk => pk.wf
  | .bndSetLayer pk => pk.wf
  | .bndFlip pk => pk.wf
  | .bndSetLut pk => pk.wf
  | .bndSetPose pk => pk.wf
  | .motionSample q => decide (q < 4096)
  | .poseStale => true
  | .bndComposeLine pipe _ => decide (pipe < 8)
  | .outSetTiming pk => pk.wf
  | .outLinkStopped out => decide (out < 8)
  | .outPllLocked out hz => decide (out < 8) && wordWf hz
  | .outLinkTrained out outcome outcomeOdd => decide (out < 8) && decide (outcome < 16) && decide (outcomeOdd < 16)
  | .outTimingStarted out => decide (out < 8)
  | .outAux pk outcome r0 r1 => pk.wf && decide (outcome < 16) && wordWf r0 && wordWf r1
  | .outTimingRegWrite writer addr value => fnWf writer && wordWf addr && wordWf value
  | .outAdvanceWrite writer out value => fnWf writer && decide (out < 8) && wordWf value
  | .outLineStart out line _ => decide (out < 8) && wordWf line
  | .outLatch out => decide (out < 8)
  | .flipPreviousReleased out => decide (out < 8)
  | .outFrameStart out => decide (out < 8)
  | .teEdge out => decide (out < 8)
  | .tePeriodMissed out => decide (out < 8)
  | .hpdPlug out => decide (out < 8)
  | .hpdUnplug out => decide (out < 8)
  | .hpdIrq out => decide (out < 8)
  | .tolMessage out => decide (out < 8)
  | .tolLost out => decide (out < 8)
  | .escGrant target _ => decide (target < 32)
  | .escRoundEnd target => decide (target < 32)
  | .escCutoff port target urg cls index src => decide (port < 47) && decide (target < 32) && decide (urg < 8) && decide (cls < 4) && decide (index < 4096) && src.all Pkt.wf
  | .selfRefreshEntry ch => decide (ch < 16)
  | .selfRefreshExit ch _ mr4 => decide (ch < 16) && decide (mr4 < 256)
  | .retrainStep lane eye => decide (lane < 32) && eye.wf
  | .retrainStarved lane => decide (lane < 32)
  | .mr4Poll ch mr4 _ => decide (ch < 16) && decide (mr4 < 256)
  | .scrubPeriodEnd => true
  | .folioInjectArm writer value => fnWf writer && wordWf value
  | .dramTraining _ eyes _ => eyes.all Eye.wf
  | .collSetWindow pk => pk.wf
  | .collExpect pk => pk.wf
  | .collAssignUnit pk => pk.wf
  | .collCompute pk => pk.wf
  | .cvuStart writer unit => fnWf writer && decide (unit < 32)
  | .cvuAlgChange writer unit value => fnWf writer && decide (unit < 32) && wordWf value
  | .cvuData8 writer unit value => fnWf writer && decide (unit < 32) && wordWf value
  | .cvuData16 writer unit value => fnWf writer && decide (unit < 32) && wordWf value
  | .cvuData32 writer unit value => fnWf writer && decide (unit < 32) && wordWf value
  | .cvuValueWrite writer unit value => fnWf writer && decide (unit < 32) && wordWf value
  | .cvuExpectWrite writer unit value => fnWf writer && decide (unit < 32) && wordWf value
  | .cvuAliveValue writer unit value => fnWf writer && decide (unit < 32) && wordWf value
  | .cvuAliveNext writer unit => fnWf writer && decide (unit < 32)
  | .cvuAliveReset writer unit => fnWf writer && decide (unit < 32)
  | .windowOutcome out win => decide (out < 8) && decide (win < 16)
  | .gpcOutcome out _ => decide (out < 8)
  | .strgGetInfo pk => pk.wf
  | .strgSetTelltale pk => pk.wf
  | .strgChime pk => pk.wf
  | .strgHandover pk => pk.wf
  | .handoverQuiesced => true
  | .strgKeyLoad pk => pk.wf
  | .strgPermitTiming pk => pk.wf
  | .permitExpiry out => decide (out < 8)
  | .strgReqDoorbell writer => fnWf writer
  | .telltaleRefreshExpiry tt => decide (tt < 256)
  | .blinkPhaseUpdate out => decide (out < 8)
  | .chimeVoiceFree pattern => decide (pattern < 256)
  | .tchSetPanel pk => pk.wf
  | .tchSetRegion pk => pk.wf
  | .tchRecalibrate pk => pk.wf
  | .tchSetWake pk => pk.wf
  | .tchCapture pk => pk.wf
  | .touchFrameStart ctl => decide (ctl < 4)
  | .touchFrameEnd ctl raw selfRaw listen => decide (ctl < 4) && raw.all (fun v => decide (v < 2 ^ 16)) && selfRaw.all (fun v => decide (v < 2 ^ 16)) && wordWf listen
  | .suspectStableTimeout ctl node => decide (ctl < 4) && decide (node < 2240)
  | .contactStuck ctl id => decide (ctl < 4) && decide (id < 256)
  | .touchBaselineSave ctl _ => decide (ctl < 4)
  | .wakeScan ctl raw cycles => decide (ctl < 4) && raw.all (fun v => decide (v < 2 ^ 16)) && wordWf cycles
  | .wakePendingClear writer => fnWf writer
  | .hapSetChannel pk => pk.wf
  | .hapLoadEffect pk => pk.wf
  | .hapPlay pk => pk.wf
  | .hapStop pk => pk.wf
  | .hapCalibrate pk => pk.wf
  | .calibrationComplete ch _ cNf f0 g0 _ => decide (ch < 8) && wordWf cNf && wordWf f0 && wordWf g0
  | .hapLoopPeriod ch _ => decide (ch < 8)
  | .boostUp => true
  | .vhvSag vhv => wordWf vhv
  | .vhaptLoss vhapt => wordWf vhapt
  | .audSetPort pk => pk.wf
  | .audSetEndpoint pk => pk.wf
  | .audSetNode pk => pk.wf
  | .audSetRoute pk => pk.wf
  | .audCommit pk => pk.wf
  | .audioBlock _ _ _ => true
  | .tdmPortLost port => decide (port < 8)
  | .tdmPortRelock port => decide (port < 8)
  | .pwrVote pk => pk.wf
  | .pwrSetState pk => pk.wf
  | .drainComplete => true
  | .pwrMemIdlePermit pk => pk.wf
  | .pwrClearFail pk => pk.wf
  | .pcuWake writer value => fnWf writer && wordWf value
  | .wakeFromDormant => true
  | .wakeFromHairspring => true
  | .dormantWriteDrop writer addr => fnWf writer && wordWf addr
  | .domainStepReady domain => decide (domain < 24)
  | .domainStepTimeout domain => decide (domain < 24)
  | .domainDrop domain => decide (domain < 24)
  | .refclkStop => true
  | .pllLockLoss pll failed => decide (pll < 14) && wordWf failed
  | .fabLinkUp link width uid => decide (link < 4) && decide (width < 9) && decide (uid < 2 ^ 64)
  | .fabLinkLoss link => decide (link < 4)
  | .flitResend link seq => decide (link < 4) && decide (seq < 2 ^ 32)
  | .flitDiscovery link _ => decide (link < 4)
  | .fabricConverged => true
  | .flitObjectRead link f => decide (link < 4) && f.wf
  | .flitObjectData link f => decide (link < 4) && f.wf
  | .flitObjectWrite link f => decide (link < 4) && f.wf
  | .flitWriteAck link f => decide (link < 4) && f.wf
  | .flitMgmtPacket tag packet _ => decide (tag < 2 ^ 16) && decide (packet.length = 64)
  | .flitMgmtReply kind src tag time _ => decide (kind < 3) && wordWf src && decide (tag < 2 ^ 16) && decide (time < 2 ^ 64)
  | .flitTime time _ => decide (time < 2 ^ 64)
  | .fabricTimeHold => true
  | .managementWake link => decide (link < 4)
  | .fabSetRole pk => pk.wf
  | .fabForward pk => pk.wf
  | .fabSetRelay pk => pk.wf
  | .fabWake pk => pk.wf
  | .fabQuery pk => pk.wf
  | .ledgRead pk => pk.wf
  | .ledgSetCalendar pk => pk.wf
  | .ledgFlush pk => pk.wf
  | .ledgGetCalendar pk => pk.wf
  | .pmuSetCounter pk => pk.wf
  | .pmuControl pk => pk.wf
  | .pmuSetDump pk => pk.wf
  | .pmuSetSamples pk => pk.wf
  | .pmuDumpPeriod owner _ _ _ => decide (owner < 129)
  | .pmuSample counter n kind unit inst skid loc0 loc1 loc2 _ => decide (counter < 64) && wordWf n && decide (kind < 256) && decide (unit < 256) && decide (inst < 256) && wordWf skid && wordWf loc0 && wordWf loc1 && wordWf loc2
  | .crownId f => f.wf
  | .crownChallenge f => f.wf
  | .crownResponse f => f.wf
  | .crownAuthVerified => true
  | .crownReadReg f => f.wf
  | .crownWriteReg f => f.wf
  | .crownReadMem f => f.wf
  | .crownWriteMem f => f.wf
  | .crownEnd f => f.wf
  | .crownSessionTimeout => true
  | .crownLockoutEnd => true
  | .dbgCoreHalt core _ => decide (core < 4)
  | .dbgCoreResume target => decide (target < 256)
  | .dbgCoreStep target _ => decide (target < 256)
  | .clerkBreakpointHit core addr => decide (core < 4) && wordWf addr
  | .shaderBreakpointHit cluster unit key offset _ => decide (cluster < 24) && decide (unit < 256) && decide (key < 4294967296) && wordWf offset
  | .dbgStrgHalt => true
  | .dbgStrgResume => true
  | .dbgVoteWrite value => wordWf value
  | .errorRecord subsys unit tier code inst info0 info1 src => decide (subsys < 256) && decide (unit < 256) && decide (tier < 4) && decide (code < 256) && decide (inst < 256) && wordWf info0 && wordWf info1 && src.all Pkt.wf
  | .errorAck writer seq => fnWf writer && decide (seq < 2 ^ 32)
  | .errorAckAll writer => fnWf writer
  | .clerkCoreException core cause held => decide (core < 4) && decide (cause < 256) && held.all Pkt.wf
  | .clerkRestart core cause _ => decide (core < 4) && decide (cause < 256)
  | .supplyMonitorTrip rail mv request => decide (rail < 256) && wordWf mv && wordWf request
  | .thermalTrip _ => true
  | .strgWatchdogExpiry => true
  | .safeStateEntry => true
  | .recoveryReset writer key => fnWf writer && wordWf key
  | .bootSequence _ bootUs => wordWf bootUs
  | .rollbackRaise => true
  | .xspiOwnRelease _ _ => true
  | .fwStage pk _ _ => pk.wf
  | .fwSwitch pk => pk.wf
  | .strongroomSwitchTimeout => true
  | .refclkHoldoverEnd => true
  | .tdmFsEdge port ps => decide (port < 8) && wordWf ps
  | .vhvSagEnd vhv => wordWf vhv
  | .vhaptRestored vhapt => wordWf vhapt
  | .takeoverComplete => true
  | .clerkRestartComplete core => core.all (fun c => decide (c < 4))
  | .fwSwitchComplete => true
  | .stateEntryComplete => true

end Sys2Proof
end

