-- ==== Sys2Proof/Certificates/Slice0/Obligations.lean ====
section
/-! DEFINITION. The statements for the provers: what the commands do, from the rules of the spec, and what the machine keeps. -/

open Sys2Proof Sys2Proof.Machine

/-- The invariant holds right after reset. -/
def Obligations.ResetInvariant : Prop := State.reset.Inv

/-- The step takes the front of the queue; on an empty queue time passes (R12; assumption 1). -/
def Obligations.StepRunsFront : Prop :=
  (∀ (c : Instr) (r : List Instr) (s : State), step { s with pending := c :: r } = exec c { s with pending := r }) ∧
  (∀ s : State, s.pending = [] → ∃ t, step s = .next t ∧ t.now = s.now + 1)

/-- The invariant is kept by every step from every state that meets it. -/
def Obligations.StepKeepsInvariant : Prop := ∀ s t : State, s.Inv → step s = .next t → t.Inv

/-- Every command answers a next state, but for a register access outside the address space (assumption 11). -/
def Obligations.EveryCommandRuns : Prop := ∀ (i : Instr) (s : State),
  (∃ t, exec i s = .next t) ∨ ∃ (w a : Nat), addressExists (a / 4 * 4) = false ∧ exec i s = .fault (.noSuchAddress a) ∧
    ((∃ z v, i = .registerWrite w a z v) ∨ (∃ b, i = .rcRegisterRead w a b) ∨ i = .lowWordReadLatch w a)

/-- The queue is not exec's; the timebase counts nanoseconds since cold boot (R12). -/
def Obligations.QueueAndTimebase : Prop := ∀ (i : Instr) (s t : State), exec i s = .next t →
  t.pending = s.pending ∧ (t.now = s.now ∨ (∃ c, i = .powerOnReset c) ∨ i = .vsaveExhausted)

/-- May the command end the safe state: it can ask for a recovery reset, or be one, or take the main supplies away (R451, R456, R528)? -/
def Obligations.EndsSafeState (i : Instr) : Prop :=
  (∃ w a z v, i = .registerWrite w a z v) ∨ (∃ f, i = .crownWriteReg f) ∨ (∃ a b, i = .recoveryReset a b) ∨ (∃ p, i = .perstAssert p) ∨
    (∃ c, i = .powerOnReset c) ∨ i = .vsaveExhausted ∨ (∃ a b, i = .bootSequence a b) ∨ (∃ d, i = .domainStepTimeout d) ∨ i = .stateEntryComplete

/-- The safe state is left by no other command (R525, R528). -/
def Obligations.SafeStateHolds : Prop := ∀ (i : Instr) (s t : State), s.safe = true → exec i s = .next t → t.safe = true ∨ Obligations.EndsSafeState i

/-- The binding table is fixed until the next boot (R349). -/
def Obligations.BindingHolds : Prop := ∀ (i : Instr) (s t : State), exec i s = .next t →
  t.strg.bind = s.strg.bind ∨ (Obligations.EndsSafeState i ∧ t.strg.bind = none) ∨ ∃ a b, i = .bootSequence a b

/-- R68: no parameters, OK once validated. -/
def Obligations.NopProvesRing : Prop :=
  (∀ (pk : Pkt) (s t : State) (p : List Byte), s.Accepts cmdSysNop pk {} p t → pk.plen = 0 ∧ exec (.sysNop pk) s = .next (t.complete pk .ok)) ∧
  (∀ (pk : Pkt) (s : State), pk.plen ≠ 0 → s.flightOf pk = none → s.clerkRuns = true → firstFail (boundChecks cmdSysNop pk s) = none →
    offered cmdSysNop s pk.fn = true → pk.flags.toNat < 8 → pk.rsv = 0 → s.admitted cmdSysNop pk {} = false ∧
    exec (.sysNop pk) s = .next (((s.readBlock pk (some (.badLength, 0))).letIn 0 pk [] [] []).complete pk .badLength 0))

/-- Steps 1 to 6 of Table 2.21 (R60). -/
def Obligations.HeaderOrder : Prop :=
  (∀ (pk : Pkt) (s : State) (e : Status × Nat), s.flightOf pk = none → s.clerkRuns = true →
    (firstFail (headerChecks cmdShmAlloc pk s) = some e → exec (.shmAlloc pk) s = .next (((s.readBlock pk (some e)).letIn 0x0201 pk [] [] []).complete pk e.1 e.2)) ∧
    (firstFail (headerChecks cmdInstCreate pk s) = some e → exec (.instCreate pk) s = .next (((s.readBlock pk (some e)).letIn 0x0101 pk [] [] []).complete pk e.1 e.2)) ∧
    (firstFail (headerChecks cmdBndSetLayer pk s) = some e → exec (.bndSetLayer pk) s = .next (((s.readBlock pk (some e)).letIn 0x0401 pk [] [] []).complete pk e.1 e.2)) ∧
    (firstFail (headerChecks cmdOutSetTiming pk s) = some e → exec (.outSetTiming pk) s = .next (((s.readBlock pk (some e)).letIn 0x0501 pk [] [] []).complete pk e.1 e.2)) ∧
    (firstFail (headerChecks cmdHapPlay pk s) = some e → exec (.hapPlay pk) s = .next (((s.readBlock pk (some e)).letIn cmdHapPlay.op pk [] [] []).complete pk e.1 e.2))) ∧
  (∀ (pk : Pkt) (s : State), firstFail (boundChecks cmdShmAlloc pk s) = none → offered cmdShmAlloc s pk.fn = true →
    (8 ≤ pk.flags.toNat → firstFail (headerChecks cmdShmAlloc pk s) = some (.outOfRange, 0xFF01)) ∧
    (pk.flags.toNat < 8 → pk.rsv ≠ 0 → firstFail (headerChecks cmdShmAlloc pk s) = some (.outOfRange, 0xFF02)) ∧
    (pk.flags.toNat < 8 → pk.rsv = 0 → lengthOk cmdShmAlloc pk = false → firstFail (headerChecks cmdShmAlloc pk s) = some (.badLength, 0)) ∧
    (pk.flags.toNat < 8 → pk.rsv = 0 → lengthOk cmdShmAlloc pk = true → 60000000 < pk.timeout → firstFail (headerChecks cmdShmAlloc pk s) = some (.outOfRange, 0xFF03)))

/-- The frame of replies and notices (R56 to R59, R501 to R503). -/
def Obligations.RepliesOnlyTell : Prop :=
  (∀ (s : State) (pk : Pkt) (st : Status) (d a b : Nat), pk.ring ≠ windowRing → s.Tells (s.complete pk st d a b)) ∧
  (∀ (s : State) (f c d a b : Nat), s.Tells (s.post f c d a b) ∧ s.Tells (s.postMgr c d a b) ∧ s.Tells (s.postOwner f c d a b)) ∧
  (∀ (s t : State), s.Tells t → t.mem = s.mem ∧ t.shm = s.shm ∧ t.bnd = s.bnd ∧ t.outs = s.outs ∧ t.strg = s.strg ∧ t.err = s.err ∧ t.now = s.now ∧
    t.pending = s.pending ∧ ∀ a, inRings a = false → t.reg a = s.reg a)

/-- Reads after writes of registers and fields (R13, R15). -/
def Obligations.RegisterReadsBack : Prop :=
  ∀ (s : State) (a v : Nat) (f g : Fld), f.lo ≤ f.hi → f.hi ≤ 31 →
    (s.setF a f v).getF a f = v % 2 ^ (f.hi + 1 - f.lo) ∧
    (f.hi < g.lo ∨ g.hi < f.lo → (s.setF a f v).getF a g = s.getF a g) ∧
    (∀ b, b ≠ a → (s.setF a f v).reg b = s.reg b) ∧
    s.setF a f v = { s with regs := (s.setF a f v).regs }

/-- Reads after writes of the object memory (R168, R170). Objects are 2^40 cells apart (assumption 6). -/
def Obligations.MemoryReadsBack : Prop :=
  ∀ (s : State) (i off : Nat) (bs : List Byte), off % 32 = 0 → bs.length % 32 = 0 → off + bs.length ≤ 2 ^ 40 →
    (∀ k, k < bs.length → (s.writeObj i off bs).objByte i (off + k) = bs.getD k 0) ∧
    (∀ j o, o < 2 ^ 40 → (j ≠ i ∨ o < off ∨ off + bs.length ≤ o) → (s.writeObj i off bs).objByte j o = s.objByte j o) ∧
    (s.writeObj i off bs).regs = s.regs

/-- SYS_NOP, SYS_FENCE, SYS_GET_CAPS, SYS_SLIP_ACQUIRE, SYS_SLIP_RELEASE, SYS_SLIP_CLEAR, SYS_SLIP_GRANT and SYS_SLIP_QUERY (R68 to R70, R72 to R75): a packet
that is let through answers the next state written here; every other slip, register and byte of memory is as when the packet was taken
into flight. -/
def Obligations.SystemCommands : Prop :=
  (∀ (pk : Pkt) (s t : State) (p : List Byte), s.Accepts cmdSysNop pk {} p t →
    exec (.sysNop pk) s = .next (t.complete pk .ok)) ∧
  (∀ (pk : Pkt) (s t : State) (p : List Byte), s.Accepts cmdSysFence pk {} p t → t.fenceWaits pk = false →
    exec (.sysFence pk) s = .next (t.complete pk .ok)) ∧
  (∀ (pk : Pkt) (s t : State) (p : List Byte), s.Accepts cmdSysGetCaps pk (hooksSysGetCaps pk s) p t →
    t.partBad? (handleIndex (par p 16 4)) (par p 20 4) (t.capList pk.fn).length = none →
    exec (.sysGetCaps pk) s = .next ((t.store (handleIndex (par p 16 4)) (par p 20 4) (t.capList pk.fn)).complete pk .ok 0
      (t.capList pk.fn).length (t.fnState pk.fn).capGen)) ∧
  (∀ (pk : Pkt) (s t : State) (p : List Byte) (n : Nat), s.Accepts cmdSysSlipAcquire pk (hooksSysSlipAcquire pk s) p t → n = par p 16 2 →
    (t.slip n).owner = none →
    exec (.sysSlipAcquire pk) s = .next ((t.setSlip n { t.slip n with owner := some (t.ownerOf pk.fn), last := t.ownerOf pk.fn }).complete pk
      (if (t.slip n).broken then .brokenLock else .ok))) ∧
  (∀ (pk : Pkt) (s t : State) (p : List Byte) (n : Nat), s.Accepts cmdSysSlipRelease pk (hooksSysSlipRelease pk s) p t → n = par p 16 2 →
    exec (.sysSlipRelease pk) s = .next (((t.setSlip n { t.slip n with owner := none }).complete pk .ok).handSlip n)) ∧
  (∀ (pk : Pkt) (s t : State) (p : List Byte) (n : Nat), s.Accepts cmdSysSlipClear pk (hooksSysSlipClear pk s) p t → n = par p 16 2 →
    exec (.sysSlipClear pk) s = .next ((t.setSlip n { t.slip n with broken := false }).complete pk .ok)) ∧
  (∀ (pk : Pkt) (s t : State) (p : List Byte) (n : Nat), s.Accepts cmdSysSlipGrant pk (hooksSysSlipGrant s) p t → n = par p 16 2 →
    exec (.sysSlipGrant pk) s = .next ((t.setSlip n { t.slip n with mask := par p 24 8 }).complete pk .ok)) ∧
  (∀ (pk : Pkt) (s t : State) (p : List Byte), s.Accepts cmdSysSlipQuery pk (hooksSysSlipQuery pk s) p t →
    exec (.sysSlipQuery pk) s = .next (t.complete pk .ok 0 (t.slipWord (par p 16 2))))

/-- SQ_ENABLE, SQ_DISABLE, CQ_ENABLE, CQ_DISABLE, DOORBELL_SQ and DOORBELL_CQ by the function that owns the ring (R48 to R50). The counts are
kept modulo 2³². -/
def Obligations.RingControl : Prop :=
  (∀ (f p v : Nat) (s : State), s.linkUp f = true → s.getF PCU_STATE PCU_STATE_STATE = 3 → s.clerkStopped = false → p ≤ 2 → f < 66 →
    s.getF (CLRK_SQ_CTRL f p) CLRK_SQ_CTRL_EN = 0 → 6 ≤ v % 32 → v % 32 ≤ 16 →
    exec (.sqEnable f f p v) s = .next (((s.setReg (CLRK_SQ_CTRL f p) (v % 32 + 2 ^ 31)).setReg (CLRK_SQ_HEAD f p) 0).setFn f
      { s.fnState f with tails := (s.fnState f).tails.set p 0 })) ∧
  (∀ (f p : Nat) (s : State), s.linkUp f = true → s.getF PCU_STATE PCU_STATE_STATE = 3 → s.clerkStopped = false → p ≤ 2 → f < 66 →
    s.getF (CLRK_SQ_CTRL f p) CLRK_SQ_CTRL_EN = 1 →
    exec (.sqDisable f f p) s = .next (s.setReg (CLRK_SQ_CTRL f p) (s.reg (CLRK_SQ_CTRL f p) % 32))) ∧
  (∀ (f v : Nat) (s : State), s.linkUp f = true → s.getF PCU_STATE PCU_STATE_STATE = 3 → s.clerkStopped = false → f < 66 → f ≠ s.mgrFn →
    s.getF (CLRK_CQ_CTRL f) CLRK_CQ_CTRL_EN = 0 → bit v 31 = true → 6 ≤ v % 32 → v % 32 ≤ 16 → bits v 23 16 ≠ 0 →
    (s.fnState f).heldReplies = [] → (s.fnState f).heldNotices = [] →
    exec (.cqEnable f f v) s = .next (((s.setReg (CLRK_CQ_CTRL f) (v &&& 0xC0FFFFFF)).setReg (CLRK_CQ_TAIL f) 0).setFn f
      { s.fnState f with cqHead := 0, unsignalled := 0, cqEver := true })) ∧
  (∀ (f : Nat) (s : State), s.linkUp f = true → s.getF PCU_STATE PCU_STATE_STATE = 3 → s.clerkStopped = false → f < 66 →
    s.getF (CLRK_CQ_CTRL f) CLRK_CQ_CTRL_EN = 1 → s.reg (CLRK_CQ_CTRL f) &&& 0xC0FFFFFF = s.reg (CLRK_CQ_CTRL f) →
    exec (.cqDisable f f) s = .next (s.setReg (CLRK_CQ_CTRL f) (s.reg (CLRK_CQ_CTRL f) % 2 ^ 31))) ∧
  (∀ (f p v : Nat) (s : State), s.linkUp f = true → s.getF PCU_STATE PCU_STATE_STATE = 3 → p ≤ 2 → f < 66 →
    s.getF (CLRK_SQ_CTRL f p) CLRK_SQ_CTRL_EN = 1 →
    (BitVec.ofNat 32 v - s.sqTail f p).toNat ≤ 2 ^ s.getF (CLRK_SQ_CTRL f p) CLRK_SQ_CTRL_LOG2_DEPTH →
    (BitVec.ofNat 32 v - BitVec.ofNat 32 (s.reg (CLRK_SQ_HEAD f p))).toNat ≤ 2 ^ s.getF (CLRK_SQ_CTRL f p) CLRK_SQ_CTRL_LOG2_DEPTH →
    exec (.doorbellSq f f p v) s = .next (s.setFn f { s.fnState f with tails := (s.fnState f).tails.set p (BitVec.ofNat 32 v) })) ∧
  (∀ (f v : Nat) (s : State), s.linkUp f = true → s.getF PCU_STATE PCU_STATE_STATE = 3 → f < 66 → s.cqOn f = true →
    (BitVec.ofNat 32 v - (s.fnState f).cqHead).toNat ≤ s.cqDepth f →
    (BitVec.ofNat 32 (s.reg (CLRK_CQ_TAIL f)) - BitVec.ofNat 32 v).toNat ≤ s.cqDepth f →
    (s.fnState f).heldReplies = [] → (s.fnState f).heldNotices = [] →
    exec (.doorbellCq f f v) s = .next (s.setFn f { s.fnState f with cqHead := BitVec.ofNat 32 v }))

/-- HOST_LINK_DOWN, HOST_LINK_UP, PERST_ASSERT and PERST_RELEASE (R42, R440, R602). -/
def Obligations.HostLinks : Prop :=
  (∀ (k : Nat) (s : State), k < 2 → s.getF (HOST_LINK_STATUS k) HOST_LINK_STATUS_UP = 1 →
    ∃ t, exec (.hostLinkDown k) s = .next t ∧
      ((((s.setF (HOST_LINK_STATUS k) HOST_LINK_STATUS_UP 0).setF (HOST_LINK_STATUS k) HOST_LINK_STATUS_SPEED 0).setF (HOST_LINK_STATUS k)
        HOST_LINK_STATUS_WIDTH 0).showStandby).Tells t) ∧
  (∀ (k speed width : Nat) (s : State), k < 2 → s.domainUp 3 = true → s.getF (HOST_LINK_STATUS k) HOST_LINK_STATUS_PERST = 0 →
    s.getF (HOST_LINK_STATUS k) HOST_LINK_STATUS_UP = 0 → 1 ≤ speed → speed ≤ 5 → (width = 4 ∨ width = 8) →
    ∃ t, exec (.hostLinkUp k speed width) s = .next t ∧
      ((((s.setF (HOST_LINK_STATUS k) HOST_LINK_STATUS_UP 1).setF (HOST_LINK_STATUS k) HOST_LINK_STATUS_SPEED speed).setF (HOST_LINK_STATUS k)
        HOST_LINK_STATUS_WIDTH width).showStandby).Tells t) ∧
  (∀ (k : Nat) (s u t : State), k < 2 → s.getF (HOST_LINK_STATUS k) HOST_LINK_STATUS_PERST = 0 →
    u = s.setF (HOST_LINK_STATUS k) HOST_LINK_STATUS_PERST 1 → u.getF (HOST_LINK_STATUS k) HOST_LINK_STATUS_UP = 0 →
    t = (u.portFns k).foldl (fun (t : State) f => if isInst f then t.resetBound f else t.loseRings f (t.ownerOf f)) u → t.mgrFn ≠ 65 * k →
    exec (.perstAssert k) s = .next t) ∧
  (∀ (k : Nat) (s : State), k < 2 → s.pwr.off = false → s.getF (HOST_LINK_STATUS k) HOST_LINK_STATUS_PERST = 1 →
    exec (.perstRelease k) s = .next ((s.setF (HOST_LINK_STATUS k) HOST_LINK_STATUS_PERST 0).beginWake (2 + k)))

/-- CLRK_FETCH_PACKET, COMMAND_TIMEOUT, COALESCE_TIMEOUT, FLIT_MGMT_PACKET and FAB_FORWARD (R57, R63, R66, R67, R501, R502). -/
def Obligations.FetchAndTimeouts : Prop :=
  (∀ (slot : List Byte) (s : State) (k p : Nat), s.clerkFetches = true → s.nextVisit = some k → s.nextRing (k % 1024) = some p →
    ∃ t u, t = (s.setFn (k % 1024) ((s.fnState (k % 1024)).afterFetch p)).setReg (CLRK_SQ_HEAD (k % 1024) p) (s.reg (CLRK_SQ_HEAD (k % 1024) p) + 1) ∧
      u = { t with rrTaken := if k = s.rrPos ∧ s.rrTaken < 4 then s.rrTaken + 1 else 1, rrPos := k } ∧
      exec (.clrkFetchPacket slot) s =
        .next (u.takePacket (packetOf (k % 1024) p (slice slot 0 64)).1 (packetOf (k % 1024) p (slice slot 0 64)).2 none)) ∧
  (∀ (pk : Pkt) (s : State) (f : Flight), s.flightOf pk = some f → f.committed = false → s.clerkStopped = false → f.op ≠ 0x0205 → f.op ≠ 0x0E01 →
    exec (.commandTimeout pk) s = .next ((s.forget pk).complete pk .timedOut 0)) ∧
  (∀ (f : Nat) (s : State), 0 < (s.fnState f).unsignalled → s.getF (CLRK_CQ_CTRL f) CLRK_CQ_CTRL_COAL_TIME ≠ 0 → s.linkUp f = true →
    exec (.coalesceTimeout f) s = .next ((s.setFn f { s.fnState f with unsignalled := 0 }).emit (.msix f 0))) ∧
  (∀ (tag op : Nat) (packet block : List Byte) (pk : Pkt) (s : State), s.safe = false → s.fab.worker = true → s.domainUp 18 = true → s.clerkFetches = true →
    (op, pk) = packetOf fabricFn tag (slice packet 0 64) → usesBlock pk = false →
    exec (.flitMgmtPacket tag packet block) s =
      .next ((s.emit (.fabric 0 tag (.reply pk.seq .ok 0 s.now 0 0))).takePacket op pk (some []))) ∧
  (∀ (pk : Pkt) (s t : State) (p : List Byte), s.Accepts cmdFabForward pk (hooksFabForward pk s) p t → t.fab.deliveries = [] →
    usesBlock (forwardOf p).2 = false →
    exec (.fabForward pk) s = .next (({ t with fab := { t.fab with tag := (t.fab.tag + 1) % 65536, deliveries := [(pk, (t.fab.tag + 1) % 65536)] } }).emit
      (.mgmt (par p 16 1) ((t.fab.tag + 1) % 65536) (slice p 8 64) [])))

/-- REGISTER_WRITE, RC_REGISTER_READ and LOW_WORD_READ_LATCH (R13, R14, R16, R17, R43, R45); the fault is the model's (assumption 11). -/
def Obligations.RegisterAccesses : Prop :=
  (∀ (a v : Nat) (s : State), addressExists a = true → a % 4 = 0 → a < 0x1000000 → v < 2 ^ 32 → s.linkUp s.mgrFn = true →
    s.getF PCU_STATE PCU_STATE_STATE = 3 → s.clerkStopped = false → ringFn a = none → bellFn a = none → blockIndex 0x181000 0x40 32 a = none →
    blockIndex 0x140000 0x4000 8 a = none →
    ¬ [INST_MGR_CTRL, MEM_FOLIO_INJECT, FAB_CTRL, FAB_RELAY_HEAD, PCU_WAKE, HOST_SAFE_CTRL, HOST_ERR_ACK, TCH_WAKE_STATUS, STRG_REQ_DB].contains a = true →
    arrayIndex (STRG_REQ_PKT 0) 4 16 a = none → (fieldsAt a).all (fun f => s.mayChange s.mgrFn a f || !attempts (s.reg a) v f) = true →
    s.fieldsOk a (newValue a (s.reg a) v) = true → s.positionOk a v = true → isLowWord a = false → isLowWord (a - 4) = false →
    exec (.registerWrite s.mgrFn a 4 v) s = .next (s.setReg a (newValue a (s.reg a) v))) ∧
  (∀ (r a : Nat) (s : State), addressExists a = true → a % 4 = 0 → isFunction r = true → s.linkUp r = true →
    exec (.rcRegisterRead r a false) s =
      .next ((if s.reaches r a then s.clearRc a else s).afterRead a (s.readWord r a))) ∧
  (∀ (r a : Nat) (s : State), addressExists a = true → isFunction r = true → s.linkUp r = true → s.reaches r a = true → isLowWord a = true →
    ∃ t, t = { s with wideHigh := tabSet (fun _ => none) s.wideHigh (a + 4) (some (BitVec.ofNat 32 (s.shows r (a + 4)))) } ∧
      exec (.lowWordReadLatch r a) s = .next (t.afterRead a (s.readWord r a))) ∧
  (∀ (r a size v : Nat) (b : Bool) (s : State), addressExists (a / 4 * 4) = false → addressExists a = false →
    exec (.registerWrite r a size v) s = .fault (.noSuchAddress a) ∧ exec (.rcRegisterRead r a b) s = .fault (.noSuchAddress a) ∧
      exec (.lowWordReadLatch r a) s = .fault (.noSuchAddress a))

/-- INST_CREATE, FUNCTION_LEVEL_RESET, INST_DESTROY, DESTROY_COMPLETE, INST_RESIZE and RESIZE_GRACE_END (R86 to R92). -/
def Obligations.InstanceLife : Prop :=
  (∀ (pk : Pkt) (s t : State) (p : List Byte) (n : Nat) (g : Grant) (u v w : State), s.Accepts cmdInstCreate pk (hooksInstCreate s) p t →
    n = par p 16 1 → g = grantOfPacket p →
    u = (t.resetRings n).setInst n
      { state := if bit (par p 20 2) 3 then .frozen else .running, fixed := bit (par p 20 2) 0, c1 := bit (par p 20 2) 1, span := bit (par p 20 2) 2
        port := par p 17 1, vf := par p 18 1, shelfBase := par p 22 2, grant := g, createTime := t.now } →
    v = (maskList 8 g.hap).foldl (fun (u : State) c => u.hapOwnerChange c) u →
    w = ((v.allotCounters n g.counters).capChanged n).tellOwners (g.outOwn ||| g.hap) →
    exec (.instCreate pk) s = .next (w.complete pk .ok 0 0 (w.fnState n).capGen)) ∧
  (∀ (port vf n : Nat) (s : State), s.boundInst port vf = some n → (s.inst n).state ∈ [InstState.running, .frozen, .contained] →
    exec (.functionLevelReset port vf) s = .next (s.resetInst n)) ∧
  (∀ (pk : Pkt) (s t u : State) (p : List Byte) (n : Nat) (x : Inst), s.Accepts cmdInstDestroy pk (hooksInstDestroy s) p t → n = par p 16 1 →
    u = (t.commit pk).clearInst n true → x = u.inst n → x.freezePk = none → x.freezeDetail = 0 →
    exec (.instDestroy pk) s = .next ((u.setInst n { x with
      state := .destroying, items := [], flrPending := false, grant := { x.grant with outOwn := 0, outLayer := 0, hap := 0 }
      destroyPk := some pk }).tellOwners (x.grant.outOwn ||| x.grant.hap))) ∧
  (∀ (n : Nat) (pk : Pkt) (s t : State), s.safe = false → (s.inst n).state = .destroying → (s.inst n).destroyPk = some pk → (s.inst n).freezePk = none →
    s.referenced n = false → t = { s with aud := { s.aud with nodes := s.aud.nodes.filter (fun q => decide (q.1 / 128 ≠ n)) } } →
    exec (.destroyComplete n) s = .next ((((t.allotCounters n 0).resetRings n).setInst n {}).complete pk .ok)) ∧
  (∀ (pk : Pkt) (s t u v : State) (p : List Byte) (n : Nat) (g : Grant), s.Accepts cmdInstResize pk (hooksInstResize s) p t → n = par p 16 1 →
    g = grantOfPacket p → u = (t.commit pk).setGrant n g (bit (par p 20 2) 1) (bit (par p 20 2) 2) →
    v = u.tellOwners ((g.outOwn ||| g.hap) &&& (0xFF ^^^ ((t.inst n).grant.outOwn ||| (t.inst n).grant.hap))) →
    (v.setInst n { v.inst n with resize := some ⟨pk, false⟩ }).deficits n = [] →
    exec (.instResize pk) s = .next ((v.setInst n { v.inst n with resize := some ⟨pk, false⟩ }).endResize n 0 0)) ∧
  (∀ (n : Nat) (s : State), s.safe = false → (s.inst n).resize.isSome = true →
    exec (.resizeGraceEnd n) s = .next ((s.reclaim n).state.endResize n (s.reclaim n).items (s.reclaim n).granules))

/-- INST_FREEZE, FREEZE_COMPLETE, INST_THAW, INST_SAVE and INST_RESTORE (R100 to R107). -/
def Obligations.InstanceMigration : Prop :=
  (∀ (pk : Pkt) (s t : State) (p : List Byte) (n : Nat), s.Accepts cmdInstFreeze pk (hooksInstFreeze s) p t → n = par p 16 1 →
    (t.inst n).state ≠ .frozen →
    ∃ u, u = (t.commit pk).setInst n { t.inst n with
        state := .freezing, freezeTime := t.now, everFrozen := true, restored := none, freezePk := some pk, freezeDetail := 0 } ∧
      exec (.instFreeze pk) s = .next ((u.breakSlips n .frozen 0).withdraw n)) ∧
  (∀ (n : Nat) (pk : Pkt) (s : State), s.clerkRuns = true → (s.inst n).freezePk = some pk → (s.inst n).state = .freezing → (s.inst n).flrPending = false →
    s.flight.any (fun f => decide (f.pk.fn = n) && f.committed) = false →
    ∃ u, u = s.setInst n { s.inst n with state := .frozen, freezePk := none, freezeDetail := 0, flrPending := false } ∧
      exec (.freezeComplete n) s =
        .next (u.complete pk .ok (s.inst n).freezeDetail (s.inst n).withdrawn ((s.now - (s.inst n).freezeTime) / 1000))) ∧
  (∀ (pk : Pkt) (s t u v : State) (p : List Byte) (n time : Nat), s.Accepts cmdInstThaw pk (hooksInstThaw s) p t → n = par p 16 1 →
    (t.inst n).restored = some time → tabGet (fun _ => 0) t.coll.unitsLost n = 0 →
    u = (t.setInst n { t.inst n with state := .running, items := [], withdrawn := 0, restored := none }).flushHeld n →
    v = u.post n 0x8107 0 time u.now →
    exec (.instThaw pk) s = .next (({ v with
      flight := v.flight ++ (t.inst n).items.map (fun (i : Item) => Flight.mk i.op i.pk i.block false false [] [] false) }).complete pk .ok)) ∧
  (∀ (pk : Pkt) (s t u : State) (p : List Byte) (n : Nat) (img : Image), s.Accepts cmdInstSave pk (hooksInstSave s) p t → n = par p 16 1 →
    par p 17 1 = 0 → t.linkUp pk.fn = true → img = t.imageOfInst n false (par p 18 1) 0 → img.length ≤ par p 32 8 → t.badObject? n = none →
    u = (t.objectsOf n).foldl (fun (u : State) o => u.noteRead o.1 0 (65536 * o.2.granules)) t →
    exec (.instSave pk) s = .next ((({ u with insts := { u.insts with saveSeq := img.saveSeq } }).emit (.image pk.fn (par p 24 8) img)).complete pk
      .ok 0 img.length img.saveSeq)) ∧
  (∀ (pk : Pkt) (img : Image) (s t u v : State) (ks : List Nat) (p : List Byte) (n : Nat), s.insts.restoring = none →
    s.Accepts cmdInstRestore pk (hooksInstRestore pk img s) p t → n = par p 16 1 → t.linkUp pk.fn = true →
    State.loadObjects n img img.objects t = some u → (ks, v) = ((u.commit pk).loadRest n img).loadTimings img.chapters →
    exec (.instRestore pk img) s = .next (({ v with insts := { v.insts with restoring := some (pk, ks) } }).endRestore))

/-- DOORBELL_MBOX and MBOX_FULL_CLEAR (R95, R96). -/
def Obligations.Mailboxes : Prop :=
  (∀ (n : Nat) (s : State), 1 ≤ n → n ≤ 64 → s.linkUp n = true → s.linkUp s.mgrFn = true → s.getF PCU_STATE PCU_STATE_STATE = 3 → s.clerkStopped = false →
    (s.inst n).state ≠ .absent → bit (s.reg (CLRK_MBOX_STATUS n)) 0 = false →
    exec (.doorbellMbox n n) s = .next ((s.setBit (CLRK_MBOX_STATUS n) 0 true).emit (.msix s.mgrFn 1))) ∧
  (∀ (n : Nat) (s : State), 1 ≤ n → n ≤ 64 → s.linkUp s.mgrFn = true → s.getF PCU_STATE PCU_STATE_STATE = 3 → s.clerkStopped = false →
    (s.inst n).state ≠ .absent → bit (s.reg (CLRK_MBOX_STATUS n)) 0 = true →
    ∃ t, exec (.mboxFullClear s.mgrFn n) s = .next t ∧ (s.setBit (CLRK_MBOX_STATUS n) 0 false).Tells t)

/-- MGR_BEAT, MGR_HANDOVER, MGR_HB_PERIOD_WRITE, MANAGER_LOSS, MANAGER_LOSS_CLEARED, INST_TAKEOVER and TAKEOVER_COMPLETE (R97 to R99). -/
def Obligations.ManagerAndStandby : Prop :=
  (∀ (s : State), s.linkUp s.mgrFn = true → s.getF PCU_STATE PCU_STATE_STATE = 3 → s.clerkStopped = false →
    s.getF INST_MGR_CTRL INST_MGR_CTRL_HB_PERIOD ≤ 10000 →
    ∃ t, exec (.mgrBeat s.mgrFn) s = .next t ∧ t.insts = { s.insts with beatAt := s.now, lossBeat := false } ∧
      t.getF INST_MGR_CTRL INST_MGR_CTRL_HB_PERIOD = s.getF INST_MGR_CTRL INST_MGR_CTRL_HB_PERIOD ∧
      t.getF INST_MGR_CTRL INST_MGR_CTRL_ARM = s.getF INST_MGR_CTRL INST_MGR_CTRL_ARM ∧
      t.getF INST_MGR_STATUS INST_MGR_STATUS_LOSS = b2n (s.insts.lossLink || s.insts.handover) ∧ t.mem = s.mem ∧ t.shm = s.shm) ∧
  (∀ (s : State), s.linkUp s.mgrFn = true → s.getF PCU_STATE PCU_STATE_STATE = 3 → s.clerkStopped = false →
    s.getF INST_MGR_CTRL INST_MGR_CTRL_HB_PERIOD ≤ 10000 →
    ∃ t, exec (.mgrHandover s.mgrFn) s = .next t ∧ t.insts = { s.insts with handover := true } ∧
      t.getF INST_MGR_STATUS INST_MGR_STATUS_LOSS = 1 ∧ t.mem = s.mem ∧ t.shm = s.shm) ∧
  (∀ (s : State) (ms : Nat), s.linkUp s.mgrFn = true → s.getF PCU_STATE PCU_STATE_STATE = 3 → s.clerkStopped = false → ms ≤ 10000 →
    ms ≠ s.getF INST_MGR_CTRL INST_MGR_CTRL_HB_PERIOD →
    ∃ t, exec (.mgrHbPeriodWrite s.mgrFn ms) s = .next t ∧ t.insts = { s.insts with beatAt := s.now, lossBeat := false } ∧
      t.getF INST_MGR_CTRL INST_MGR_CTRL_HB_PERIOD = ms ∧ t.getF INST_MGR_CTRL INST_MGR_CTRL_ARM = s.getF INST_MGR_CTRL INST_MGR_CTRL_ARM ∧
      t.mem = s.mem ∧ t.shm = s.shm) ∧
  (∀ (s : State), s.linkUp s.mgrFn = false →
    ∃ t, exec (.managerLoss true) s = .next t ∧ t.insts = { s.insts with lossLink := true } ∧ t.getF INST_MGR_STATUS INST_MGR_STATUS_LOSS = 1 ∧
      t.mem = s.mem ∧ t.shm = s.shm) ∧
  (∀ (s : State), s.linkUp s.mgrFn = true → s.getF INST_MGR_CTRL INST_MGR_CTRL_HB_PERIOD = 0 → s.insts.handover = false →
    exec .managerLossCleared s =
      .next (({ s with insts := { s.insts with lossLink := false, lossBeat := false } }).setF INST_MGR_STATUS INST_MGR_STATUS_LOSS 0)) ∧
  (∀ (pk : Pkt) (s t u v : State) (p : List Byte) (l : InstsState), s.Accepts cmdInstTakeover pk (hooksInstTakeover s) p t → t.fw.switch = none →
    u = (((t.commit pk).breakSlips 0 .aborted 0).endAll (fun f => decide (f.pk.fn = t.mgrFn)) .aborted 0).disableRings t.mgrFn →
    v = (u.setF INST_MGR_STATUS INST_MGR_STATUS_ROLE (1 - u.getF INST_MGR_STATUS INST_MGR_STATUS_ROLE)).setReg INST_MGR_CTRL (2 ^ 16) →
    l = { v.insts with lossLink := false, lossBeat := false, handover := false, beatAt := v.now, takeover := some pk } →
    ∃ w, exec (.instTakeover pk) s = .next w ∧ (((({ v with insts := l }).setF INST_MGR_STATUS INST_MGR_STATUS_LOSS 0)).showStandby).Tells w) ∧
  (∀ (pk : Pkt) (s : State), s.insts.takeover = some pk →
    exec .takeoverComplete s = .next (({ s with insts := { s.insts with takeover := none } }).complete pk .ok))

/-- SHM_ALLOC, SHM_ALLOC_SPARSE, SHM_FREE, SHM_SET_RESIDENCY, SHM_HINT and SHM_QUERY (R111 to R120, R239, R240). -/
def Obligations.ObjectCommands : Prop :=
  (∀ (pk : Pkt) (s t u : State) (p : List Byte) (i a : Nat) (runs : List (Place × Nat)), s.Accepts cmdShmAlloc pk (hooksShmAlloc pk s) p t →
    t.freeIndex (t.ownerOf pk.fn) = some i → t.placeNew (par p 24 2) (par p 26 1) (ceilDiv (par p 16 8) 65536) = some runs →
    t.chooseDva (t.ownerOf pk.fn) (65536 * ceilDiv (par p 16 8) 65536) (fixedDva p) = (some a, u) →
    ∃ (v : State) (o : Obj), exec (.shmAlloc pk) s = .next (v.complete pk .ok 0 (mkHandle i (t.shelf i).gen) a) ∧
      v.shelf i = { t.shelf i with obj := some o } ∧ o.owner = t.ownerOf pk.fn ∧ o.desc.handle = mkHandle i (t.shelf i).gen ∧
      o.desc.size = par p 16 8 ∧ o.desc.usage = par p 24 2 ∧ o.desc.cls = par p 26 1 ∧ o.desc.dva = a ∧ o.desc.deadline = par p 28 4 ∧
      o.desc.period = par p 32 4 ∧ o.desc.sparse = none ∧ o.runs = runs ∧ o.grans = [] ∧ (∀ j, j ≠ i → v.shelf j = t.shelf j) ∧ v.regs = t.regs) ∧
  (∀ (pk : Pkt) (s t u : State) (p : List Byte) (i a : Nat), s.Accepts cmdShmAllocSparse pk (hooksShmAllocSparse pk s) p t →
    t.freeIndex (t.ownerOf pk.fn) = some i → t.chooseDva (t.ownerOf pk.fn) (par p 16 8) (fixedDva p) = (some a, u) →
    ∃ (v : State) (o : Obj), exec (.shmAllocSparse pk) s = .next (v.complete pk .ok 0 (mkHandle i (t.shelf i).gen) a) ∧
      v.shelf i = { t.shelf i with obj := some o } ∧ o.owner = t.ownerOf pk.fn ∧ o.desc.handle = mkHandle i (t.shelf i).gen ∧
      o.desc.size = par p 16 8 ∧ o.desc.sparse = some [] ∧ o.desc.dva = a ∧ o.runs = [] ∧ o.grans = [] ∧
      o.feedback = (if par p 28 4 = 0 then none else some (par p 28 4, par p 32 4)) ∧ (∀ j, j ≠ i → v.shelf j = t.shelf j) ∧ v.regs = t.regs) ∧
  (∀ (pk : Pkt) (s t : State) (p : List Byte), s.Accepts cmdShmFree pk (hooksShmFree pk s) p t → t.stillUsed pk (par p 16 4) = false →
    ((t.obj? (par p 16 4)).map Obj.mirrored).getD false = false →
    exec (.shmFree pk) s = .next (((t.freeObject (handleIndex (par p 16 4))).forgetRegistrar pk).complete pk .ok)) ∧
  (∀ (pk : Pkt) (s t : State) (p : List Byte) (o : Obj) (had : List Nat) (runs : List (Place × Nat)),
    s.Accepts cmdShmSetResidency pk (hooksShmSetResidency pk s) p t → t.obj? (par p 16 4) = some o → o.desc.sparse = some had → par p 20 1 = 1 →
    t.placeNew o.desc.usage o.desc.cls (tilesChanged had p).length = some runs →
    exec (.shmSetResidency pk) s = .next ((t.setObj (handleIndex (par p 16 4)) (fun o => giveTiles (tilesChanged had p) runs
      { o with desc := { o.desc with sparse := some (sortBy id (had ++ tilesChanged had p)) } })).complete pk .ok 0 (tilesChanged had p).length
        (sortBy id (had ++ tilesChanged had p)).length)) ∧
  (∀ (pk : Pkt) (s t : State) (p : List Byte) (o : Obj), s.Accepts cmdShmHint pk (hooksShmHint pk s) p t → t.obj? (par p 16 4) = some o →
    bit (par p 20 1) 0 = false → bit (par p 20 1) 1 = false →
    exec (.shmHint pk) s = .next (((t.setObj (handleIndex (par p 16 4)) (fun o => { o with desc := { o.desc with
      deadline := if bit (par p 20 1) 2 then par p 24 4 else o.desc.deadline
      period := if bit (par p 20 1) 3 then par p 28 4 else o.desc.period } })).forgetRegistrar pk).complete pk .ok)) ∧
  (∀ (pk : Pkt) (s t : State) (p : List Byte) (o : Obj), s.Accepts cmdShmQuery pk (hooksShmQuery pk s) p t → t.obj? (par p 16 4) = some o →
    exec (.shmQuery pk) s = .next (t.complete pk .ok 0 o.desc.size (t.whereWord (handleIndex (par p 16 4)) o)))

/-- SHM_UPLOAD, SHM_DOWNLOAD, MEM_SET_REGION, MEM_SET_RESERVE, MEM_LOCK_BANK and MEM_UNLOCK_BANK (R119, R152 to R154, R176). -/
def Obligations.TransfersAndRegions : Prop :=
  (∀ (pk : Pkt) (host : List Byte) (s t : State) (p : List Byte) (i off n : Nat), s.Accepts cmdShmUpload pk (hooksShmUpload s) p t →
    i = handleIndex (par p 16 4) → off = par p 24 8 → n = par p 32 8 → host.length = n → t.linkUp pk.fn = true →
    (granRange off n).length ≤ t.reserveFree → t.partBad? i off n = none →
    exec (.shmUpload pk (some host)) s = .next (((t.store i off host).setObj i (fun o => (granRange off n).foldl (fun o g =>
      o.setGran g { o.gran g with copyGen := ((o.gran g).copyGen + 1) % 256 }) o)).complete pk .ok)) ∧
  (∀ (pk : Pkt) (s t : State) (p : List Byte) (i off n : Nat), s.Accepts cmdShmDownload pk (hooksShmDownload s) p t →
    i = handleIndex (par p 16 4) → off = par p 24 8 → n = par p 32 8 → t.linkUp pk.fn = true → t.badBeat? i off n = none →
    exec (.shmDownload pk false) s = .next (((t.noteRead i off n).emit (.buffer pk.fn (par p 40 8) (t.objBytes i off n))).complete pk .ok)) ∧
  (∀ (pk : Pkt) (s t : State) (p : List Byte) (k : Nat), s.Accepts cmdMemSetRegion pk (hooksMemSetRegion s) p t → k = par p 16 1 →
    bit (par p 18 1) 0 = true →
    exec (.memSetRegion pk) s = .next (((t.setReg (MEM_REGION_BASE k) (par p 20 4)).setReg (MEM_REGION_CFG k)
      (2 ^ 31 + b2n (bit (par p 18 1) 1) * 2 ^ 30 + par p 17 1 * 2 ^ 28 + par p 24 4)).complete pk .ok)) ∧
  (∀ (pk : Pkt) (s t u : State) (p : List Byte) (k : Nat), s.Accepts cmdMemSetRegion pk (hooksMemSetRegion s) p t → k = par p 16 1 →
    bit (par p 18 1) 0 = false → t.regionOn k = true → t.mem.arena = [] → t.shm.leaving.contains (Place.region k, pk) = true →
    t.granulesAt (.region k) (fun _ => true) = [] → t.drainAt (.region k) = 0 → spread t.roomAt 0 ((t.dramOrder 32 2).filter (fun q => decide (q ≠ .region k))) = some [] →
    u = (t.setReg (MEM_REGION_BASE k) 0).setReg (MEM_REGION_CFG k) 0 →
    exec (.memSetRegion pk) s = .next ((u.forgetRegistrar pk).complete pk .ok)) ∧
  (∀ (pk : Pkt) (s t : State) (p : List Byte), s.Accepts cmdMemSetReserve pk (hooksMemSetReserve s) p t →
    exec (.memSetReserve pk) s = .next (({ t with shm := { t.shm with movePool := par p 16 4 } }).complete pk .ok)) ∧
  (∀ (pk : Pkt) (s t u : State) (p : List Byte) (b : Nat), s.Accepts cmdMemLockBank pk {} p t → b = par p 16 1 → t.bankLocked b = false → t.shm.moves = [] →
    t.shm.leaving = [] → u = ({ t with shm := { t.shm with leaving := [(Place.bank b, pk)] } }).dropShadows b →
    u.granulesAt (.bank b) (fun o => decide (o.desc.cls ≠ 1)) = [] →
    exec (.memLockBank pk) s = .next (((u.setBit MEM_CARREL_LOCK b true).forgetRegistrar pk).complete pk .ok)) ∧
  (∀ (pk : Pkt) (s t : State) (p : List Byte), s.Accepts cmdMemUnlockBank pk (hooksMemUnlockBank s) p t →
    exec (.memUnlockBank pk) s = .next ((t.setBit MEM_CARREL_LOCK (par p 16 1) false).complete pk .ok))

/-- GRANULE_COPY_PASS_DONE, GRANULE_FLIP, MOVE_READ_DRAIN, MOVE_TIME_LIMIT, STORAGE_DRAIN_COMPLETE, PLACEMENT_EPOCH, EPOCH_DECISIONS_PUBLISHED,
EPOCH_OVERRUN and XDEV_WAIT_EXPIRY (R117, R122 to R129, R139). -/
def Obligations.MovesAndEpochs : Prop :=
  (∀ (i g : Nat) (s : State) (m : Move), s.safe = false → s.move? i g = some m → m.hold = false → m.firstDone = true → m.dirty.length ≤ 16 →
    (s.errorsIn i g).any (fun b => s.beatBad i b) = false →
    exec (.granuleCopyPassDone i g) s = .next { s with shm := { s.shm with
      moves := s.shm.moves.map (fun y => if y = m then { m with firstDone := true, hold := true } else y) } }) ∧
  (∀ (i g : Nat) (s : State) (m : Move) (o : Obj), s.safe = false → s.move? i g = some m → (s.shelf i).obj = some o → m.hold = true →
    s.permits o.desc.cls m.target = true → s.errorsIn i g = [] →
    ∃ t u, t = s.setObj i (fun o => o.setGran g { o.gran g with
        place := some m.target, copyGen := ((o.gran g).copyGen + 1) % 256, flipEpoch := some s.shm.epochIndex, shadow := none }) ∧
      u = { t with shm := { t.shm with moves := t.shm.moves.filter (fun x => decide (x ≠ m))
                                       draining := t.shm.draining ++ [Drain.mk i (some g) o.owner [(o.place g, 1)] 0 0] } } ∧
      exec (.granuleFlip i g) s = .next ((u.count REGR_MOVE_COUNT).occur { event := 0x8001, unit := 0 })) ∧
  (∀ (i g : Nat) (s : State), s.safe = false →
    exec (.moveReadDrain i g) s = .next { s with shm := { s.shm with
      draining := dropFirst (fun d => decide (d.index = i ∧ d.gran = some g)) s.shm.draining } }) ∧
  (∀ (i g : Nat) (s : State) (m : Move), s.safe = false → s.move? i g = some m → m.hold = false →
    exec (.moveTimeLimit i g) s = .next (s.cancelMove m 5)) ∧
  (∀ (i : Nat) (s : State), s.safe = false → s.framesRead i = false → (s.shelf i).obj = none →
    ∃ t, exec (.storageDrainComplete i) s = .next t ∧ t.regs = s.regs ∧ t.shm = { s.shm with
      draining := dropFirst (fun d => decide (d.index = i ∧ d.gran = none)) s.shm.draining }) ∧
  (∀ (s : State), s.pwr.entry = none → s.dormant = false → s.safe = false →
    ∀ t : State, t = { s with shm := { s.shm with
        epochIndex := s.shm.epochIndex + 1, cancelled := []
        entries := s.shm.entries.map (fun (e : Nat × ShelfEntry) => (e.1, { e.2 with obj := e.2.obj.map (fun (o : Obj) =>
        { o with grans := tabMap (fun _ => {}) o.grans (fun _ g => g.newEpoch), degraded := if s.outsideFirst o then o.degraded + 1 else 0 }) })) } } →
      ∃ u, t.Tells u ∧ exec .placementEpoch s = .next ({ u.setF REGR_STATUS REGR_STATUS_PAUSED (s.getF REGR_CTRL REGR_CTRL_PAUSE) with
        shm := { u.shm with policyRun := decide (s.getF REGR_CTRL REGR_CTRL_PAUSE = 0) && decide (s.getF REGR_STATUS REGR_STATUS_POLICY_UP = 1) &&
          s.clerkRuns } })) ∧
  (∀ (moves : List (Nat × Nat × Nat)) (allot : List (Nat × Nat)) (shadows mirrors : List (Nat × Nat × Nat)) (s t u : State), s.clerkRuns = true →
    s.shm.policyRun = true →
    t = ((({ s with shm := { s.shm with policyRun := false
                                        allotments := allot.map (fun (a : Nat × Nat) => (a.1, if isInst a.1 then max a.2 (s.inst a.1).grant.shader else a.2)) }
          }).setReg64 REGR_EPOCH_LO (s.reg64 REGR_EPOCH_LO + 1)).occur { event := 0x8003, unit := 0 }) →
    u = ((sortBy t.moveKey (moves.filter (fun m => ((placeOf m.2.2).map (fun p => t.moveAllowed m.1 m.2.1 p)).getD false))).take
      (t.getF REGR_CTRL REGR_CTRL_MOVE_BUDGET)).foldl (fun v m => match placeOf m.2.2 with
        | some p => v.startMove m.1 m.2.1 p false
        | none => v) t →
    ∃ v, exec (.epochDecisionsPublished moves allot shadows mirrors) s = .next v ∧ v.regs = u.regs ∧ v.shm = { u.shm with entries := v.shm.entries } ∧
      v.mem = u.mem) ∧
  (∀ (s : State), s.shm.policyRun = true →
    ∃ t, exec .epochOverrun s = .next t ∧ (({ s with shm := { s.shm with policyRun := false } }).count REGR_OVERRUN_COUNT).Tells t) ∧
  (∀ (pk : Pkt) (s : State) (f : Flight), s.clerkRuns = true → pk ∈ s.shm.xdevWaits → s.flightOf pk = some f → f.committed = false →
    exec (.xdevWaitExpiry pk) s = .next (({ s with shm := { s.shm with
      xdevWaits := s.shm.xdevWaits.filter (fun q => decide (q ≠ pk)) } }).complete pk .dependencyFailed 0))

/-- BND_SET_LAYER, BND_FLIP, BND_SET_LUT, BND_SET_POSE, MOTION_SAMPLE, POSE_STALE and FLIP_PREVIOUS_RELEASED (R255 to R258, R262, R263, R270, R283
to R285), and what the latch makes of a layer's settings and flip. -/
def Obligations.LayersAndPoses : Prop :=
  (∀ (pk : Pkt) (s t : State) (p : List Byte) (key : Nat), s.Accepts cmdBndSetLayer pk (hooksBndSetLayer pk s) p t →
    key = layerKey (t.ownerOf pk.fn) (par p 16 1) → par p 23 1 ≠ 3 → (t.layer key).pend = none →
    exec (.bndSetLayer pk) s = .next (t.setLayer key { t.layer key with
      pend := some (layerSetOf p [], pk), reserved := t.resFor key (layerSetOf p []) })) ∧
  (∀ (pk old : Pkt) (s t u : State) (p : List Byte) (key : Nat) (l : LayerSet), s.Accepts cmdBndSetLayer pk (hooksBndSetLayer pk s) p t →
    key = layerKey (t.ownerOf pk.fn) (par p 16 1) → par p 23 1 ≠ 3 → (t.layer key).pend = some (l, old) → old ≠ pk → u = t.complete old .aborted 1 →
    exec (.bndSetLayer pk) s = .next (u.setLayer key { u.layer key with
      pend := some (layerSetOf p [], pk), reserved := t.resFor key (layerSetOf p []) })) ∧
  (∀ (pk : Pkt) (s t u : State) (p : List Byte) (key : Nat), s.Accepts cmdBndFlip pk (hooksBndFlip pk s) p t →
    key = layerKey (t.ownerOf pk.fn) (par p 16 1) →
    (((t.layer key).flip = none ∧ u = t) ∨ ∃ f, (t.layer key).flip = some f ∧ f.pk ≠ pk ∧ u = t.complete f.pk .aborted 1) →
    exec (.bndFlip pk) s = .next (u.setLayer key { u.layer key with
      flip := some ⟨pk, par p 20 4, if bit (par p 17 1) 0 then some (poseOf (par p 24 8) (par p 32 8)) else none⟩ })) ∧
  (∀ (pk : Pkt) (s t u : State) (p : List Byte) (table : List Nat), s.Accepts cmdBndSetLut pk (hooksBndSetLut pk s) p t →
    ((par p 18 1 = 2 ∧ table = lutBytes t p ∧ u = t.noteRead (handleIndex (par p 20 4)) (par p 24 4) 6144) ∨
      (par p 18 1 ≠ 2 ∧ table = [] ∧ u = t)) →
    (∀ key, par p 16 1 = 0 → key = layerKey (t.ownerOf pk.fn) (par p 17 1) → (t.layer key).lutPend.any (fun x => x.2 = pk) = false →
      exec (.bndSetLut pk) s = .next (u.setLayer key { t.layer key with lutPend := (t.layer key).lutPend ++ [(table, pk)] })) ∧
    (∀ k, par p 16 1 = 1 → k = par p 17 1 → (t.pipe k).pend.any (fun x => x.2.2 = pk) = false →
      exec (.bndSetLut pk) s = .next (u.setPipe k { t.pipe k with pend := (t.pipe k).pend ++ [(par p 18 1, table, pk)] }))) ∧
  (∀ (s : State) (key frame : Nat) (l : LayerSet) (pk : Pkt), (s.layer key).pend = some (l, pk) → l.enable = true →
    s.applySet key frame = (s.setLayer key { s.layer key with
      cur := some l, pend := none, held := (s.layer key).reserved, reserved := {} }).complete pk .ok 0 frame s.now) ∧
  (∀ (s t : State) (key frame : Nat) (f : Flip), (s.layer key).flip = some f →
    t = s.setLayer key { s.layer key with
      flip := none, buf := some (f.handle, f.pose), lastFlip := frame, poison := false, metaPosted := false } →
    s.applyFlip key frame 0 = ({ t with coll := { t.coll with hiddenKeys := t.coll.hiddenKeys.filter (fun q => decide (q ≠ key)) } }).complete
      f.pk .ok 0 frame s.now) ∧
  (∀ (pk : Pkt) (s t : State) (p : List Byte), s.Accepts cmdBndSetPose pk (hooksBndSetPose s) p t →
    exec (.bndSetPose pk) s = .next ((((({ t with bnd := { t.bnd with pose := some (poseOf (par p 16 8) (par p 24 8)) } }).setReg64
      BND_POSE_TIME_LO (par p 16 8)).setF BND_MOTION_STATUS BND_MOTION_STATUS_VALID 1)).complete pk .ok)) ∧
  (∀ (q : Nat) (s : State) (p : Pose), s.getF BND_MOTION_CTRL BND_MOTION_CTRL_SRC = 1 ∨ s.getF BND_MOTION_CTRL BND_MOTION_CTRL_SRC = 2 →
    p = poseOf (s.now - 10000 * s.getF BND_MOTION_CTRL BND_MOTION_CTRL_LAT) (q % 2 ^ 64) →
    (poseOk p = true → exec (.motionSample q) s = .next ((({ s with bnd := { s.bnd with pose := some p } }).setReg64
      BND_POSE_TIME_LO p.time).setF BND_MOTION_STATUS BND_MOTION_STATUS_VALID 1)) ∧
    (poseOk p = false → exec (.motionSample q) s = .next (s.countF BND_MOTION_STATUS BND_MOTION_STATUS_BAD))) ∧
  (∀ (s : State) (p : Pose), s.bnd.pose = some p → s.getF BND_MOTION_STATUS BND_MOTION_STATUS_POSE_STALE = 0 → 2000000 < s.now - p.time →
    ∃ t, exec .poseStale s = .next t ∧ (s.setF BND_MOTION_STATUS BND_MOTION_STATUS_POSE_STALE 1).Tells t) ∧
  (∀ (k : Nat) (s : State), exec (.flipPreviousReleased k) s = .next
    ((s.bnd.layers.filter (fun (p : Nat × Layer) => ((p.2.cur.map LayerSet.output).getD k) == k)).foldl (fun (t : State) (p : Nat × Layer) =>
      p.2.releasing.foldl (fun (t : State) (x : Pkt × Nat × Nat) => t.complete x.1 .ok 0 x.2.1 x.2.2)
        (t.setLayer p.1 { t.layer p.1 with releasing := [] })) s))

/-- OUT_LATCH, OUT_TIMING_STARTED, OUT_FRAME_START, BND_COMPOSE_LINE, OUT_TIMING_REG_WRITE and OUT_ADVANCE_WRITE (R277, R291, R292, R298, R303, R305). -/
def Obligations.LatchAndFrame : Prop :=
  (∀ (k frame : Nat) (s w a b : State), k < 8 → s.outState k = 1 → s.latchOf k = k → (s.outp k).change = none → s.safe = false → frame = s.frame k + 1 →
    w = (s.halves k).foldl (fun t j => t.latchWindows frame j) s → w.safe = false →
    a = (s.halves k).foldl (fun t j => (List.range 16).foldl (fun u w => u.settleEscalation j w) t) w →
    b = (s.halves k).foldl (fun t j => ((t.latchCheckers frame j).latchPlane frame j).latchRuns frame j) ((a.latchBindery k frame).latchTelltales frame k) →
    exec (.outLatch k) s = .next ((s.halves k).foldl (fun t j => t.noteLatch frame j) b)) ∧
  (∀ (k : Nat) (s : State) (c : Change), k < 8 → s.outState k = 1 → s.latchOf k = k → (s.outp k).change = some c →
    exec (.outLatch k) s = .next (if c.step = 0 then s.setOutp k { s.outp k with change := some { c with step := 1 } } else s)) ∧
  (∀ (k : Nat) (s t u : State) (c : Change), k < 8 → (s.outp k).change = some c → c.step = 4 → t = (s.startTiming k c).recharge k →
    u = (t.halves k).foldl (fun t j => ((t.setPipe j { t.pipe j with busy := false, next := none }).fitWindows j).startChecking j) t →
    exec (.outTimingStarted k) s = .next (((u.halves k).foldl (fun t j => t.stateTolerance j) u).latch k)) ∧
  (∀ (k : Nat) (s t : State), k < 8 → s.outState k = 1 → s.latchOf k = k → t = (s.halves k).foldl (fun t j => t.frameStart j) s →
    (∀ c, (t.outp k).change = some c → c.step = 5 →
      exec (.outFrameStart k) s = .next (t.endChange k (b2n c.failed) (t.frame k) c.hz)) ∧
    ((t.outp k).change = none → exec (.outFrameStart k) s = .next t)) ∧
  (∀ (k : Nat) (fills : List (Nat × Nat)) (s t u : State), k < 8 → s.outState k = 1 → t = s.takeScene k →
    u = fills.foldl (fun t f => if f.1 < 16 then t.reportFill k (t.pipe k).scene.frame f else t) t → (u.pipe k).busy = true →
    (u.pipe k).nextLine < u.getF (OUT_VACTIVE k) OUT_VACTIVE_ACTIVE → (u.outp k).fifo.length < u.fifoCapacity k →
    exec (.bndComposeLine k fills) s = .next (u.composeLine k (u.pipe k).nextLine)) ∧
  (∀ (k : Nat) (s : State) (z : Scene), k < 8 → s.outState k = 1 → (s.pipe k).busy = false → (s.pipe k).next = some z →
    s.takeScene k = s.setPipe k { s.pipe k with scene := z, next := none, busy := true, nextLine := 0 }) ∧
  (∀ (w k a v : Nat) (s t : State), k < 8 → s.Writes w → s.writerOwner w = s.outOwner k →
    a = OUT_HACTIVE k ∨ a = OUT_HPORCH k ∨ a = OUT_HSYNC k ∨ a = OUT_VACTIVE k ∨ a = OUT_VPORCH k ∨ a = OUT_VSYNC k →
    s.writeTimingReg k a (v &&& maskOf a (fun _ => true)) = some t → exec (.outTimingRegWrite w a v) s = .next t) ∧
  (∀ (k a v : Nat) (s t : State), s.outState k = 1 → s.paired k = false → s.getF (BND_C0 k) BND_C0_C0_EN = 0 → timingRegOk s k a v = true →
    t = (s.setReg (a - OUT_HACTIVE k + OUT_HACTIVE k) v).setF (OUT_LATCH k) OUT_LATCH_LINE
      ((s.setReg (a - OUT_HACTIVE k + OUT_HACTIVE k) v).getF (OUT_VACTIVE k) OUT_VACTIVE_ACTIVE - (s.outp k).advance) →
    timingTotalsOk t k = true → s.paired k = (s.setReg (a - OUT_HACTIVE k + OUT_HACTIVE k) v).paired k → s.writeTimingReg k a v = some t) ∧
  (∀ (w k v : Nat) (s : State), k < 8 → v ≤ 64 → s.Writes w → s.writerOwner w = s.outOwner k → ¬ (s.paired k = true ∧ k % 2 = 1) →
    v < s.getF (OUT_VACTIVE k) OUT_VACTIVE_ACTIVE →
    exec (.outAdvanceWrite w k v) s = .next ((s.halves k).foldl (fun t j => t.setF (OUT_LATCH j) OUT_LATCH_ADVANCE v) s))

/-- OUT_SET_TIMING, OUT_LINK_STOPPED, OUT_PLL_LOCKED and OUT_LINK_TRAINED (R294 to R302). -/
def Obligations.OutputTiming : Prop :=
  (∀ (pk : Pkt) (s t u : State) (p : List Byte) (k : Nat), s.Accepts cmdOutSetTiming pk (hooksOutSetTiming pk s) p t → k = par p 16 1 →
    (t.outp k).change = none → u = t.commit pk →
    (u.outState k = 1 → exec (.outSetTiming pk) s = .next (u.setOutp k { u.outp k with change := some ⟨some pk, timingOf p, 0, false, 0, false⟩ })) ∧
    (u.outState k ≠ 1 → (timingOf p).mode ≠ 0 →
      exec (.outSetTiming pk) s = .next (u.setOutp k { u.outp k with change := some ⟨some pk, timingOf p, 2, false, 0, false⟩ })) ∧
    (u.outState k ≠ 1 → (timingOf p).mode = 0 →
      exec (.outSetTiming pk) s = .next ((u.setOutp k { u.outp k with change := some ⟨some pk, timingOf p, 2, false, 0, false⟩ }).endChange k 0 0 0))) ∧
  (∀ (pk : Pkt) (s t : State) (k d r0 r1 : Nat) (c : Change), (s.outp k).change = some c → c.pk = some pk → c.timing.pair = false →
    t = (s.setOutp k { s.outp k with change := none }).setF (OUT_CTRL k) OUT_CTRL_MODE_CHG_OK 0 →
    s.endChange k d r0 r1 = ({ t with strg := { t.strg with permits := tabErase t.strg.permits k } }).complete pk .ok d r0 r1) ∧
  (∀ (k : Nat) (s : State) (c : Change), (s.outp k).change = some c → c.step = 1 → c.timing.mode = 0 →
    exec (.outLinkStopped k) s = .next (((s.halves k).foldl (fun t j => t.stopOne j) s).endChange k 0 0 0)) ∧
  (∀ (k : Nat) (s t : State) (c : Change), (s.outp k).change = some c → c.step = 1 → c.timing.mode ≠ 0 → c.timing.pair = false → s.paired k = false →
    s.outState k ≠ 1 →
    t = ((s.setF (OUT_STATUS k) OUT_STATUS_STATE 2).setF (OUT_STATUS k) OUT_STATUS_LINK_UP 0).setReg (OUT_TOL k) 0xFFFF →
    exec (.outLinkStopped k) s = .next (t.setOutp k { t.outp k with
      fifo := [], sending := false, late := [],
      change := some { c with step := 2, linkHeld := decide (s.getF (OUT_STATUS k) OUT_STATUS_LINK_UP = 1) } })) ∧
  (∀ (k hz : Nat) (s : State) (c : Change), (s.outp k).change = some c → c.step = 2 →
    exec (.outPllLocked k hz) s = .next ((s.setOutp k { s.outp k with change := some { c with step := 3, hz := hz % 2 ^ 32 } }).setBit
      PCU_CLK_STATUS (6 + k) true)) ∧
  (∀ (k o o' : Nat) (s : State) (c : Change) (t : State), (s.outp k).change = some c → c.step = 3 → c.timing.pair = false →
    (s.trainReason k c k o = 0 → t = s.setF (OUT_STATUS k) OUT_STATUS_LINK_UP 1 →
      exec (.outLinkTrained k o o') s = .next (t.setOutp k { t.outp k with change := some { c with step := 4, failed := false } })) ∧
    (s.trainReason k c k o ≠ 0 → t = (((s.setF (OUT_STATUS k) OUT_STATUS_LINK_UP 0).count (OUT_LINK_LOSS_COUNT k)).postOut k 0x8503 (s.trainReason k c k o) 0 0) →
      exec (.outLinkTrained k o o') s = .next (t.setOutp k { t.outp k with change := some { c with step := 4, failed := true } })))

/-- OUT_LINE_START, TE_EDGE, TE_PERIOD_MISSED, HPD_PLUG, HPD_UNPLUG, HPD_IRQ and OUT_AUX (R29, R30, R308 to R312, R316 to R318). -/
def Obligations.OutputLines : Prop :=
  (∀ (k line w : Nat) (s t u : State) (l : FifoLine) (r : List FifoLine), s.outState k = 1 → w = s.getF (OUT_HACTIVE k) OUT_HACTIVE_ACTIVE →
    t = (s.setOutp k { s.outp k with
      fifo := if (s.outp k).sending then (s.outp k).fifo.drop 1 else (s.outp k).fifo, sending := false
      unlit := (s.outp k).unlit || decide (s.getF (OUT_STATUS k) OUT_STATUS_LINK_UP = 0) }).setReg (OUT_POS k) (line % 8192) →
    line < t.getF (OUT_VACTIVE k) OUT_VACTIVE_ACTIVE → t.getF (OUT_HACTIVE k) OUT_HACTIVE_ACTIVE = w →
    u = (t.fixedCount 4 w).occur { event := 0x4001, unit := k, n := w } →
    ((u.outp k).fifo = l :: r → l.line = line → l.frame = u.frame k →
      exec (.outLineStart k line []) s = .next ((u.setOutp k { u.outp k with sending := true }).stateTolerance k)) ∧
    ((u.outp k).fifo = [] → exec (.outLineStart k line []) s = .next ((u.underrun k line).stateTolerance k))) ∧
  (∀ (k f d : Nat) (s t : State), s.outMode k = 4 → s.outState k = 1 → f = s.frameTime k → d = s.now - (s.outp k).line0 →
    ((s.outp k).teFirst = true ∨ 9 * f ≤ 10 * d ∧ 10 * d ≤ 11 * f →
      t = s.setOutp k { s.outp k with teEdge := true, teMissed := 0, teGood := (s.outp k).teGood + 1 } →
      exec (.teEdge k) s = .next (if 1 ≤ (s.outp k).teGood then t.setF (OUT_STATUS k) OUT_STATUS_TE_FALLBACK 0 else t)) ∧
    ((s.outp k).teFirst = false → ¬ (9 * f ≤ 10 * d ∧ 10 * d ≤ 11 * f) →
      exec (.teEdge k) s = .next (s.count (OUT_TE_REJECT_COUNT k)))) ∧
  (∀ (k : Nat) (s t : State), s.outMode k = 4 → s.outState k = 1 → (s.outp k).teEdge = false → s.getF (OUT_STATUS k) OUT_STATUS_TE_FALLBACK = 0 →
    t = s.setOutp k { s.outp k with teMissed := (s.outp k).teMissed + 1, teGood := 0 } →
    ((s.outp k).teMissed = 2 → exec (.tePeriodMissed k) s = .next ((t.setF (OUT_STATUS k) OUT_STATUS_TE_FALLBACK 1).postOut k 0x8504 0 0 0)) ∧
    ((s.outp k).teMissed ≠ 2 → exec (.tePeriodMissed k) s = .next t)) ∧
  (∀ (k : Nat) (s : State), s.hpdHigh k = false →
    exec (.hpdPlug k) s = .next ((s.setF (OUT_STATUS k) OUT_STATUS_HPD 1).postOut k 0x8502 1 0 0)) ∧
  (∀ (k : Nat) (s t : State), s.hpdHigh k = true → t = s.setF (OUT_STATUS k) OUT_STATUS_HPD 0 → t.outState k = 1 → t.outMode k = 1 ∨ t.outMode k = 2 →
    (s.outp (s.latchOf k)).change = none →
    exec (.hpdUnplug k) s = .next (((t.setF (OUT_STATUS k) OUT_STATUS_LINK_UP 0).count (OUT_LINK_LOSS_COUNT k)).postOut k 0x8502 0 0 0)) ∧
  (∀ (k : Nat) (s : State), s.hpdHigh k = true → exec (.hpdIrq k) s = .next (s.postOut k 0x8502 2 0 0)) ∧
  (∀ (pk : Pkt) (o r0 r1 k : Nat) (s t u : State) (p : List Byte), s.Accepts cmdOutAux pk (hooksOutAux pk s) p t → k = par p 16 1 →
    (t.outp k).aux = [] → t.outMode k ≤ 2 → par p 17 1 ≤ 3 → u = t.setOutp k { t.outp k with aux := [pk] } →
    exec (.outAux pk o r0 r1) s = .next (auxAnswer pk k (par p 17 1) (par p 18 1) (o % 5) r0 r1 u)) ∧
  (∀ (pk : Pkt) (k op len r0 r1 : Nat) (s t : State), op ≤ 3 → t = s.setOutp k { s.outp k with aux := (s.outp k).aux.filter (fun q => decide (q ≠ pk)) } →
    (op = 0 ∨ op = 2 → auxAnswer pk k op len 0 r0 r1 s = t.complete pk .ok 0 (r0 % 256 ^ min 8 len) (r1 % 256 ^ min 8 (len - 8))) ∧
    (op = 1 ∨ op = 3 → auxAnswer pk k op len 0 r0 r1 s = t.complete pk .ok) ∧
    (∀ o, o = 1 ∨ o = 2 → auxAnswer pk k op len o r0 r1 s = t.complete pk .dependencyFailed o r0 r1))

/-- R327: one comparison a write, and feeding does not redo it. -/
def Obligations.ExpectCompares : Prop :=
  (∀ (w n v : Nat) (s : State), n < 32 → v < 2 ^ 32 → s.CvuWrites w n →
    ∃ t, exec (.cvuExpectWrite w n v) s = .next t ∧
      (v = s.reg (CVU_RESULT n) → t.getF (CVU_STATUS n) CVU_STATUS_MATCH = 1 ∧ t.getF (CVU_STATUS n) CVU_STATUS_MISMATCH = 0) ∧
      (v ≠ s.reg (CVU_RESULT n) → t.getF (CVU_STATUS n) CVU_STATUS_MATCH = 0 ∧ t.getF (CVU_STATUS n) CVU_STATUS_MISMATCH = 1) ∧
      t.reg (CVU_EXPECT n) = v ∧ t.reg (CVU_RESULT n) = s.reg (CVU_RESULT n)) ∧
  (∀ (w n v : Nat) (s : State), n < 32 → s.CvuWrites w n →
    ∀ i : Instr, i = .cvuData8 w n v ∨ i = .cvuData16 w n v ∨ i = .cvuData32 w n v →
      ∃ t, exec i s = .next t ∧ t.getF (CVU_STATUS n) CVU_STATUS_MATCH = s.getF (CVU_STATUS n) CVU_STATUS_MATCH ∧
        t.getF (CVU_STATUS n) CVU_STATUS_MISMATCH = s.getF (CVU_STATUS n) CVU_STATUS_MISMATCH)

/-- A check value depends on the bytes alone, not on how they were cut (R325, R326, R329). -/
def Obligations.FeedsConcatenate : Prop :=
  (∀ (n : Nat) (a b : List Nat) (s : State), n < 32 → crcFeed (s.cvuAlg n) (s.reg (CVU_VALUE n)) a < 2 ^ 32 →
    ((s.cvuFeed n a).cvuFeed n b).reg (CVU_VALUE n) = (s.cvuFeed n (a ++ b)).reg (CVU_VALUE n) ∧
    ((s.cvuFeed n a).cvuFeed n b).reg (CVU_RESULT n) = (s.cvuFeed n (a ++ b)).reg (CVU_RESULT n)) ∧
  (∀ (alg v : Nat) (bs : List Nat), alg < 4 → v < 2 ^ (crcAlg alg).width → (∀ b ∈ bs, b < 256) → crcFeed alg v bs < 2 ^ (crcAlg alg).width)

/-- CVU_START, CVU_ALG_CHANGE, CVU_ALIVE_RESET, CVU_DATA8, CVU_DATA16, CVU_DATA32, CVU_VALUE_WRITE, CVU_ALIVE_VALUE, CVU_ALIVE_NEXT, COLL_ASSIGN_UNIT
and COLL_COMPUTE (R323 to R329); CVU_EXPECT_WRITE is ExpectCompares. -/
def Obligations.CheckValueUnits : Prop :=
  (∀ (w n x y : Nat) (s t : State), s.CvuWrites w n → x = s.reg (CVU_CFG n) → bits x 23 16 ≠ 0 → bits x 15 8 ≠ 1 → bits x 31 30 = 0 →
    y = bits x 24 24 * 2 ^ 24 + bits x 23 16 * 2 ^ 16 + bits x 15 8 * 2 ^ 8 + bits x 1 0 → t = s.setReg (CVU_CFG n) y →
    exec (.cvuStart w n) s = .next (((t.setCvuValue n (crcAlg (t.cvuAlg n)).init).setF (CVU_STATUS n) CVU_STATUS_MATCH 0).setF
      (CVU_STATUS n) CVU_STATUS_MISMATCH 0) ∧
    exec (.cvuAliveReset w n) s = .next (((t.setF (CVU_ALIVE_STATE n) CVU_ALIVE_STATE_VALID 0).setF (CVU_ALIVE_STATE n) CVU_ALIVE_STATE_LOST 0).setF
      (CVU_ALIVE_STATE n) CVU_ALIVE_STATE_LAST 0) ∧
    (∀ a u, a < 4 → a ≠ bits x 1 0 → u = s.setReg (CVU_CFG n) (bits x 24 24 * 2 ^ 24 + bits x 23 16 * 2 ^ 16 + bits x 15 8 * 2 ^ 8 + a) →
      exec (.cvuAlgChange w n a) s = .next (((u.setCvuValue n (crcAlg (u.cvuAlg n)).init).setF (CVU_STATUS n) CVU_STATUS_MATCH 0).setF
        (CVU_STATUS n) CVU_STATUS_MISMATCH 0))) ∧
  (∀ (w n v : Nat) (s : State), s.CvuWrites w n → s.getF (CVU_CFG n) CVU_CFG_BE ≠ 1 →
    exec (.cvuData8 w n v) s = .next (s.cvuFeed n (natBytes 1 v)) ∧ exec (.cvuData16 w n v) s = .next (s.cvuFeed n (natBytes 2 v)) ∧
    exec (.cvuData32 w n v) s = .next (s.cvuFeed n (natBytes 4 v))) ∧
  (∀ (w n v : Nat) (s : State), s.CvuWrites w n → s.getF (CVU_CFG n) CVU_CFG_BE = 1 →
    exec (.cvuData16 w n v) s = .next (s.cvuFeed n (natBytes 2 v).reverse) ∧ exec (.cvuData32 w n v) s = .next (s.cvuFeed n (natBytes 4 v).reverse)) ∧
  (∀ (w n v : Nat) (s : State), s.CvuWrites w n → v < 2 ^ (crcAlg (s.cvuAlg n)).width →
    exec (.cvuValueWrite w n v) s = .next ((s.setReg (CVU_VALUE n) v).setReg (CVU_RESULT n)
      (crcResult (s.cvuAlg n) v))) ∧
  (∀ (w n v : Nat) (s : State), s.CvuWrites w n →
    exec (.cvuAliveValue w n v) s = .next (s.aliveJudge n (v % 256)) ∧
    (s.getF (CVU_ALIVE_STATE n) CVU_ALIVE_STATE_VALID = 1 → exec (.cvuAliveNext w n) s = .next ((s.setF (CVU_ALIVE_STATE n) CVU_ALIVE_STATE_VALID 1).setF
      (CVU_ALIVE_STATE n) CVU_ALIVE_STATE_LAST ((s.getF (CVU_ALIVE_STATE n) CVU_ALIVE_STATE_LAST + 1) % s.cvuWrap n)))) ∧
  (∀ (n a d p wr : Nat) (s t : State), s.getF (CVU_ALIVE_STATE n) CVU_ALIVE_STATE_VALID = 1 → p = s.getF (CVU_ALIVE_STATE n) CVU_ALIVE_STATE_LAST →
    wr = s.cvuWrap n → d = unsigned 64 (((a : Int) - p) % wr) → a < wr →
    t = (s.setF (CVU_ALIVE_STATE n) CVU_ALIVE_STATE_VALID 1).setF (CVU_ALIVE_STATE n) CVU_ALIVE_STATE_LAST a →
    (d = 0 → s.aliveJudge n a = s.setF (CVU_ALIVE_STATE n) CVU_ALIVE_STATE_REPEAT 1) ∧
    (d ≠ 0 → d ≤ s.getF (CVU_CFG n) CVU_CFG_ALIVE_MAXD → s.aliveJudge n a = t.countF (CVU_ALIVE_STATE n) CVU_ALIVE_STATE_LOST (d - 1)) ∧
    (s.getF (CVU_CFG n) CVU_CFG_ALIVE_MAXD < d → s.aliveJudge n a = t.setF (CVU_ALIVE_STATE n) CVU_ALIVE_STATE_JUMP 1)) ∧
  (∀ (pk : Pkt) (s t u : State) (p : List Byte) (n : Nat), s.Accepts cmdCollAssignUnit pk (hooksCollAssignUnit s) p t → n = par p 16 1 →
    u = ((t.cvuReset n).setCvuHolder n (par p 17 1)).capChanged (t.cvuHolder n) →
    exec (.collAssignUnit pk) s = .next ((if t.cvuHolder n = par p 17 1 then u else u.capChanged (par p 17 1)).complete pk .ok)) ∧
  (∀ (pk : Pkt) (s t u : State) (p : List Byte) (n i : Nat), s.Accepts cmdCollCompute pk (hooksCollCompute pk s) p t → n = par p 16 1 →
    i = handleIndex (par p 20 4) → t.badBeat? i (par p 24 8) (par p 32 8) = none →
    u = (if par p 17 1 = 1 then (t.noteRead i (par p 24 8) (par p 32 8)).cvuStart n else t.noteRead i (par p 24 8) (par p 32 8)) →
    exec (.collCompute pk) s = .next ((u.cvuFeed n ((u.objBytes i (par p 24 8) (par p 32 8)).map BitVec.toNat)).complete pk .ok 0
      ((u.cvuFeed n ((u.objBytes i (par p 24 8) (par p 32 8)).map BitVec.toNat)).reg (CVU_RESULT n))
      ((u.cvuFeed n ((u.objBytes i (par p 24 8) (par p 32 8)).map BitVec.toNat)).reg (CVU_VALUE n))))

/-- COLL_SET_WINDOW, COLL_EXPECT, WINDOW_OUTCOME, GPC_OUTCOME, BLINK_PHASE_UPDATE and TELLTALE_REFRESH_EXPIRY (R331 to R335, R338, R339, R360, R361). -/
def Obligations.WindowsAndCheckers : Prop :=
  (∀ (pk : Pkt) (s t : State) (p : List Byte) (j : Nat), s.Accepts cmdCollSetWindow pk (hooksCollSetWindow pk s) p t → j = 16 * par p 16 1 + par p 17 1 →
    t.winWaits j pk = false →
    exec (.collSetWindow pk) s = .next (t.setWin j { t.win j with pend := (t.win j).pend ++ [.set (winCfgOf p) pk] })) ∧
  (∀ (pk : Pkt) (s t : State) (p : List Byte) (j : Nat), s.Accepts cmdCollExpect pk (hooksCollExpect pk s) p t → j = 16 * par p 16 1 + par p 17 1 →
    t.winWaits j pk = false →
    exec (.collExpect pk) s = .next (t.setWin j { t.win j with pend := (t.win j).pend ++ [.expect (par p 20 4) (par p 18 1) (par p 24 4) pk] })) ∧
  (∀ (s : State) (frame k w key ph v : Nat) (pk : Pkt),
    s.applyWinPend frame k w (.expect key ph v pk) = (s.setWin (16 * k + w) { s.win (16 * k + w) with
      table := writeExpect (s.win (16 * k + w)).table key ph v }).complete pk .ok 0 0 0) ∧
  (∀ (k w : Nat) (s t u : State) (x : Win) (r : WinRun) (v : Nat), x = s.win (16 * k + w) → x.run = some r → r.done = false → s.computing k = true →
    r.cfg.y + r.cfg.h ≤ r.line → x.escalated = none → v = crcResult r.cfg.alg r.crc → s.winOutcome k x r v = (0, v) ∨ s.winOutcome k x r v = (0, 0) →
    t = s.setWin (16 * k + w) { x with run := some { r with done := true }, results := ((r.frame, v) :: x.results).take 4, escalated := none } →
    u = ((t.setF (COLL_WIN_STATUS k w) COLL_WIN_STATUS_OUTCOME 0).setReg (COLL_WIN_FRAME k w) r.frame).setReg (COLL_WIN_VALUE k w) v →
    exec (.windowOutcome k w) s = .next (u.clearFails k w)) ∧
  (∀ (k : Nat) (s : State) (x : Win) (r : WinRun) (v e : Nat), r.cfg.mode = 1 → r.kind = 0 →
    (List.range r.cfg.h).any (fun i => s.filledAt k r.frame (r.cfg.y + i) r.cfg.x r.cfg.w) = false →
    ((r.table.find? (fun e => e.key = r.shown)).bind (fun e => (e.vals[r.frame % 4]?).join)) = some e →
    s.winOutcome k x r v = (if v = e then 0 else 1, e)) ∧
  (∀ (k v n code : Nat) (s t u : State) (r : GpcRun), (s.gpc k).run = some r → r.done = false → s.computing k = true → v = crcResult 0 r.crc → n = r.count →
    code = (if s.coveredFilled k r.frame r.sprites then 3 else if n ≠ r.countExp then 2 else if v ≠ r.expect then 1 else 0) →
    t = s.setGpc k { s.gpc k with run := some { r with done := true }, failed := decide (code ≠ 0) } →
    u = ((t.setReg (GPC_VALUE k) v).setF (GPC_STATUS k) GPC_STATUS_OUTCOME code).setF (GPC_STATUS k) GPC_STATUS_COUNT n →
    (code = 0 → exec (.gpcOutcome k none) s = .next (u.takeOutcome k r.frame 0)) ∧
    (code ≠ 0 → (s.gpc k).failed = true → exec (.gpcOutcome k none) s = .next ((u.count (GPC_FAIL_COUNT k)).takeOutcome k r.frame code))) ∧
  (∀ (k : Nat) (s : State), exec (.blinkPhaseUpdate k) s = .next (s.writeExpected k)) ∧
  (∀ (n : Nat) (s t : State) (q : Sprite), s.sprite? n = some q → q.refreshMs ≠ 0 → s.dbg.strgHalted = false → s.getF STRG_STATUS STRG_STATUS_RUN ≠ 2 →
    (tabGet (fun _ => {}) s.strg.tts n).spoken = true → s.getF (STRG_TT_STATE n) STRG_TT_STATE_FAILED = 0 →
    t = { s with strg := { s.strg with tts := tabSet (fun _ => {}) s.strg.tts n { tabGet (fun _ => {}) s.strg.tts n with failDue := true } } } →
    exec (.telltaleRefreshExpiry n) s = .next (t.writeExpected (n / 32)))

/-- STRG_GET_INFO, STRG_SET_TELLTALE, STRG_CHIME, STRG_KEY_LOAD, STRG_PERMIT_TIMING, PERMIT_EXPIRY, CHIME_VOICE_FREE, STRG_HANDOVER, HANDOVER_QUIESCED and
STRG_REQ_DOORBELL (R350 to R355, R359, R363 to R366). -/
def Obligations.StrongroomRequests : Prop :=
  (∀ (pk : Pkt) (s t : State) (p : List Byte), s.StrgAccepts cmdStrgGetInfo pk {} p t →
    exec (.strgGetInfo pk) s = .next (t.complete pk .ok 0 (t.reg STRG_VERSION + 2 ^ 32 * t.reg STRG_STATUS) (t.reg STRG_BOUND + 2 ^ 32 * t.reg STRG_BOUND_CVU))) ∧
  (∀ (pk : Pkt) (s t u : State) (p : List Byte) (k : Nat), s.StrgAccepts cmdStrgSetTelltale pk (hooksStrgSetTelltale pk s) p t →
    t.strg.ttPend.any (fun x => decide (x.2.2 = pk)) = false → k = t.latchOf (par p 24 1 / 32) →
    u = { t with strg := { t.strg with
      ttPend := t.strg.ttPend ++ [(k, (ttEntries p).map Prod.snd, pk)]
      tts := (ttEntries p).foldl (fun (m : Tab Telltale) (e : Nat × Nat × Nat) => tabSet (fun _ => {}) m e.2.1 ⟨true, t.now, false⟩) t.strg.tts } } →
    exec (.strgSetTelltale pk) s = .next ((u.halves k).foldl (fun u j => u.writeExpected j) u)) ∧
  (∀ (pk : Pkt) (s t : State) (p : List Byte) (n : Nat), s.StrgAccepts cmdStrgChime pk (hooksStrgChime pk s) p t → n = par p 16 1 →
    (t.strg.voices ++ t.strg.waiting).any (fun v => decide (v.pattern = n) && decide (v.cause ≠ 0)) = false →
    exec (.strgChime pk) s = .next ((if par p 17 1 = 0 then t.chimeStop (fun v => decide (v.pattern = n))
      else t.chimeStart ⟨n, decide (par p 17 1 = 2), 0⟩).complete pk .ok)) ∧
  (∀ (s : State) (v : Voice), s.strg.voices = [] → s.strg.waiting = [] →
    s.chimeStart v = ({ s with strg := { s.strg with voices := [v], waiting := [] } }).showChimes) ∧
  (∀ (pk : Pkt) (s t u : State) (p key : List Byte), s.StrgAccepts cmdStrgKeyLoad pk (hooksStrgKeyLoad s) p t →
    ((par p 20 4 = 0 ∧ u = t ∧ key = []) ∨
      (par p 20 4 ≠ 0 ∧ u = t.noteRead (handleIndex (par p 20 4)) (par p 24 4) 64 ∧ Config.unwrapKey (keyBlob t p) = some key)) →
    exec (.strgKeyLoad pk) s = .next (({ u with strg := { u.strg with keys := tabSet (fun _ => []) u.strg.keys (par p 16 1) key } }).complete pk .ok)) ∧
  (∀ (pk : Pkt) (s t : State) (p : List Byte) (k : Nat), s.StrgAccepts cmdStrgPermitTiming pk (hooksStrgPermitTiming pk s) p t → k = par p 16 1 →
    exec (.strgPermitTiming pk) s = .next ((({ t with strg := { t.strg with
      permits := tabSet (fun _ => (0, 0)) t.strg.permits k (par p 20 2, par p 22 2) } }).setF (OUT_CTRL k) OUT_CTRL_MODE_CHG_OK 1).complete pk .ok)) ∧
  (∀ (k : Nat) (s t : State), (s.outp (s.latchOf k)).change = none → t = s.setF (OUT_CTRL k) OUT_CTRL_MODE_CHG_OK 0 →
    exec (.permitExpiry k) s = .next { t with strg := { t.strg with permits := tabErase t.strg.permits k } }) ∧
  (∀ (n : Nat) (s : State) (l : List Voice), s.strg.voices.any (fun v => v.pattern = n) = true → l = s.strg.voices.filter (fun v => decide (v.pattern ≠ n)) →
    ∃ t, exec (.chimeVoiceFree n) s = .next t ∧ t.strg = { s.strg with
      voices := l ++ s.strg.waiting.take (4 - l.length), waiting := s.strg.waiting.drop (4 - l.length) }) ∧
  (∀ (pk : Pkt) (s t u : State) (p : List Byte) (kind n : Nat), s.StrgAccepts cmdStrgHandover pk (hooksStrgHandover s) p t → kind = par p 16 1 → n = par p 17 1 →
    (decide (par p 18 1 = 1) = t.unitSecure kind n → exec (.strgHandover pk) s = .next (t.complete pk .ok)) ∧
    (decide (par p 18 1 = 1) ≠ t.unitSecure kind n →
      u = { t.commit pk with strg := { (t.commit pk).strg with handover := some ⟨pk, kind, n, par p 18 1⟩ } } →
      (kind = 0 ∨ kind = 3 → exec (.strgHandover pk) s = .next u) ∧ (kind = 2 → exec (.strgHandover pk) s = .next (u.closePort n)) ∧
      (kind = 1 → exec (.strgHandover pk) s = .next ((u.endPending n .aborted 0).setHap n { (u.endPending n .aborted 0).hapc n with
        run := ((u.endPending n .aborted 0).hapc n).run.map (fun r => { r with stop := true }) })))) ∧
  (∀ (s t u : State) (h : Handover), s.safe = false → s.strg.handover = some h → s.quiesced h.kind h.unit = true → t = s.resetUnit h.kind h.unit →
    u = ((({ t with strg := { t.strg with handover := none } }).markWorld h.kind h.unit (decide (h.dir = 1))).showUnit h.kind h.unit).strgVote →
    exec .handoverQuiesced s = .next ((((if h.kind = 0 then 0 :: u.liveInsts else [0]).foldl (fun (t : State) o => t.capChanged o) u).complete h.pk .ok).postMgr
      0x8F01 (256 * h.kind + h.unit) h.dir 0)) ∧
  (∀ (s t u : State) (q : Nat × Pkt), s.MgrWrites → s.getF STRG_REQ_STATUS STRG_REQ_STATUS_BUSY ≠ 1 →
    t = s.setF STRG_REQ_STATUS STRG_REQ_STATUS_BUSY 1 → q = t.windowPacket →
    (strgRequest q.1 q.2 t = some (.next u) → exec (.strgReqDoorbell s.mgrFn) s = .next u) ∧
    (strgRequest q.1 q.2 t = none → exec (.strgReqDoorbell s.mgrFn) s = .next (t.windowReply (.reply q.2.seq .badOpcode 0 t.now 0 0))))

/-- HAP_SET_CHANNEL, HAP_LOAD_EFFECT, HAP_PLAY, HAP_STOP, HAP_CALIBRATE and CALIBRATION_COMPLETE (R400, R402, R404, R406, R407). -/
def Obligations.HapticCommands : Prop :=
  (∀ (pk : Pkt) (s t : State) (p : List Byte) (c fl : Nat), s.Accepts cmdHapSetChannel pk (hooksHapSetChannel pk s) p t → c = par p 16 1 → fl = par p 17 1 →
    t.getF (HAP_CFG c) HAP_CFG_BRIDGED = b2n (bit fl 1) → t.getF (HAP_CFG c) HAP_CFG_FEEDBACK = 2 → par p 18 1 = 2 → bit fl 0 = true →
    exec (.hapSetChannel pk) s = .next (((((t.setReg (HAP_CFG c) (2 ^ 31 + b2n (bit fl 1) * 2 ^ 30 + 2 * 2 ^ 28 + par p 19 1 * 2 ^ 16 +
      par p 21 1 * 2 ^ 8 + par p 20 1)).setReg (HAP_SCALE c) (par p 22 2)).showHap c).settleBoost).complete pk .ok)) ∧
  (∀ (pk : Pkt) (s t u : State) (p d : List Byte) (c n : Nat), s.Accepts cmdHapLoadEffect pk (hooksHapLoadEffect pk s) p t → c = par p 16 1 → n = par p 17 1 →
    d = descOf t p → u = t.noteRead (handleIndex (par p 20 4)) (par p 24 4) 64 →
    exec (.hapLoadEffect pk) s = .next ((((u.setHap c { t.hapc c with slots := tabSet (fun _ => []) (t.hapc c).slots n d }).copyToWake c n d)).complete pk .ok)) ∧
  (∀ (pk : Pkt) (s t : State) (p : List Byte) (c n : Nat), s.Accepts cmdHapPlay pk (hooksHapPlay pk s) p t → c = par p 16 1 → n = par p 17 1 →
    (t.hapc c).pend = none → (t.hapc c).run.any (fun r => decide (r.src = some pk)) = false →
    exec (.hapPlay pk) s = .next (t.setHap c { t.hapc c with pend := some ⟨n, effectPriority (t.hapSlot c n), some pk, t.now,
      (t.hapc c).run.any (fun r => decide (effectPriority r.desc < effectPriority (t.hapSlot c n)))⟩ })) ∧
  (∀ (pk : Pkt) (s t : State) (p : List Byte) (c : Nat), s.Accepts cmdHapStop pk (hooksHapStop pk s) p t → c = par p 16 1 → (t.hapc c).pend = none →
    ((t.hapc c).run = none → exec (.hapStop pk) s = .next (t.complete pk .ok)) ∧
    (∀ r, (t.hapc c).run = some r → r.phase ≠ 4 → (t.hapc c).stops = [] →
      exec (.hapStop pk) s = .next ((t.commit pk).setHap c { t.hapc c with run := some { r with stop := true }, stops := [pk] }))) ∧
  (∀ (pk : Pkt) (s t : State) (p : List Byte) (c : Nat), s.Accepts cmdHapCalibrate pk (hooksHapCalibrate pk s) p t → c = par p 16 1 →
    exec (.hapCalibrate pk) s = .next ((t.commit pk).setHap c { t.hapc c with calib := some (pk, true) })) ∧
  (∀ (pk : Pkt) (s t u v : State) (c n f0 g0 : Nat) (gains : List Nat), (s.hapc c).calib = some (pk, true) →
    t = (s.setHap c { s.hapc c with calib := none }).clearCal c →
    u = (((t.setReg (HAP_CAL c) (n * 2 ^ 20 + f0 % 1024 * 2 ^ 10)).setReg (HAP_GAIN c) (g0 % 65536)).setF (HAP_STATUS c) HAP_STATUS_CALIBRATED 1) →
    v = (u.setHap c { u.hapc c with gains := (gains.take 32).map (fun g => g % 65536) }).writeHapRecord c false →
    (n < 10 → exec (.calibrationComplete c false n f0 g0 gains) s = .next (t.complete pk .faulted 1)) ∧
    (2500 < n → exec (.calibrationComplete c false n f0 g0 gains) s = .next (t.complete pk .outOfRange 1)) ∧
    (10 ≤ n → n ≤ 2500 → exec (.calibrationComplete c false n f0 g0 gains) s = .next (v.complete pk .ok 0 (n + f0 % 1024 * 2 ^ 16 + g0 % 65536 * 2 ^ 32) 0)))

/-- BOOST_UP, VHV_SAG, VHV_SAG_END, VHAPT_LOSS, VHAPT_RESTORED and HAP_LOOP_PERIOD (R397, R399, R405, R406). -/
def Obligations.HapticPeriods : Prop :=
  (∀ (s : State), s.boostRuns = true →
    exec .boostUp s = .next ((s.setF HAP_BOOST_STATUS HAP_BOOST_STATUS_UP 1).setF HAP_BOOST_STATUS HAP_BOOST_STATUS_VHV
      (2 * s.getF HAP_BOOST_CTRL HAP_BOOST_CTRL_VHV_SET))) ∧
  (∀ (v : Nat) (s t : State), s.boostRuns = true → s.getF HAP_BOOST_STATUS HAP_BOOST_STATUS_LOW = 0 →
    t = (s.setF HAP_BOOST_STATUS HAP_BOOST_STATUS_LOW 1).setF HAP_BOOST_STATUS HAP_BOOST_STATUS_VHV v →
    exec (.vhvSag v) s = .next (t.postMgr 0x8804 0 (t.reg HAP_BOOST_STATUS) 0)) ∧
  (∀ (v : Nat) (s : State), s.getF HAP_BOOST_STATUS HAP_BOOST_STATUS_LOW = 1 →
    exec (.vhvSagEnd v) s = .next ((s.setF HAP_BOOST_STATUS HAP_BOOST_STATUS_LOW 0).setF HAP_BOOST_STATUS HAP_BOOST_STATUS_VHV v)) ∧
  (∀ (v : Nat) (s t u : State), s.domainUp 20 = true → s.getF HAP_BOOST_STATUS HAP_BOOST_STATUS_VHAPT_UV = 0 →
    t = ((s.setF HAP_BOOST_STATUS HAP_BOOST_STATUS_VHAPT_UV 1).setF HAP_BOOST_STATUS HAP_BOOST_STATUS_VHAPT v).settleBoost →
    u = (List.range 8).foldl (fun t c => (t.brakePassively c).endPending c .faulted 4) t →
    exec (.vhaptLoss v) s = .next (u.postMgr 0x8804 1 (u.reg HAP_BOOST_STATUS) 0)) ∧
  (∀ (v : Nat) (s : State), s.getF HAP_BOOST_STATUS HAP_BOOST_STATUS_VHAPT_UV = 1 →
    exec (.vhaptRestored v) s = .next ((s.setF HAP_BOOST_STATUS HAP_BOOST_STATUS_VHAPT_UV 0).setF HAP_BOOST_STATUS HAP_BOOST_STATUS_VHAPT v)) ∧
  (∀ (c : Nat) (m : HapMeas) (s t : State) (q : HapReq) (pk : Pkt), c < 8 → s.domainUp 20 = true → m.trip = false → (s.hapc c).run = none →
    t = s.sensorPeriod c m.sample → (t.hapc c).run = none → (t.hapc c).pend = some q → q.src = some pk → q.matched = false → t.hapReady c = true →
    exec (.hapLoopPeriod c m) s = .next ((t.commit pk).setHap c { t.hapc c with
      pend := none, run := some { slot := q.slot, desc := t.hapSlot c q.slot, src := some pk, start := t.now, angle := 0, matched := none } })) ∧
  (∀ (c : Nat) (m : HapMeas) (s : State) (r : HapRun), c < 8 → s.domainUp 20 = true → m.trip = false → m.cycles = 0 → m.limited = false → m.weak = false →
    s.getF (HAP_CFG c) HAP_CFG_FEEDBACK ≠ 2 → (s.hapc c).run = some r → r.phase ≠ 4 → r.stop = false → r.periods + 1 ≠ 4 →
    (s.hapc c).pend.any (fun (q : HapReq) => q.matched) = false →
    exec (.hapLoopPeriod c m) s = .next (s.setHap c { s.hapc c with run := some ({ r with weak := 0 } : HapRun).advance })) ∧
  (∀ (c : Nat) (m : HapMeas) (s : State) (r : HapRun), c < 8 → s.domainUp 20 = true → m.trip = false → m.cycles = 0 →
    s.getF (HAP_CFG c) HAP_CFG_FEEDBACK ≠ 2 → (s.hapc c).run = some r → r.phase = 4 → (s.hapc c).pend = none →
    ((s.residualLow c r m = true ∧ 3 ≤ r.below) ∨ brakeLimit r.desc ≤ r.brake + 1) →
    exec (.hapLoopPeriod c m) s = .next ((s.endEffect c r.outcome).startEffect c m))

/-- TCH_SET_PANEL, TCH_SET_REGION, TCH_RECALIBRATE, TCH_CAPTURE, TCH_SET_WAKE and TOUCH_FRAME_START (R371 to R374, R382, R386 to R388). -/
def Obligations.TouchCommands : Prop :=
  (∀ (pk : Pkt) (s t : State) (p : List Byte) (n : Nat), s.Accepts cmdTchSetPanel pk (hooksTchSetPanel s) p t → n = par p 16 1 →
    exec (.tchSetPanel pk) s = .next ((t.setTctl n { t.tctl n with next := some (panelOf p) }).complete pk .ok)) ∧
  (∀ (pk : Pkt) (s t : State) (p : List Byte) (key : Nat), s.Accepts cmdTchSetRegion pk (hooksTchSetRegion pk s) p t →
    key = regionKey (t.ownerOf pk.fn) (par p 16 1) → (t.tregion key).pend.any (fun q => decide (q.2.2 = pk)) = false →
    exec (.tchSetRegion pk) s = .next (t.setRegion key { t.tregion key with pend := (t.tregion key).pend ++ [(regionOf p, par p 17 1, pk)] })) ∧
  (∀ (s t u : State) (key n : Nat) (c : RegionCfg) (pk : Pkt), (s.tregion key).cfg = none →
    t = s.setRegion key { s.tregion key with pend := (s.tregion key).pend.filter (fun y => decide (y.2.2 ≠ pk)) } →
    u = ((t.setRegion key { t.tregion key with seq := 0, dropped := false, had := false }).setReg (TCH_RGN_HEAD (key / 256) (key % 256)) 0).setReg
      (TCH_RGN_TAIL (key / 256) (key % 256)) 0 →
    s.applyRegion key (some c, n, pk) = ((u.setRegion key { u.tregion key with cfg := some c }).setF
      (TCH_RGN_STATUS (key / 256) (key % 256)) TCH_RGN_STATUS_ENABLED 1).complete pk .ok) ∧
  (∀ (pk : Pkt) (s t : State) (p : List Byte) (n : Nat), s.Accepts cmdTchRecalibrate pk (hooksTchRecalibrate pk s) p t → n = par p 16 1 →
    (t.tctl n).waits = [] →
    exec (.tchRecalibrate pk) s = .next (t.setTctl n { t.tctl n with
      waits := [.recal pk (if par p 17 1 = 0xFF then none else some (t.ownerOf pk.fn, par p 17 1))] })) ∧
  (∀ (pk : Pkt) (s t : State) (p : List Byte) (n : Nat), s.Accepts cmdTchCapture pk (hooksTchCapture s) p t → n = par p 16 1 →
    (t.tctl n).waits = [] →
    exec (.tchCapture pk) s = .next (t.setTctl n { t.tctl n with waits := [.capture pk (par p 17 1) (par p 20 4) (par p 24 8)] })) ∧
  (∀ (s : State) (q : Panel) (raw self : List Nat) (nodes : List Node) (pk : Pkt) (kind h off : Nat),
    s.endTouchWait q raw self nodes (.capture pk kind h off) =
      (s.store (handleIndex h) off ((captureValues q kind nodes raw self).flatMap (leBytes 2))).complete pk .ok ∧
    s.endTouchWait q raw self nodes (.recal pk none) = s.complete pk .ok) ∧
  (∀ (pk : Pkt) (s t : State) (p : List Byte) (n : Nat), s.Accepts cmdTchSetWake pk (hooksTchSetWake s) p t → n = par p 16 1 →
    exec (.tchSetWake pk) s = .next ((t.setTctl n { t.tctl n with wake :=
      { gestures := par p 17 1, pins := wakePins p, hapCh := par p 19 1, effect := par p 20 1
        copy := if par p 19 1 = 0xFF then [] else t.hapSlot (par p 19 1) (par p 20 1), thresh := par p 22 2 } }).complete pk .ok)) ∧
  (∀ (n : Nat) (s : State), n < 4 → s.tchRuns n = true → s.tchSecure n = false → s.closing 0 n = false → (s.tctl n).scanning = false →
    ((s.tctl n).next = none → exec (.touchFrameStart n) s = .next ((s.setTctl n { s.tctl n with scanning := true }).applyRegions n)) ∧
    (∀ q, (s.tctl n).next = some q → (s.tctl n).panel = none →
      exec (.touchFrameStart n) s = .next ((s.setTctl n { s.tctl n with
        panel := some q, next := none, contacts := (s.tctl n).contacts.map (fun (x : Contact) => { x with lost := true })
        restart := (s.tctl n).restart || false, discarded := (s.tctl n).discarded || false, candidates := [], scanning := true }).applyRegions n)))

/-- TOUCH_FRAME_END, SUSPECT_STABLE_TIMEOUT, CONTACT_STUCK, TOUCH_BASELINE_SAVE, WAKE_SCAN and WAKE_PENDING_CLEAR (R375 to R381, R389, R390). -/
def Obligations.TouchFrames : Prop :=
  (∀ (n : Nat) (raw self : List Nat) (listen : Nat) (s : State) (q : Panel), (s.tctl n).panel = some q → n < 4 → s.tchRuns n = true → s.tchSecure n = false →
    (s.tctl n).scanning = true → raw.length = panelNodes q →
    exec (.touchFrameEnd n raw self listen) s = .next (s.touchFrame n q (s.tctl n) (raw.map (fun v => min 65535 v)) self listen)) ∧
  (∀ (c : TouchCtl) (q : Panel) (b : Bool) (nodes after : List Node) (ps : List Peak) (ev : List TouchEvent),
    (c.endFrame q b nodes after ps ev).scanning = false ∧ (c.endFrame q b nodes after ps ev).nodes = after ∧ (c.endFrame q b nodes after ps ev).waits = [] ∧
    (c.endFrame q b nodes after ps ev).contacts = (ev.filter (fun e => decide (e.code ≠ 3))).map TouchEvent.contact) ∧
  (∀ (now : Nat) (q : Panel) (d : List Int) (i raw : Nat) (x : Node), x.suspect = false → x.saturated = false → nodeFrozen q d i = false →
    settleNode now q 0 d i raw x = { x with base := ((x.base : Int) + Int.tdiv (256 * (raw : Int) - x.base) (2 ^ q.shift)).toNat }) ∧
  (∀ (n i : Nat) (s t : State) (l : List Node), n < 4 → ((s.tctl n).nodes.getD i {}).suspect = true →
    l = ((s.tctl n).nodes.zip (List.range (s.tctl n).nodes.length)).map (fun x => if x.2 = i then { x.1 with suspect := false, base := 256 * x.1.near } else x.1) →
    t = s.setTctl n { s.tctl n with nodes := l, stables := (s.tctl n).stables + 1 } →
    exec (.suspectStableTimeout n i) s = .next (if l.all (fun (x : Node) => !x.suspect) then t.postMgr 0x8702 (256 * n) (s.tctl n).lifts ((s.tctl n).stables + 1) else t)) ∧
  (∀ (n id : Nat) (s : State) (x : Contact) (r : Nat × Nat) (g : RegionCfg), (s.tctl n).contacts.find? (fun (x : Contact) => decide (x.id = id)) = some x →
    x.region = some r → x.stuck = false → (s.tregion (regionKey r.1 r.2)).cfg = some g → g.stuck ≠ 0xFFFFFFFF →
    exec (.contactStuck n id) s = .next ((s.setTctl n { s.tctl n with
      contacts := (s.tctl n).contacts.map (fun (y : Contact) => if y.id = id then { y with stuck := true } else y) }).postOwner r.1 0x8701 (256 * n + r.2) id 0)) ∧
  (∀ (n : Nat) (s : State), n < 4 → s.tchRuns n = true → s.tchSecure n = false → exec (.touchBaselineSave n false) s = .next (s.saveBaselines n)) ∧
  (∀ (n cycles : Nat) (raw : List Nat) (s : State) (w : WakeScan), w = (s.tctl n).wake → n < 4 → w.gestures ≠ 0 → s.tchRuns n = false →
    s.getF LEDG_STATUS LEDG_STATUS_SAVE = 0 → raw.length = w.pins.length → raw.all (fun v => decide (v ≤ 65535)) = true →
    (w.bases = [] → exec (.wakeScan n raw cycles) s = .next (s.setTctl n { s.tctl n with wake := { w with bases := raw.map (fun v => 256 * v) } })) ∧
    (w.bases ≠ [] → exec (.wakeScan n raw cycles) s = .next ((wakeStep w (wakePeak w raw)).1.foldl (fun t g => t.wakeGesture n g cycles)
      (s.setTctl n { s.tctl n with wake := { (wakeStep w (wakePeak w raw)).2 with bases := wakeTrack w raw } })))) ∧
  (∀ (s t : State), s.MgrWrites → t = s.setF TCH_WAKE_STATUS TCH_WAKE_STATUS_PENDING 0 →
    exec (.wakePendingClear s.mgrFn) s = .next { t with tch := { t.tch with wakePin := false } })

/-- AUD_SET_PORT, AUD_SET_ENDPOINT, AUD_SET_NODE, AUD_SET_ROUTE, AUD_COMMIT, TDM_FS_EDGE, TDM_PORT_LOST, TDM_PORT_RELOCK and AUDIO_BLOCK (R417, R419,
R420, R423 to R430). -/
def Obligations.AudioGraph : Prop :=
  (∀ (pk : Pkt) (s t : State) (p : List Byte) (n : Nat), s.Accepts cmdAudSetPort pk (hooksAudSetPort s) p t → n = par p 16 1 →
    exec (.audSetPort pk) s = .next (((t.setF (AUD_PORT_STATUS n) AUD_PORT_STATUS_LOST 0).setPort n
      { cfg := ⟨par p 17 1, par p 18 1, par p 19 1, par p 20 1, par p 21 1, par p 22 2⟩ }).complete pk .ok)) ∧
  (∀ (pk : Pkt) (s t : State) (p : List Byte) (e : Nat), s.Accepts cmdAudSetEndpoint pk (hooksAudSetEndpoint pk s) p t → e = 32 * par p 17 1 + par p 16 1 →
    (t.audEp e).pend.any (fun q => decide (q.2 = some pk)) = false →
    exec (.audSetEndpoint pk) s = .next (t.setEp e { t.audEp e with pend := (t.audEp e).pend ++ [(epCfgOf (t.ownerOf pk.fn) p, some pk)] })) ∧
  (∀ (s t : State) (e : Nat) (c : Option AudEpCfg) (pk : Pkt), (s.audEp e).pend = [(c, some pk)] → s.epSilent e = true → s.aud.routes = [] →
    t = (((s.setReg (AUD_EP_HOST_POS e) 0).setReg (AUD_EP_DEV_POS e) 0).setEp e { cfg := c, pend := [], hold := ⟨unity, unity, 0, 0⟩ }).showEp e →
    t.aud.routes = [] → t.now = s.now → s.settleEp e = t.complete pk .ok 0 0 s.now) ∧
  (∀ (pk : Pkt) (s t : State) (p : List Byte) (o : Nat), s.Accepts cmdAudSetNode pk (hooksAudSetNode pk s) p t → o = t.ownerOf pk.fn →
    (bit (par p 17 1) 1 = true → exec (.audSetNode pk) s = .next (({ t with aud := { t.aud with
      staged := tabSet (fun _ => []) t.aud.staged o (t.stagedOf o ++ [(0x0903, p)]) } }).complete pk .ok)) ∧
    (bit (par p 17 1) 1 = false → t.aud.changes = [] →
      exec (.audSetNode pk) s = .next { t with aud := { t.aud with changes := [⟨o, 0x0903, p, pk⟩] } })) ∧
  (∀ (pk : Pkt) (s t : State) (p : List Byte) (o : Nat), s.Accepts cmdAudSetRoute pk (hooksAudSetRoute pk s) p t → o = t.ownerOf pk.fn →
    (bit (par p 19 1) 1 = true → exec (.audSetRoute pk) s = .next (({ t with aud := { t.aud with
      staged := tabSet (fun _ => []) t.aud.staged o (t.stagedOf o ++ [(0x0904, p)]) } }).complete pk .ok)) ∧
    (bit (par p 19 1) 1 = false → t.aud.changes = [] →
      exec (.audSetRoute pk) s = .next { t with aud := { t.aud with changes := [⟨o, 0x0904, p, pk⟩] } })) ∧
  (∀ (s t : State) (c : AudChange), c.op ≠ 0x0905 → s.fading c.owner c.op c.params = false →
    t = { s with aud := { s.aud with changes := s.aud.changes.filter (fun x => decide (x.pk ≠ c.pk)) } } →
    s.boundary c = (t.applyGraph c.owner c.op c.params).complete c.pk .ok 0 0 (t.rampEnd [(c.op, c.params)])) ∧
  (∀ (pk : Pkt) (s t : State) (p : List Byte), s.Accepts cmdAudCommit pk (hooksAudCommit s) p t → t.aud.changes.any (fun c => decide (c.pk = pk)) = false →
    exec (.audCommit pk) s = .next { t with aud := { t.aud with changes := t.aud.changes ++ [⟨t.ownerOf pk.fn, 0x0905, [], pk⟩] } }) ∧
  (∀ (n ps rate : Nat) (d : Int) (s : State), s.domainUp 21 = true → s.slavePort n = true → s.getF (AUD_PORT_STATUS n) AUD_PORT_STATUS_LOST = 0 →
    rate = audRates.getD (s.audPort n).cfg.rate 0 → d = (10 ^ 12 : Int) - (ps * rate : Nat) →
    (0 < ps → 50 * d.natAbs ≤ 10 ^ 12 → exec (.tdmFsEdge n ps) s = .next ((s.setPort n { s.audPort n with edges := 0 }).setF (AUD_PORT_STATUS n) AUD_PORT_STATUS_PPM
      (unsigned 16 (roundDivInt (d * 10 ^ 6) (ps * rate))))) ∧
    (10 ^ 12 < 50 * d.natAbs → exec (.tdmFsEdge n ps) s = .next ((s.countF (AUD_PORT_STATUS n) AUD_PORT_STATUS_REJECT).setPort n { s.audPort n with edges := 0 }))) ∧
  (∀ (n : Nat) (s : State), s.domainUp 21 = true → s.slavePort n = true →
    (s.getF (AUD_PORT_STATUS n) AUD_PORT_STATUS_LOST = 0 → exec (.tdmPortLost n) s = .next
      (((s.setPort n { s.audPort n with edges := 0 }).setF (AUD_PORT_STATUS n) AUD_PORT_STATUS_LOST 1).postMgr 0x8902 n 1 0)) ∧
    (s.getF (AUD_PORT_STATUS n) AUD_PORT_STATUS_LOST = 1 → 64 ≤ (s.audPort n).edges → exec (.tdmPortRelock n) s = .next
      (((s.setPort n { s.audPort n with edges := 0 }).setF (AUD_PORT_STATUS n) AUD_PORT_STATUS_LOST 0).postMgr 0x8902 n 0 0))) ∧
  (∀ (ins : List (Nat × List (List Int))) (chime : List Int) (poison : List Nat) (s a b c d : State), s.domainUp 21 = true →
    a = ((s.aud.changes.foldl (fun t c => t.boundary c) s).setF AUD_STATUS AUD_STATUS_SAFE (b2n (s.aud.changes.foldl (fun t c => t.boundary c) s).safe)).aimRoutes →
    b = ((a.aud.eps.map Prod.fst).foldl (fun t e => t.settleEp e) a).aimRoutes →
    c = ((b.aud.eps.map Prod.fst).filter (fun e => decide (e < 32))).foldl (fun t e => t.runSource ins e) b →
    d = State.runNodes poison 128 (c.aud.nodes.map Prod.fst) c →
    exec (.audioBlock ins chime poison) s = .next ((((d.aud.eps.map Prod.fst).filter (fun e => decide (32 ≤ e))).foldl (fun t e => t.runSink chime e) d).stepRoutes.stepNodes))
end

