-- ==== Sys2Proof/Laws/Tab.lean ====
section
/-! SUPPORT. Finite maps: every operation keeps the canonical form, and reads what it should. -/

namespace Sys2Proof.Machine

variable {α : Type}

/-- Keys strictly rising from `lo` on, in the terms of the list library. -/
theorem risingFrom_iff (m : Tab α) (lo : Nat) :
    risingFrom lo m = true ↔ m.Pairwise (fun p q => p.1 < q.1) ∧ ∀ p ∈ m, lo ≤ p.1 := by
  induction m generalizing lo with
  | nil => simp [risingFrom]
  | cons a r ih =>
    obtain ⟨k, v⟩ := a
    simp only [risingFrom, Bool.and_eq_true, decide_eq_true_eq, ih, List.pairwise_cons, List.mem_cons, forall_eq_or_imp]
    constructor
    · rintro ⟨h, hp, hr⟩
      exact ⟨⟨fun p hm => hr p hm, hp⟩, h, fun p hm => le_trans h (le_of_lt (hr p hm))⟩
    · rintro ⟨⟨h1, hp⟩, h, _⟩
      exact ⟨h, hp, fun p hm => h1 p hm⟩

variable [DecidableEq α]

/-- The canonical form: keys strictly rising, no entry that says what an unlisted key says. -/
theorem tabWf_iff (d : Nat → α) (m : Tab α) :
    tabWf d m = true ↔ m.Pairwise (fun p q => p.1 < q.1) ∧ ∀ p ∈ m, p.2 ≠ d p.1 := by
  simp [tabWf, risingFrom_iff]

@[simp] theorem tabWf_nil (d : Nat → α) : tabWf d [] = true := rfl

theorem tabWf_filter {d : Nat → α} {m : Tab α} (p : Nat × α → Bool) (h : tabWf d m = true) : tabWf d (m.filter p) = true := by
  rw [tabWf_iff] at h ⊢
  exact ⟨h.1.filter _, fun q hq => h.2 q (List.mem_of_mem_filter hq)⟩

theorem tabWf_dropRange {d : Nat → α} {m : Tab α} (lo hi : Nat) (h : tabWf d m = true) : tabWf d (tabDropRange m lo hi) = true :=
  tabWf_filter _ h

theorem tabWf_erase {d : Nat → α} {m : Tab α} (k : Nat) (h : tabWf d m = true) : tabWf d (tabErase m k) = true :=
  tabWf_filter _ h

theorem mem_tabInsert {k : Nat} {v : α} {m : Tab α} {p : Nat × α} : p ∈ tabInsert k v m ↔ p = (k, v) ∨ p ∈ m := by
  induction m with
  | nil => simp [tabInsert]
  | cons a r ih =>
    obtain ⟨k', v'⟩ := a
    simp only [tabInsert]
    split <;> simp only [List.mem_cons, ih] <;> tauto

theorem tabInsert_pairwise {k : Nat} {v : α} {m : Tab α} (h : m.Pairwise (fun p q => p.1 < q.1)) (hk : ∀ p ∈ m, p.1 ≠ k) :
    (tabInsert k v m).Pairwise (fun p q => p.1 < q.1) := by
  induction m with
  | nil => simp [tabInsert]
  | cons a r ih =>
    obtain ⟨k', v'⟩ := a
    have hk' : k' ≠ k := hk (k', v') (by simp)
    rw [List.pairwise_cons] at h
    simp only [tabInsert]
    split
    · rename_i hlt
      refine List.pairwise_cons.2 ⟨fun p hp => ?_, List.pairwise_cons.2 h⟩
      rcases List.mem_cons.1 hp with rfl | hp
      · exact hlt
      · exact lt_trans hlt (h.1 p hp)
    · refine List.pairwise_cons.2 ⟨fun p hp => ?_, ih h.2 (fun p hp => hk p (by simp [hp]))⟩
      rcases mem_tabInsert.1 hp with rfl | hp
      · show k' < k
        omega
      · exact h.1 p hp

theorem tabWf_set {d : Nat → α} {m : Tab α} (k : Nat) (v : α) (h : tabWf d m = true) : tabWf d (tabSet d m k v) = true := by
  unfold tabSet
  split
  · exact tabWf_erase k h
  · rename_i hv
    have he := (tabWf_iff d _).1 (tabWf_erase k h)
    rw [tabWf_iff]
    refine ⟨tabInsert_pairwise he.1 fun p hp => by simp [tabErase] at hp; exact hp.2, fun p hp => ?_⟩
    rcases mem_tabInsert.1 hp with rfl | hp
    · exact hv
    · exact he.2 p hp

theorem tabWf_map {d : Nat → α} {m : Tab α} (g : Nat → α → α) (h : tabWf d m = true) : tabWf d (tabMap d m g) = true := by
  rw [tabWf_iff] at h ⊢
  refine ⟨List.Pairwise.filter _ (List.pairwise_map.2 h.1), fun p hp => ?_⟩
  simpa using (List.mem_filter.1 hp).2

theorem pairwise_zipIdx (vs : List α) (lo : Nat) :
    ((vs.zipIdx lo).map (fun x => (x.2, x.1))).Pairwise (fun p q => p.1 < q.1) ∧
      ∀ p ∈ (vs.zipIdx lo).map (fun x => (x.2, x.1)), lo ≤ p.1 ∧ p.1 < lo + vs.length := by
  induction vs generalizing lo with
  | nil => simp
  | cons a r ih =>
    obtain ⟨h1, h2⟩ := ih (lo + 1)
    simp only [List.zipIdx_cons, List.map_cons, List.pairwise_cons, List.mem_cons, List.length_cons]
    refine ⟨⟨fun p hp => ?_, h1⟩, fun p hp => ?_⟩
    · have := (h2 p hp).1
      show lo < p.1
      omega
    · rcases hp with rfl | hp
      · exact ⟨le_refl _, by show lo < _; omega⟩
      · have := h2 p hp
        omega

theorem tabWf_put {d : Nat → α} {m : Tab α} (lo : Nat) (vs : List α) (h : tabWf d m = true) : tabWf d (tabPut d m lo vs) = true := by
  rw [tabWf_iff] at h ⊢
  obtain ⟨hz, hb⟩ := pairwise_zipIdx vs lo
  unfold tabPut
  refine ⟨List.pairwise_append.2 ⟨h.1.filter _, List.pairwise_append.2 ⟨hz.filter _, h.1.filter _, fun p hp q hq => ?_⟩, fun p hp q hq => ?_⟩,
    fun p hp => ?_⟩
  · have h1 := (hb p (List.mem_of_mem_filter hp)).2
    have h2 := (List.mem_filter.1 hq).2
    simp only [decide_eq_true_eq] at h2
    omega
  · have h1 := (List.mem_filter.1 hp).2
    simp only [decide_eq_true_eq] at h1
    rcases List.mem_append.1 hq with hq | hq
    · exact lt_of_lt_of_le h1 (hb q (List.mem_of_mem_filter hq)).1
    · have h2 := (List.mem_filter.1 hq).2
      simp only [decide_eq_true_eq] at h2
      omega
  · rcases List.mem_append.1 hp with hp | hp
    · exact h.2 p (List.mem_of_mem_filter hp)
    · rcases List.mem_append.1 hp with hp | hp
      · simpa using (List.mem_filter.1 hp).2
      · exact h.2 p (List.mem_of_mem_filter hp)

/-! ### What they read -/

theorem tabGet_insert_self (d : Nat → α) (k : Nat) (v : α) (m : Tab α) (h : ∀ p ∈ m, p.1 ≠ k) : tabGet d (tabInsert k v m) k = v := by
  induction m with
  | nil => simp [tabInsert, tabGet]
  | cons a r ih =>
    obtain ⟨k', v'⟩ := a
    have hk : k' ≠ k := h (k', v') (by simp)
    simp only [tabInsert]
    split
    · simp [tabGet]
    · simp [tabGet, hk, ih fun p hp => h p (by simp [hp])]

theorem tabGet_insert_ne (d : Nat → α) {k j : Nat} (v : α) (m : Tab α) (h : j ≠ k) : tabGet d (tabInsert k v m) j = tabGet d m j := by
  induction m with
  | nil => simp [tabInsert, tabGet, h.symm]
  | cons a r ih =>
    obtain ⟨k', v'⟩ := a
    simp only [tabInsert]
    split
    · simp [tabGet, h.symm]
    · simp only [tabGet, ih]

theorem tabGet_erase_self (d : Nat → α) (k : Nat) (m : Tab α) : tabGet d (tabErase m k) k = d k := by
  induction m with
  | nil => rfl
  | cons a r ih =>
    obtain ⟨k', v'⟩ := a
    by_cases hk : k' = k
    · simpa [tabErase, hk] using ih
    · simpa [tabErase, hk, tabGet] using ih

theorem tabGet_erase_ne (d : Nat → α) {k j : Nat} (m : Tab α) (h : j ≠ k) : tabGet d (tabErase m k) j = tabGet d m j := by
  induction m with
  | nil => rfl
  | cons a r ih =>
    obtain ⟨k', v'⟩ := a
    by_cases hk : k' = k
    · subst hk
      simpa [tabErase, tabGet, h.symm] using ih
    · by_cases hj : k' = j
      · subst hj
        simp [tabErase, hk, tabGet]
      · simpa [tabErase, hk, tabGet, hj] using ih

/-- A map reads at a key what was last put there. -/
@[simp] theorem tabGet_set_self (d : Nat → α) (m : Tab α) (k : Nat) (v : α) : tabGet d (tabSet d m k v) k = v := by
  unfold tabSet
  split
  · rename_i h
    rw [tabGet_erase_self, h]
  · exact tabGet_insert_self d k v _ fun p hp => by simp [tabErase] at hp; exact hp.2

/-- Putting something at one key leaves every other as it was. -/
theorem tabGet_set_ne (d : Nat → α) (m : Tab α) {k j : Nat} (v : α) (h : j ≠ k) : tabGet d (tabSet d m k v) j = tabGet d m j := by
  unfold tabSet
  split
  · exact tabGet_erase_ne d m h
  · rw [tabGet_insert_ne d v _ h, tabGet_erase_ne d m h]

end Sys2Proof.Machine
end

