-- ==== Sys2Proof/Laws/State.lean ====
section
/-! SUPPORT. What the basic updates of the state leave alone, one lemma a field, and what is read after a write. -/

namespace Sys2Proof.Machine

/-- A register written holds the low 32 bits of the value. -/
@[simp] theorem State.reg_setReg (s : State) (a v : Nat) : (s.setReg a v).reg a = v % 2 ^ 32 := by
  simp [State.reg, State.setReg, BitVec.toNat_ofNat]

/-- Every other register keeps its value. -/
theorem State.reg_setReg_ne (s : State) {a b : Nat} (v : Nat) (h : b ≠ a) : (s.setReg a v).reg b = s.reg b := by
  simp [State.reg, State.setReg, tabGet_set_ne _ _ _ h]

/-- A register is below 2³². -/
theorem State.reg_lt (s : State) (a : Nat) : s.reg a < 2 ^ 32 := (tabGet resetValue s.regs a).isLt

/-- What a function has after it is set. -/
@[simp] theorem State.fnState_setFn (s : State) (f : Nat) (x : FnState) : (s.setFn f x).fnState f = x := by
  simp [State.fnState, State.setFn]

/-- Another function keeps what it has. -/
theorem State.fnState_setFn_ne (s : State) {f g : Nat} (x : FnState) (h : g ≠ f) : (s.setFn f x).fnState g = s.fnState g := by
  simp [State.fnState, State.setFn, tabGet_set_ne _ _ _ h]

/-- An instance after it is set. -/
@[simp] theorem State.inst_setInst (s : State) (n : Nat) (x : Inst) : (s.setInst n x).inst n = x := by
  simp [State.inst, State.setInst]

/-- A slip after it is set. -/
@[simp] theorem State.slip_setSlip (s : State) (n : Nat) (x : Slip) : (s.setSlip n x).slip n = x := by
  simp [State.slip, State.setSlip]

/-- A Shelfmark Table entry after it is set. -/
@[simp] theorem State.shelf_setShelf (s : State) (i : Nat) (e : ShelfEntry) : (s.setShelf i e).shelf i = e := by
  simp [State.shelf, State.setShelf]

@[simp] theorem State.setReg_pending (s : State) (a v : Nat) : (s.setReg a v).pending = s.pending := rfl
@[simp] theorem State.setReg_now (s : State) (a v : Nat) : (s.setReg a v).now = s.now := rfl
@[simp] theorem State.setReg_freeCount (s : State) (a v : Nat) : (s.setReg a v).freeCount = s.freeCount := rfl
@[simp] theorem State.setReg_wideLow (s : State) (a v : Nat) : (s.setReg a v).wideLow = s.wideLow := rfl
@[simp] theorem State.setReg_wideHigh (s : State) (a v : Nat) : (s.setReg a v).wideHigh = s.wideHigh := rfl
@[simp] theorem State.setReg_lastRead (s : State) (a v : Nat) : (s.setReg a v).lastRead = s.lastRead := rfl
@[simp] theorem State.setReg_out (s : State) (a v : Nat) : (s.setReg a v).out = s.out := rfl
@[simp] theorem State.setReg_fns (s : State) (a v : Nat) : (s.setReg a v).fns = s.fns := rfl
@[simp] theorem State.setReg_flight (s : State) (a v : Nat) : (s.setReg a v).flight = s.flight := rfl
@[simp] theorem State.setReg_slips (s : State) (a v : Nat) : (s.setReg a v).slips = s.slips := rfl
@[simp] theorem State.setReg_rrPos (s : State) (a v : Nat) : (s.setReg a v).rrPos = s.rrPos := rfl
@[simp] theorem State.setReg_rrTaken (s : State) (a v : Nat) : (s.setReg a v).rrTaken = s.rrTaken := rfl
@[simp] theorem State.setReg_insts (s : State) (a v : Nat) : (s.setReg a v).insts = s.insts := rfl
@[simp] theorem State.setReg_shm (s : State) (a v : Nat) : (s.setReg a v).shm = s.shm := rfl
@[simp] theorem State.setReg_mem (s : State) (a v : Nat) : (s.setReg a v).mem = s.mem := rfl
@[simp] theorem State.setReg_esc (s : State) (a v : Nat) : (s.setReg a v).esc = s.esc := rfl
@[simp] theorem State.setReg_err (s : State) (a v : Nat) : (s.setReg a v).err = s.err := rfl
@[simp] theorem State.setReg_ledg (s : State) (a v : Nat) : (s.setReg a v).ledg = s.ledg := rfl
@[simp] theorem State.setReg_bnd (s : State) (a v : Nat) : (s.setReg a v).bnd = s.bnd := rfl
@[simp] theorem State.setReg_outs (s : State) (a v : Nat) : (s.setReg a v).outs = s.outs := rfl
@[simp] theorem State.setReg_coll (s : State) (a v : Nat) : (s.setReg a v).coll = s.coll := rfl
@[simp] theorem State.setReg_strg (s : State) (a v : Nat) : (s.setReg a v).strg = s.strg := rfl
@[simp] theorem State.setReg_hap (s : State) (a v : Nat) : (s.setReg a v).hap = s.hap := rfl
@[simp] theorem State.setReg_tch (s : State) (a v : Nat) : (s.setReg a v).tch = s.tch := rfl
@[simp] theorem State.setReg_aud (s : State) (a v : Nat) : (s.setReg a v).aud = s.aud := rfl
@[simp] theorem State.setReg_rnd (s : State) (a v : Nat) : (s.setReg a v).rnd = s.rnd := rfl
@[simp] theorem State.setReg_fab (s : State) (a v : Nat) : (s.setReg a v).fab = s.fab := rfl
@[simp] theorem State.setReg_fw (s : State) (a v : Nat) : (s.setReg a v).fw = s.fw := rfl
@[simp] theorem State.setReg_pwr (s : State) (a v : Nat) : (s.setReg a v).pwr = s.pwr := rfl
@[simp] theorem State.setReg_pmu (s : State) (a v : Nat) : (s.setReg a v).pmu = s.pmu := rfl
@[simp] theorem State.setReg_dbg (s : State) (a v : Nat) : (s.setReg a v).dbg = s.dbg := rfl

@[simp] theorem State.setF_pending (s : State) (a : Nat) (f : Fld) (v : Nat) : (s.setF a f v).pending = s.pending := rfl
@[simp] theorem State.setF_now (s : State) (a : Nat) (f : Fld) (v : Nat) : (s.setF a f v).now = s.now := rfl
@[simp] theorem State.setF_freeCount (s : State) (a : Nat) (f : Fld) (v : Nat) : (s.setF a f v).freeCount = s.freeCount := rfl
@[simp] theorem State.setF_wideLow (s : State) (a : Nat) (f : Fld) (v : Nat) : (s.setF a f v).wideLow = s.wideLow := rfl
@[simp] theorem State.setF_wideHigh (s : State) (a : Nat) (f : Fld) (v : Nat) : (s.setF a f v).wideHigh = s.wideHigh := rfl
@[simp] theorem State.setF_lastRead (s : State) (a : Nat) (f : Fld) (v : Nat) : (s.setF a f v).lastRead = s.lastRead := rfl
@[simp] theorem State.setF_out (s : State) (a : Nat) (f : Fld) (v : Nat) : (s.setF a f v).out = s.out := rfl
@[simp] theorem State.setF_fns (s : State) (a : Nat) (f : Fld) (v : Nat) : (s.setF a f v).fns = s.fns := rfl
@[simp] theorem State.setF_flight (s : State) (a : Nat) (f : Fld) (v : Nat) : (s.setF a f v).flight = s.flight := rfl
@[simp] theorem State.setF_slips (s : State) (a : Nat) (f : Fld) (v : Nat) : (s.setF a f v).slips = s.slips := rfl
@[simp] theorem State.setF_rrPos (s : State) (a : Nat) (f : Fld) (v : Nat) : (s.setF a f v).rrPos = s.rrPos := rfl
@[simp] theorem State.setF_rrTaken (s : State) (a : Nat) (f : Fld) (v : Nat) : (s.setF a f v).rrTaken = s.rrTaken := rfl
@[simp] theorem State.setF_insts (s : State) (a : Nat) (f : Fld) (v : Nat) : (s.setF a f v).insts = s.insts := rfl
@[simp] theorem State.setF_shm (s : State) (a : Nat) (f : Fld) (v : Nat) : (s.setF a f v).shm = s.shm := rfl
@[simp] theorem State.setF_mem (s : State) (a : Nat) (f : Fld) (v : Nat) : (s.setF a f v).mem = s.mem := rfl
@[simp] theorem State.setF_esc (s : State) (a : Nat) (f : Fld) (v : Nat) : (s.setF a f v).esc = s.esc := rfl
@[simp] theorem State.setF_err (s : State) (a : Nat) (f : Fld) (v : Nat) : (s.setF a f v).err = s.err := rfl
@[simp] theorem State.setF_ledg (s : State) (a : Nat) (f : Fld) (v : Nat) : (s.setF a f v).ledg = s.ledg := rfl
@[simp] theorem State.setF_bnd (s : State) (a : Nat) (f : Fld) (v : Nat) : (s.setF a f v).bnd = s.bnd := rfl
@[simp] theorem State.setF_outs (s : State) (a : Nat) (f : Fld) (v : Nat) : (s.setF a f v).outs = s.outs := rfl
@[simp] theorem State.setF_coll (s : State) (a : Nat) (f : Fld) (v : Nat) : (s.setF a f v).coll = s.coll := rfl
@[simp] theorem State.setF_strg (s : State) (a : Nat) (f : Fld) (v : Nat) : (s.setF a f v).strg = s.strg := rfl
@[simp] theorem State.setF_hap (s : State) (a : Nat) (f : Fld) (v : Nat) : (s.setF a f v).hap = s.hap := rfl
@[simp] theorem State.setF_tch (s : State) (a : Nat) (f : Fld) (v : Nat) : (s.setF a f v).tch = s.tch := rfl
@[simp] theorem State.setF_aud (s : State) (a : Nat) (f : Fld) (v : Nat) : (s.setF a f v).aud = s.aud := rfl
@[simp] theorem State.setF_rnd (s : State) (a : Nat) (f : Fld) (v : Nat) : (s.setF a f v).rnd = s.rnd := rfl
@[simp] theorem State.setF_fab (s : State) (a : Nat) (f : Fld) (v : Nat) : (s.setF a f v).fab = s.fab := rfl
@[simp] theorem State.setF_fw (s : State) (a : Nat) (f : Fld) (v : Nat) : (s.setF a f v).fw = s.fw := rfl
@[simp] theorem State.setF_pwr (s : State) (a : Nat) (f : Fld) (v : Nat) : (s.setF a f v).pwr = s.pwr := rfl
@[simp] theorem State.setF_pmu (s : State) (a : Nat) (f : Fld) (v : Nat) : (s.setF a f v).pmu = s.pmu := rfl
@[simp] theorem State.setF_dbg (s : State) (a : Nat) (f : Fld) (v : Nat) : (s.setF a f v).dbg = s.dbg := rfl

@[simp] theorem State.setBit_pending (s : State) (a n : Nat) (b : Bool) : (s.setBit a n b).pending = s.pending := rfl
@[simp] theorem State.setBit_now (s : State) (a n : Nat) (b : Bool) : (s.setBit a n b).now = s.now := rfl
@[simp] theorem State.setBit_freeCount (s : State) (a n : Nat) (b : Bool) : (s.setBit a n b).freeCount = s.freeCount := rfl
@[simp] theorem State.setBit_wideLow (s : State) (a n : Nat) (b : Bool) : (s.setBit a n b).wideLow = s.wideLow := rfl
@[simp] theorem State.setBit_wideHigh (s : State) (a n : Nat) (b : Bool) : (s.setBit a n b).wideHigh = s.wideHigh := rfl
@[simp] theorem State.setBit_lastRead (s : State) (a n : Nat) (b : Bool) : (s.setBit a n b).lastRead = s.lastRead := rfl
@[simp] theorem State.setBit_out (s : State) (a n : Nat) (b : Bool) : (s.setBit a n b).out = s.out := rfl
@[simp] theorem State.setBit_fns (s : State) (a n : Nat) (b : Bool) : (s.setBit a n b).fns = s.fns := rfl
@[simp] theorem State.setBit_flight (s : State) (a n : Nat) (b : Bool) : (s.setBit a n b).flight = s.flight := rfl
@[simp] theorem State.setBit_slips (s : State) (a n : Nat) (b : Bool) : (s.setBit a n b).slips = s.slips := rfl
@[simp] theorem State.setBit_rrPos (s : State) (a n : Nat) (b : Bool) : (s.setBit a n b).rrPos = s.rrPos := rfl
@[simp] theorem State.setBit_rrTaken (s : State) (a n : Nat) (b : Bool) : (s.setBit a n b).rrTaken = s.rrTaken := rfl
@[simp] theorem State.setBit_insts (s : State) (a n : Nat) (b : Bool) : (s.setBit a n b).insts = s.insts := rfl
@[simp] theorem State.setBit_shm (s : State) (a n : Nat) (b : Bool) : (s.setBit a n b).shm = s.shm := rfl
@[simp] theorem State.setBit_mem (s : State) (a n : Nat) (b : Bool) : (s.setBit a n b).mem = s.mem := rfl
@[simp] theorem State.setBit_esc (s : State) (a n : Nat) (b : Bool) : (s.setBit a n b).esc = s.esc := rfl
@[simp] theorem State.setBit_err (s : State) (a n : Nat) (b : Bool) : (s.setBit a n b).err = s.err := rfl
@[simp] theorem State.setBit_ledg (s : State) (a n : Nat) (b : Bool) : (s.setBit a n b).ledg = s.ledg := rfl
@[simp] theorem State.setBit_bnd (s : State) (a n : Nat) (b : Bool) : (s.setBit a n b).bnd = s.bnd := rfl
@[simp] theorem State.setBit_outs (s : State) (a n : Nat) (b : Bool) : (s.setBit a n b).outs = s.outs := rfl
@[simp] theorem State.setBit_coll (s : State) (a n : Nat) (b : Bool) : (s.setBit a n b).coll = s.coll := rfl
@[simp] theorem State.setBit_strg (s : State) (a n : Nat) (b : Bool) : (s.setBit a n b).strg = s.strg := rfl
@[simp] theorem State.setBit_hap (s : State) (a n : Nat) (b : Bool) : (s.setBit a n b).hap = s.hap := rfl
@[simp] theorem State.setBit_tch (s : State) (a n : Nat) (b : Bool) : (s.setBit a n b).tch = s.tch := rfl
@[simp] theorem State.setBit_aud (s : State) (a n : Nat) (b : Bool) : (s.setBit a n b).aud = s.aud := rfl
@[simp] theorem State.setBit_rnd (s : State) (a n : Nat) (b : Bool) : (s.setBit a n b).rnd = s.rnd := rfl
@[simp] theorem State.setBit_fab (s : State) (a n : Nat) (b : Bool) : (s.setBit a n b).fab = s.fab := rfl
@[simp] theorem State.setBit_fw (s : State) (a n : Nat) (b : Bool) : (s.setBit a n b).fw = s.fw := rfl
@[simp] theorem State.setBit_pwr (s : State) (a n : Nat) (b : Bool) : (s.setBit a n b).pwr = s.pwr := rfl
@[simp] theorem State.setBit_pmu (s : State) (a n : Nat) (b : Bool) : (s.setBit a n b).pmu = s.pmu := rfl
@[simp] theorem State.setBit_dbg (s : State) (a n : Nat) (b : Bool) : (s.setBit a n b).dbg = s.dbg := rfl

@[simp] theorem State.setReg64_pending (s : State) (a v : Nat) : (s.setReg64 a v).pending = s.pending := rfl
@[simp] theorem State.setReg64_now (s : State) (a v : Nat) : (s.setReg64 a v).now = s.now := rfl
@[simp] theorem State.setReg64_freeCount (s : State) (a v : Nat) : (s.setReg64 a v).freeCount = s.freeCount := rfl
@[simp] theorem State.setReg64_wideLow (s : State) (a v : Nat) : (s.setReg64 a v).wideLow = s.wideLow := rfl
@[simp] theorem State.setReg64_wideHigh (s : State) (a v : Nat) : (s.setReg64 a v).wideHigh = s.wideHigh := rfl
@[simp] theorem State.setReg64_lastRead (s : State) (a v : Nat) : (s.setReg64 a v).lastRead = s.lastRead := rfl
@[simp] theorem State.setReg64_out (s : State) (a v : Nat) : (s.setReg64 a v).out = s.out := rfl
@[simp] theorem State.setReg64_fns (s : State) (a v : Nat) : (s.setReg64 a v).fns = s.fns := rfl
@[simp] theorem State.setReg64_flight (s : State) (a v : Nat) : (s.setReg64 a v).flight = s.flight := rfl
@[simp] theorem State.setReg64_slips (s : State) (a v : Nat) : (s.setReg64 a v).slips = s.slips := rfl
@[simp] theorem State.setReg64_rrPos (s : State) (a v : Nat) : (s.setReg64 a v).rrPos = s.rrPos := rfl
@[simp] theorem State.setReg64_rrTaken (s : State) (a v : Nat) : (s.setReg64 a v).rrTaken = s.rrTaken := rfl
@[simp] theorem State.setReg64_insts (s : State) (a v : Nat) : (s.setReg64 a v).insts = s.insts := rfl
@[simp] theorem State.setReg64_shm (s : State) (a v : Nat) : (s.setReg64 a v).shm = s.shm := rfl
@[simp] theorem State.setReg64_mem (s : State) (a v : Nat) : (s.setReg64 a v).mem = s.mem := rfl
@[simp] theorem State.setReg64_esc (s : State) (a v : Nat) : (s.setReg64 a v).esc = s.esc := rfl
@[simp] theorem State.setReg64_err (s : State) (a v : Nat) : (s.setReg64 a v).err = s.err := rfl
@[simp] theorem State.setReg64_ledg (s : State) (a v : Nat) : (s.setReg64 a v).ledg = s.ledg := rfl
@[simp] theorem State.setReg64_bnd (s : State) (a v : Nat) : (s.setReg64 a v).bnd = s.bnd := rfl
@[simp] theorem State.setReg64_outs (s : State) (a v : Nat) : (s.setReg64 a v).outs = s.outs := rfl
@[simp] theorem State.setReg64_coll (s : State) (a v : Nat) : (s.setReg64 a v).coll = s.coll := rfl
@[simp] theorem State.setReg64_strg (s : State) (a v : Nat) : (s.setReg64 a v).strg = s.strg := rfl
@[simp] theorem State.setReg64_hap (s : State) (a v : Nat) : (s.setReg64 a v).hap = s.hap := rfl
@[simp] theorem State.setReg64_tch (s : State) (a v : Nat) : (s.setReg64 a v).tch = s.tch := rfl
@[simp] theorem State.setReg64_aud (s : State) (a v : Nat) : (s.setReg64 a v).aud = s.aud := rfl
@[simp] theorem State.setReg64_rnd (s : State) (a v : Nat) : (s.setReg64 a v).rnd = s.rnd := rfl
@[simp] theorem State.setReg64_fab (s : State) (a v : Nat) : (s.setReg64 a v).fab = s.fab := rfl
@[simp] theorem State.setReg64_fw (s : State) (a v : Nat) : (s.setReg64 a v).fw = s.fw := rfl
@[simp] theorem State.setReg64_pwr (s : State) (a v : Nat) : (s.setReg64 a v).pwr = s.pwr := rfl
@[simp] theorem State.setReg64_pmu (s : State) (a v : Nat) : (s.setReg64 a v).pmu = s.pmu := rfl
@[simp] theorem State.setReg64_dbg (s : State) (a v : Nat) : (s.setReg64 a v).dbg = s.dbg := rfl

@[simp] theorem State.count_pending (s : State) (a n : Nat) : (s.count a n).pending = s.pending := rfl
@[simp] theorem State.count_now (s : State) (a n : Nat) : (s.count a n).now = s.now := rfl
@[simp] theorem State.count_freeCount (s : State) (a n : Nat) : (s.count a n).freeCount = s.freeCount := rfl
@[simp] theorem State.count_wideLow (s : State) (a n : Nat) : (s.count a n).wideLow = s.wideLow := rfl
@[simp] theorem State.count_wideHigh (s : State) (a n : Nat) : (s.count a n).wideHigh = s.wideHigh := rfl
@[simp] theorem State.count_lastRead (s : State) (a n : Nat) : (s.count a n).lastRead = s.lastRead := rfl
@[simp] theorem State.count_out (s : State) (a n : Nat) : (s.count a n).out = s.out := rfl
@[simp] theorem State.count_fns (s : State) (a n : Nat) : (s.count a n).fns = s.fns := rfl
@[simp] theorem State.count_flight (s : State) (a n : Nat) : (s.count a n).flight = s.flight := rfl
@[simp] theorem State.count_slips (s : State) (a n : Nat) : (s.count a n).slips = s.slips := rfl
@[simp] theorem State.count_rrPos (s : State) (a n : Nat) : (s.count a n).rrPos = s.rrPos := rfl
@[simp] theorem State.count_rrTaken (s : State) (a n : Nat) : (s.count a n).rrTaken = s.rrTaken := rfl
@[simp] theorem State.count_insts (s : State) (a n : Nat) : (s.count a n).insts = s.insts := rfl
@[simp] theorem State.count_shm (s : State) (a n : Nat) : (s.count a n).shm = s.shm := rfl
@[simp] theorem State.count_mem (s : State) (a n : Nat) : (s.count a n).mem = s.mem := rfl
@[simp] theorem State.count_esc (s : State) (a n : Nat) : (s.count a n).esc = s.esc := rfl
@[simp] theorem State.count_err (s : State) (a n : Nat) : (s.count a n).err = s.err := rfl
@[simp] theorem State.count_ledg (s : State) (a n : Nat) : (s.count a n).ledg = s.ledg := rfl
@[simp] theorem State.count_bnd (s : State) (a n : Nat) : (s.count a n).bnd = s.bnd := rfl
@[simp] theorem State.count_outs (s : State) (a n : Nat) : (s.count a n).outs = s.outs := rfl
@[simp] theorem State.count_coll (s : State) (a n : Nat) : (s.count a n).coll = s.coll := rfl
@[simp] theorem State.count_strg (s : State) (a n : Nat) : (s.count a n).strg = s.strg := rfl
@[simp] theorem State.count_hap (s : State) (a n : Nat) : (s.count a n).hap = s.hap := rfl
@[simp] theorem State.count_tch (s : State) (a n : Nat) : (s.count a n).tch = s.tch := rfl
@[simp] theorem State.count_aud (s : State) (a n : Nat) : (s.count a n).aud = s.aud := rfl
@[simp] theorem State.count_rnd (s : State) (a n : Nat) : (s.count a n).rnd = s.rnd := rfl
@[simp] theorem State.count_fab (s : State) (a n : Nat) : (s.count a n).fab = s.fab := rfl
@[simp] theorem State.count_fw (s : State) (a n : Nat) : (s.count a n).fw = s.fw := rfl
@[simp] theorem State.count_pwr (s : State) (a n : Nat) : (s.count a n).pwr = s.pwr := rfl
@[simp] theorem State.count_pmu (s : State) (a n : Nat) : (s.count a n).pmu = s.pmu := rfl
@[simp] theorem State.count_dbg (s : State) (a n : Nat) : (s.count a n).dbg = s.dbg := rfl

@[simp] theorem State.countF_pending (s : State) (a : Nat) (f : Fld) (n : Nat) : (s.countF a f n).pending = s.pending := rfl
@[simp] theorem State.countF_now (s : State) (a : Nat) (f : Fld) (n : Nat) : (s.countF a f n).now = s.now := rfl
@[simp] theorem State.countF_freeCount (s : State) (a : Nat) (f : Fld) (n : Nat) : (s.countF a f n).freeCount = s.freeCount := rfl
@[simp] theorem State.countF_wideLow (s : State) (a : Nat) (f : Fld) (n : Nat) : (s.countF a f n).wideLow = s.wideLow := rfl
@[simp] theorem State.countF_wideHigh (s : State) (a : Nat) (f : Fld) (n : Nat) : (s.countF a f n).wideHigh = s.wideHigh := rfl
@[simp] theorem State.countF_lastRead (s : State) (a : Nat) (f : Fld) (n : Nat) : (s.countF a f n).lastRead = s.lastRead := rfl
@[simp] theorem State.countF_out (s : State) (a : Nat) (f : Fld) (n : Nat) : (s.countF a f n).out = s.out := rfl
@[simp] theorem State.countF_fns (s : State) (a : Nat) (f : Fld) (n : Nat) : (s.countF a f n).fns = s.fns := rfl
@[simp] theorem State.countF_flight (s : State) (a : Nat) (f : Fld) (n : Nat) : (s.countF a f n).flight = s.flight := rfl
@[simp] theorem State.countF_slips (s : State) (a : Nat) (f : Fld) (n : Nat) : (s.countF a f n).slips = s.slips := rfl
@[simp] theorem State.countF_rrPos (s : State) (a : Nat) (f : Fld) (n : Nat) : (s.countF a f n).rrPos = s.rrPos := rfl
@[simp] theorem State.countF_rrTaken (s : State) (a : Nat) (f : Fld) (n : Nat) : (s.countF a f n).rrTaken = s.rrTaken := rfl
@[simp] theorem State.countF_insts (s : State) (a : Nat) (f : Fld) (n : Nat) : (s.countF a f n).insts = s.insts := rfl
@[simp] theorem State.countF_shm (s : State) (a : Nat) (f : Fld) (n : Nat) : (s.countF a f n).shm = s.shm := rfl
@[simp] theorem State.countF_mem (s : State) (a : Nat) (f : Fld) (n : Nat) : (s.countF a f n).mem = s.mem := rfl
@[simp] theorem State.countF_esc (s : State) (a : Nat) (f : Fld) (n : Nat) : (s.countF a f n).esc = s.esc := rfl
@[simp] theorem State.countF_err (s : State) (a : Nat) (f : Fld) (n : Nat) : (s.countF a f n).err = s.err := rfl
@[simp] theorem State.countF_ledg (s : State) (a : Nat) (f : Fld) (n : Nat) : (s.countF a f n).ledg = s.ledg := rfl
@[simp] theorem State.countF_bnd (s : State) (a : Nat) (f : Fld) (n : Nat) : (s.countF a f n).bnd = s.bnd := rfl
@[simp] theorem State.countF_outs (s : State) (a : Nat) (f : Fld) (n : Nat) : (s.countF a f n).outs = s.outs := rfl
@[simp] theorem State.countF_coll (s : State) (a : Nat) (f : Fld) (n : Nat) : (s.countF a f n).coll = s.coll := rfl
@[simp] theorem State.countF_strg (s : State) (a : Nat) (f : Fld) (n : Nat) : (s.countF a f n).strg = s.strg := rfl
@[simp] theorem State.countF_hap (s : State) (a : Nat) (f : Fld) (n : Nat) : (s.countF a f n).hap = s.hap := rfl
@[simp] theorem State.countF_tch (s : State) (a : Nat) (f : Fld) (n : Nat) : (s.countF a f n).tch = s.tch := rfl
@[simp] theorem State.countF_aud (s : State) (a : Nat) (f : Fld) (n : Nat) : (s.countF a f n).aud = s.aud := rfl
@[simp] theorem State.countF_rnd (s : State) (a : Nat) (f : Fld) (n : Nat) : (s.countF a f n).rnd = s.rnd := rfl
@[simp] theorem State.countF_fab (s : State) (a : Nat) (f : Fld) (n : Nat) : (s.countF a f n).fab = s.fab := rfl
@[simp] theorem State.countF_fw (s : State) (a : Nat) (f : Fld) (n : Nat) : (s.countF a f n).fw = s.fw := rfl
@[simp] theorem State.countF_pwr (s : State) (a : Nat) (f : Fld) (n : Nat) : (s.countF a f n).pwr = s.pwr := rfl
@[simp] theorem State.countF_pmu (s : State) (a : Nat) (f : Fld) (n : Nat) : (s.countF a f n).pmu = s.pmu := rfl
@[simp] theorem State.countF_dbg (s : State) (a : Nat) (f : Fld) (n : Nat) : (s.countF a f n).dbg = s.dbg := rfl

@[simp] theorem State.emit_pending (s : State) (o : HostOut) : (s.emit o).pending = s.pending := rfl
@[simp] theorem State.emit_now (s : State) (o : HostOut) : (s.emit o).now = s.now := rfl
@[simp] theorem State.emit_freeCount (s : State) (o : HostOut) : (s.emit o).freeCount = s.freeCount := rfl
@[simp] theorem State.emit_regs (s : State) (o : HostOut) : (s.emit o).regs = s.regs := rfl
@[simp] theorem State.emit_wideLow (s : State) (o : HostOut) : (s.emit o).wideLow = s.wideLow := rfl
@[simp] theorem State.emit_wideHigh (s : State) (o : HostOut) : (s.emit o).wideHigh = s.wideHigh := rfl
@[simp] theorem State.emit_lastRead (s : State) (o : HostOut) : (s.emit o).lastRead = s.lastRead := rfl
@[simp] theorem State.emit_fns (s : State) (o : HostOut) : (s.emit o).fns = s.fns := rfl
@[simp] theorem State.emit_flight (s : State) (o : HostOut) : (s.emit o).flight = s.flight := rfl
@[simp] theorem State.emit_slips (s : State) (o : HostOut) : (s.emit o).slips = s.slips := rfl
@[simp] theorem State.emit_rrPos (s : State) (o : HostOut) : (s.emit o).rrPos = s.rrPos := rfl
@[simp] theorem State.emit_rrTaken (s : State) (o : HostOut) : (s.emit o).rrTaken = s.rrTaken := rfl
@[simp] theorem State.emit_insts (s : State) (o : HostOut) : (s.emit o).insts = s.insts := rfl
@[simp] theorem State.emit_shm (s : State) (o : HostOut) : (s.emit o).shm = s.shm := rfl
@[simp] theorem State.emit_mem (s : State) (o : HostOut) : (s.emit o).mem = s.mem := rfl
@[simp] theorem State.emit_esc (s : State) (o : HostOut) : (s.emit o).esc = s.esc := rfl
@[simp] theorem State.emit_err (s : State) (o : HostOut) : (s.emit o).err = s.err := rfl
@[simp] theorem State.emit_ledg (s : State) (o : HostOut) : (s.emit o).ledg = s.ledg := rfl
@[simp] theorem State.emit_bnd (s : State) (o : HostOut) : (s.emit o).bnd = s.bnd := rfl
@[simp] theorem State.emit_outs (s : State) (o : HostOut) : (s.emit o).outs = s.outs := rfl
@[simp] theorem State.emit_coll (s : State) (o : HostOut) : (s.emit o).coll = s.coll := rfl
@[simp] theorem State.emit_strg (s : State) (o : HostOut) : (s.emit o).strg = s.strg := rfl
@[simp] theorem State.emit_hap (s : State) (o : HostOut) : (s.emit o).hap = s.hap := rfl
@[simp] theorem State.emit_tch (s : State) (o : HostOut) : (s.emit o).tch = s.tch := rfl
@[simp] theorem State.emit_aud (s : State) (o : HostOut) : (s.emit o).aud = s.aud := rfl
@[simp] theorem State.emit_rnd (s : State) (o : HostOut) : (s.emit o).rnd = s.rnd := rfl
@[simp] theorem State.emit_fab (s : State) (o : HostOut) : (s.emit o).fab = s.fab := rfl
@[simp] theorem State.emit_fw (s : State) (o : HostOut) : (s.emit o).fw = s.fw := rfl
@[simp] theorem State.emit_pwr (s : State) (o : HostOut) : (s.emit o).pwr = s.pwr := rfl
@[simp] theorem State.emit_pmu (s : State) (o : HostOut) : (s.emit o).pmu = s.pmu := rfl
@[simp] theorem State.emit_dbg (s : State) (o : HostOut) : (s.emit o).dbg = s.dbg := rfl

@[simp] theorem State.setFn_pending (s : State) (fn : Nat) (x : FnState) : (s.setFn fn x).pending = s.pending := rfl
@[simp] theorem State.setFn_now (s : State) (fn : Nat) (x : FnState) : (s.setFn fn x).now = s.now := rfl
@[simp] theorem State.setFn_freeCount (s : State) (fn : Nat) (x : FnState) : (s.setFn fn x).freeCount = s.freeCount := rfl
@[simp] theorem State.setFn_regs (s : State) (fn : Nat) (x : FnState) : (s.setFn fn x).regs = s.regs := rfl
@[simp] theorem State.setFn_wideLow (s : State) (fn : Nat) (x : FnState) : (s.setFn fn x).wideLow = s.wideLow := rfl
@[simp] theorem State.setFn_wideHigh (s : State) (fn : Nat) (x : FnState) : (s.setFn fn x).wideHigh = s.wideHigh := rfl
@[simp] theorem State.setFn_lastRead (s : State) (fn : Nat) (x : FnState) : (s.setFn fn x).lastRead = s.lastRead := rfl
@[simp] theorem State.setFn_out (s : State) (fn : Nat) (x : FnState) : (s.setFn fn x).out = s.out := rfl
@[simp] theorem State.setFn_flight (s : State) (fn : Nat) (x : FnState) : (s.setFn fn x).flight = s.flight := rfl
@[simp] theorem State.setFn_slips (s : State) (fn : Nat) (x : FnState) : (s.setFn fn x).slips = s.slips := rfl
@[simp] theorem State.setFn_rrPos (s : State) (fn : Nat) (x : FnState) : (s.setFn fn x).rrPos = s.rrPos := rfl
@[simp] theorem State.setFn_rrTaken (s : State) (fn : Nat) (x : FnState) : (s.setFn fn x).rrTaken = s.rrTaken := rfl
@[simp] theorem State.setFn_insts (s : State) (fn : Nat) (x : FnState) : (s.setFn fn x).insts = s.insts := rfl
@[simp] theorem State.setFn_shm (s : State) (fn : Nat) (x : FnState) : (s.setFn fn x).shm = s.shm := rfl
@[simp] theorem State.setFn_mem (s : State) (fn : Nat) (x : FnState) : (s.setFn fn x).mem = s.mem := rfl
@[simp] theorem State.setFn_esc (s : State) (fn : Nat) (x : FnState) : (s.setFn fn x).esc = s.esc := rfl
@[simp] theorem State.setFn_err (s : State) (fn : Nat) (x : FnState) : (s.setFn fn x).err = s.err := rfl
@[simp] theorem State.setFn_ledg (s : State) (fn : Nat) (x : FnState) : (s.setFn fn x).ledg = s.ledg := rfl
@[simp] theorem State.setFn_bnd (s : State) (fn : Nat) (x : FnState) : (s.setFn fn x).bnd = s.bnd := rfl
@[simp] theorem State.setFn_outs (s : State) (fn : Nat) (x : FnState) : (s.setFn fn x).outs = s.outs := rfl
@[simp] theorem State.setFn_coll (s : State) (fn : Nat) (x : FnState) : (s.setFn fn x).coll = s.coll := rfl
@[simp] theorem State.setFn_strg (s : State) (fn : Nat) (x : FnState) : (s.setFn fn x).strg = s.strg := rfl
@[simp] theorem State.setFn_hap (s : State) (fn : Nat) (x : FnState) : (s.setFn fn x).hap = s.hap := rfl
@[simp] theorem State.setFn_tch (s : State) (fn : Nat) (x : FnState) : (s.setFn fn x).tch = s.tch := rfl
@[simp] theorem State.setFn_aud (s : State) (fn : Nat) (x : FnState) : (s.setFn fn x).aud = s.aud := rfl
@[simp] theorem State.setFn_rnd (s : State) (fn : Nat) (x : FnState) : (s.setFn fn x).rnd = s.rnd := rfl
@[simp] theorem State.setFn_fab (s : State) (fn : Nat) (x : FnState) : (s.setFn fn x).fab = s.fab := rfl
@[simp] theorem State.setFn_fw (s : State) (fn : Nat) (x : FnState) : (s.setFn fn x).fw = s.fw := rfl
@[simp] theorem State.setFn_pwr (s : State) (fn : Nat) (x : FnState) : (s.setFn fn x).pwr = s.pwr := rfl
@[simp] theorem State.setFn_pmu (s : State) (fn : Nat) (x : FnState) : (s.setFn fn x).pmu = s.pmu := rfl
@[simp] theorem State.setFn_dbg (s : State) (fn : Nat) (x : FnState) : (s.setFn fn x).dbg = s.dbg := rfl

@[simp] theorem State.setInst_pending (s : State) (n : Nat) (x : Inst) : (s.setInst n x).pending = s.pending := rfl
@[simp] theorem State.setInst_now (s : State) (n : Nat) (x : Inst) : (s.setInst n x).now = s.now := rfl
@[simp] theorem State.setInst_freeCount (s : State) (n : Nat) (x : Inst) : (s.setInst n x).freeCount = s.freeCount := rfl
@[simp] theorem State.setInst_regs (s : State) (n : Nat) (x : Inst) : (s.setInst n x).regs = s.regs := rfl
@[simp] theorem State.setInst_wideLow (s : State) (n : Nat) (x : Inst) : (s.setInst n x).wideLow = s.wideLow := rfl
@[simp] theorem State.setInst_wideHigh (s : State) (n : Nat) (x : Inst) : (s.setInst n x).wideHigh = s.wideHigh := rfl
@[simp] theorem State.setInst_lastRead (s : State) (n : Nat) (x : Inst) : (s.setInst n x).lastRead = s.lastRead := rfl
@[simp] theorem State.setInst_out (s : State) (n : Nat) (x : Inst) : (s.setInst n x).out = s.out := rfl
@[simp] theorem State.setInst_fns (s : State) (n : Nat) (x : Inst) : (s.setInst n x).fns = s.fns := rfl
@[simp] theorem State.setInst_flight (s : State) (n : Nat) (x : Inst) : (s.setInst n x).flight = s.flight := rfl
@[simp] theorem State.setInst_slips (s : State) (n : Nat) (x : Inst) : (s.setInst n x).slips = s.slips := rfl
@[simp] theorem State.setInst_rrPos (s : State) (n : Nat) (x : Inst) : (s.setInst n x).rrPos = s.rrPos := rfl
@[simp] theorem State.setInst_rrTaken (s : State) (n : Nat) (x : Inst) : (s.setInst n x).rrTaken = s.rrTaken := rfl
@[simp] theorem State.setInst_shm (s : State) (n : Nat) (x : Inst) : (s.setInst n x).shm = s.shm := rfl
@[simp] theorem State.setInst_mem (s : State) (n : Nat) (x : Inst) : (s.setInst n x).mem = s.mem := rfl
@[simp] theorem State.setInst_esc (s : State) (n : Nat) (x : Inst) : (s.setInst n x).esc = s.esc := rfl
@[simp] theorem State.setInst_err (s : State) (n : Nat) (x : Inst) : (s.setInst n x).err = s.err := rfl
@[simp] theorem State.setInst_ledg (s : State) (n : Nat) (x : Inst) : (s.setInst n x).ledg = s.ledg := rfl
@[simp] theorem State.setInst_bnd (s : State) (n : Nat) (x : Inst) : (s.setInst n x).bnd = s.bnd := rfl
@[simp] theorem State.setInst_outs (s : State) (n : Nat) (x : Inst) : (s.setInst n x).outs = s.outs := rfl
@[simp] theorem State.setInst_coll (s : State) (n : Nat) (x : Inst) : (s.setInst n x).coll = s.coll := rfl
@[simp] theorem State.setInst_strg (s : State) (n : Nat) (x : Inst) : (s.setInst n x).strg = s.strg := rfl
@[simp] theorem State.setInst_hap (s : State) (n : Nat) (x : Inst) : (s.setInst n x).hap = s.hap := rfl
@[simp] theorem State.setInst_tch (s : State) (n : Nat) (x : Inst) : (s.setInst n x).tch = s.tch := rfl
@[simp] theorem State.setInst_aud (s : State) (n : Nat) (x : Inst) : (s.setInst n x).aud = s.aud := rfl
@[simp] theorem State.setInst_rnd (s : State) (n : Nat) (x : Inst) : (s.setInst n x).rnd = s.rnd := rfl
@[simp] theorem State.setInst_fab (s : State) (n : Nat) (x : Inst) : (s.setInst n x).fab = s.fab := rfl
@[simp] theorem State.setInst_fw (s : State) (n : Nat) (x : Inst) : (s.setInst n x).fw = s.fw := rfl
@[simp] theorem State.setInst_pwr (s : State) (n : Nat) (x : Inst) : (s.setInst n x).pwr = s.pwr := rfl
@[simp] theorem State.setInst_pmu (s : State) (n : Nat) (x : Inst) : (s.setInst n x).pmu = s.pmu := rfl
@[simp] theorem State.setInst_dbg (s : State) (n : Nat) (x : Inst) : (s.setInst n x).dbg = s.dbg := rfl

@[simp] theorem State.setShelf_pending (s : State) (i : Nat) (e : ShelfEntry) : (s.setShelf i e).pending = s.pending := rfl
@[simp] theorem State.setShelf_now (s : State) (i : Nat) (e : ShelfEntry) : (s.setShelf i e).now = s.now := rfl
@[simp] theorem State.setShelf_freeCount (s : State) (i : Nat) (e : ShelfEntry) : (s.setShelf i e).freeCount = s.freeCount := rfl
@[simp] theorem State.setShelf_regs (s : State) (i : Nat) (e : ShelfEntry) : (s.setShelf i e).regs = s.regs := rfl
@[simp] theorem State.setShelf_wideLow (s : State) (i : Nat) (e : ShelfEntry) : (s.setShelf i e).wideLow = s.wideLow := rfl
@[simp] theorem State.setShelf_wideHigh (s : State) (i : Nat) (e : ShelfEntry) : (s.setShelf i e).wideHigh = s.wideHigh := rfl
@[simp] theorem State.setShelf_lastRead (s : State) (i : Nat) (e : ShelfEntry) : (s.setShelf i e).lastRead = s.lastRead := rfl
@[simp] theorem State.setShelf_out (s : State) (i : Nat) (e : ShelfEntry) : (s.setShelf i e).out = s.out := rfl
@[simp] theorem State.setShelf_fns (s : State) (i : Nat) (e : ShelfEntry) : (s.setShelf i e).fns = s.fns := rfl
@[simp] theorem State.setShelf_flight (s : State) (i : Nat) (e : ShelfEntry) : (s.setShelf i e).flight = s.flight := rfl
@[simp] theorem State.setShelf_slips (s : State) (i : Nat) (e : ShelfEntry) : (s.setShelf i e).slips = s.slips := rfl
@[simp] theorem State.setShelf_rrPos (s : State) (i : Nat) (e : ShelfEntry) : (s.setShelf i e).rrPos = s.rrPos := rfl
@[simp] theorem State.setShelf_rrTaken (s : State) (i : Nat) (e : ShelfEntry) : (s.setShelf i e).rrTaken = s.rrTaken := rfl
@[simp] theorem State.setShelf_insts (s : State) (i : Nat) (e : ShelfEntry) : (s.setShelf i e).insts = s.insts := rfl
@[simp] theorem State.setShelf_mem (s : State) (i : Nat) (e : ShelfEntry) : (s.setShelf i e).mem = s.mem := rfl
@[simp] theorem State.setShelf_esc (s : State) (i : Nat) (e : ShelfEntry) : (s.setShelf i e).esc = s.esc := rfl
@[simp] theorem State.setShelf_err (s : State) (i : Nat) (e : ShelfEntry) : (s.setShelf i e).err = s.err := rfl
@[simp] theorem State.setShelf_ledg (s : State) (i : Nat) (e : ShelfEntry) : (s.setShelf i e).ledg = s.ledg := rfl
@[simp] theorem State.setShelf_bnd (s : State) (i : Nat) (e : ShelfEntry) : (s.setShelf i e).bnd = s.bnd := rfl
@[simp] theorem State.setShelf_outs (s : State) (i : Nat) (e : ShelfEntry) : (s.setShelf i e).outs = s.outs := rfl
@[simp] theorem State.setShelf_coll (s : State) (i : Nat) (e : ShelfEntry) : (s.setShelf i e).coll = s.coll := rfl
@[simp] theorem State.setShelf_strg (s : State) (i : Nat) (e : ShelfEntry) : (s.setShelf i e).strg = s.strg := rfl
@[simp] theorem State.setShelf_hap (s : State) (i : Nat) (e : ShelfEntry) : (s.setShelf i e).hap = s.hap := rfl
@[simp] theorem State.setShelf_tch (s : State) (i : Nat) (e : ShelfEntry) : (s.setShelf i e).tch = s.tch := rfl
@[simp] theorem State.setShelf_aud (s : State) (i : Nat) (e : ShelfEntry) : (s.setShelf i e).aud = s.aud := rfl
@[simp] theorem State.setShelf_rnd (s : State) (i : Nat) (e : ShelfEntry) : (s.setShelf i e).rnd = s.rnd := rfl
@[simp] theorem State.setShelf_fab (s : State) (i : Nat) (e : ShelfEntry) : (s.setShelf i e).fab = s.fab := rfl
@[simp] theorem State.setShelf_fw (s : State) (i : Nat) (e : ShelfEntry) : (s.setShelf i e).fw = s.fw := rfl
@[simp] theorem State.setShelf_pwr (s : State) (i : Nat) (e : ShelfEntry) : (s.setShelf i e).pwr = s.pwr := rfl
@[simp] theorem State.setShelf_pmu (s : State) (i : Nat) (e : ShelfEntry) : (s.setShelf i e).pmu = s.pmu := rfl
@[simp] theorem State.setShelf_dbg (s : State) (i : Nat) (e : ShelfEntry) : (s.setShelf i e).dbg = s.dbg := rfl

@[simp] theorem State.setSlip_pending (s : State) (n : Nat) (x : Slip) : (s.setSlip n x).pending = s.pending := rfl
@[simp] theorem State.setSlip_now (s : State) (n : Nat) (x : Slip) : (s.setSlip n x).now = s.now := rfl
@[simp] theorem State.setSlip_freeCount (s : State) (n : Nat) (x : Slip) : (s.setSlip n x).freeCount = s.freeCount := rfl
@[simp] theorem State.setSlip_regs (s : State) (n : Nat) (x : Slip) : (s.setSlip n x).regs = s.regs := rfl
@[simp] theorem State.setSlip_wideLow (s : State) (n : Nat) (x : Slip) : (s.setSlip n x).wideLow = s.wideLow := rfl
@[simp] theorem State.setSlip_wideHigh (s : State) (n : Nat) (x : Slip) : (s.setSlip n x).wideHigh = s.wideHigh := rfl
@[simp] theorem State.setSlip_lastRead (s : State) (n : Nat) (x : Slip) : (s.setSlip n x).lastRead = s.lastRead := rfl
@[simp] theorem State.setSlip_out (s : State) (n : Nat) (x : Slip) : (s.setSlip n x).out = s.out := rfl
@[simp] theorem State.setSlip_fns (s : State) (n : Nat) (x : Slip) : (s.setSlip n x).fns = s.fns := rfl
@[simp] theorem State.setSlip_flight (s : State) (n : Nat) (x : Slip) : (s.setSlip n x).flight = s.flight := rfl
@[simp] theorem State.setSlip_rrPos (s : State) (n : Nat) (x : Slip) : (s.setSlip n x).rrPos = s.rrPos := rfl
@[simp] theorem State.setSlip_rrTaken (s : State) (n : Nat) (x : Slip) : (s.setSlip n x).rrTaken = s.rrTaken := rfl
@[simp] theorem State.setSlip_insts (s : State) (n : Nat) (x : Slip) : (s.setSlip n x).insts = s.insts := rfl
@[simp] theorem State.setSlip_shm (s : State) (n : Nat) (x : Slip) : (s.setSlip n x).shm = s.shm := rfl
@[simp] theorem State.setSlip_mem (s : State) (n : Nat) (x : Slip) : (s.setSlip n x).mem = s.mem := rfl
@[simp] theorem State.setSlip_esc (s : State) (n : Nat) (x : Slip) : (s.setSlip n x).esc = s.esc := rfl
@[simp] theorem State.setSlip_err (s : State) (n : Nat) (x : Slip) : (s.setSlip n x).err = s.err := rfl
@[simp] theorem State.setSlip_ledg (s : State) (n : Nat) (x : Slip) : (s.setSlip n x).ledg = s.ledg := rfl
@[simp] theorem State.setSlip_bnd (s : State) (n : Nat) (x : Slip) : (s.setSlip n x).bnd = s.bnd := rfl
@[simp] theorem State.setSlip_outs (s : State) (n : Nat) (x : Slip) : (s.setSlip n x).outs = s.outs := rfl
@[simp] theorem State.setSlip_coll (s : State) (n : Nat) (x : Slip) : (s.setSlip n x).coll = s.coll := rfl
@[simp] theorem State.setSlip_strg (s : State) (n : Nat) (x : Slip) : (s.setSlip n x).strg = s.strg := rfl
@[simp] theorem State.setSlip_hap (s : State) (n : Nat) (x : Slip) : (s.setSlip n x).hap = s.hap := rfl
@[simp] theorem State.setSlip_tch (s : State) (n : Nat) (x : Slip) : (s.setSlip n x).tch = s.tch := rfl
@[simp] theorem State.setSlip_aud (s : State) (n : Nat) (x : Slip) : (s.setSlip n x).aud = s.aud := rfl
@[simp] theorem State.setSlip_rnd (s : State) (n : Nat) (x : Slip) : (s.setSlip n x).rnd = s.rnd := rfl
@[simp] theorem State.setSlip_fab (s : State) (n : Nat) (x : Slip) : (s.setSlip n x).fab = s.fab := rfl
@[simp] theorem State.setSlip_fw (s : State) (n : Nat) (x : Slip) : (s.setSlip n x).fw = s.fw := rfl
@[simp] theorem State.setSlip_pwr (s : State) (n : Nat) (x : Slip) : (s.setSlip n x).pwr = s.pwr := rfl
@[simp] theorem State.setSlip_pmu (s : State) (n : Nat) (x : Slip) : (s.setSlip n x).pmu = s.pmu := rfl
@[simp] theorem State.setSlip_dbg (s : State) (n : Nat) (x : Slip) : (s.setSlip n x).dbg = s.dbg := rfl

@[simp] theorem State.setRec_pending (s : State) (k : Nat) (r : ErrRec) : (s.setRec k r).pending = s.pending := rfl
@[simp] theorem State.setRec_now (s : State) (k : Nat) (r : ErrRec) : (s.setRec k r).now = s.now := rfl
@[simp] theorem State.setRec_freeCount (s : State) (k : Nat) (r : ErrRec) : (s.setRec k r).freeCount = s.freeCount := rfl
@[simp] theorem State.setRec_regs (s : State) (k : Nat) (r : ErrRec) : (s.setRec k r).regs = s.regs := rfl
@[simp] theorem State.setRec_wideLow (s : State) (k : Nat) (r : ErrRec) : (s.setRec k r).wideLow = s.wideLow := rfl
@[simp] theorem State.setRec_wideHigh (s : State) (k : Nat) (r : ErrRec) : (s.setRec k r).wideHigh = s.wideHigh := rfl
@[simp] theorem State.setRec_lastRead (s : State) (k : Nat) (r : ErrRec) : (s.setRec k r).lastRead = s.lastRead := rfl
@[simp] theorem State.setRec_out (s : State) (k : Nat) (r : ErrRec) : (s.setRec k r).out = s.out := rfl
@[simp] theorem State.setRec_fns (s : State) (k : Nat) (r : ErrRec) : (s.setRec k r).fns = s.fns := rfl
@[simp] theorem State.setRec_flight (s : State) (k : Nat) (r : ErrRec) : (s.setRec k r).flight = s.flight := rfl
@[simp] theorem State.setRec_slips (s : State) (k : Nat) (r : ErrRec) : (s.setRec k r).slips = s.slips := rfl
@[simp] theorem State.setRec_rrPos (s : State) (k : Nat) (r : ErrRec) : (s.setRec k r).rrPos = s.rrPos := rfl
@[simp] theorem State.setRec_rrTaken (s : State) (k : Nat) (r : ErrRec) : (s.setRec k r).rrTaken = s.rrTaken := rfl
@[simp] theorem State.setRec_insts (s : State) (k : Nat) (r : ErrRec) : (s.setRec k r).insts = s.insts := rfl
@[simp] theorem State.setRec_shm (s : State) (k : Nat) (r : ErrRec) : (s.setRec k r).shm = s.shm := rfl
@[simp] theorem State.setRec_mem (s : State) (k : Nat) (r : ErrRec) : (s.setRec k r).mem = s.mem := rfl
@[simp] theorem State.setRec_esc (s : State) (k : Nat) (r : ErrRec) : (s.setRec k r).esc = s.esc := rfl
@[simp] theorem State.setRec_ledg (s : State) (k : Nat) (r : ErrRec) : (s.setRec k r).ledg = s.ledg := rfl
@[simp] theorem State.setRec_bnd (s : State) (k : Nat) (r : ErrRec) : (s.setRec k r).bnd = s.bnd := rfl
@[simp] theorem State.setRec_outs (s : State) (k : Nat) (r : ErrRec) : (s.setRec k r).outs = s.outs := rfl
@[simp] theorem State.setRec_coll (s : State) (k : Nat) (r : ErrRec) : (s.setRec k r).coll = s.coll := rfl
@[simp] theorem State.setRec_strg (s : State) (k : Nat) (r : ErrRec) : (s.setRec k r).strg = s.strg := rfl
@[simp] theorem State.setRec_hap (s : State) (k : Nat) (r : ErrRec) : (s.setRec k r).hap = s.hap := rfl
@[simp] theorem State.setRec_tch (s : State) (k : Nat) (r : ErrRec) : (s.setRec k r).tch = s.tch := rfl
@[simp] theorem State.setRec_aud (s : State) (k : Nat) (r : ErrRec) : (s.setRec k r).aud = s.aud := rfl
@[simp] theorem State.setRec_rnd (s : State) (k : Nat) (r : ErrRec) : (s.setRec k r).rnd = s.rnd := rfl
@[simp] theorem State.setRec_fab (s : State) (k : Nat) (r : ErrRec) : (s.setRec k r).fab = s.fab := rfl
@[simp] theorem State.setRec_fw (s : State) (k : Nat) (r : ErrRec) : (s.setRec k r).fw = s.fw := rfl
@[simp] theorem State.setRec_pwr (s : State) (k : Nat) (r : ErrRec) : (s.setRec k r).pwr = s.pwr := rfl
@[simp] theorem State.setRec_pmu (s : State) (k : Nat) (r : ErrRec) : (s.setRec k r).pmu = s.pmu := rfl
@[simp] theorem State.setRec_dbg (s : State) (k : Nat) (r : ErrRec) : (s.setRec k r).dbg = s.dbg := rfl

@[simp] theorem State.setFn_reg (s : State) (f : Nat) (x : FnState) (a : Nat) : (s.setFn f x).reg a = s.reg a := rfl
@[simp] theorem State.emit_reg (s : State) (o : HostOut) (a : Nat) : (s.emit o).reg a = s.reg a := rfl
@[simp] theorem State.setSlip_reg (s : State) (n : Nat) (x : Slip) (a : Nat) : (s.setSlip n x).reg a = s.reg a := rfl
@[simp] theorem State.setInst_reg (s : State) (n : Nat) (x : Inst) (a : Nat) : (s.setInst n x).reg a = s.reg a := rfl
@[simp] theorem State.setShelf_reg (s : State) (i : Nat) (e : ShelfEntry) (a : Nat) : (s.setShelf i e).reg a = s.reg a := rfl

end Sys2Proof.Machine
end

