-- ==== Sys2Proof/Laws/Bits.lean ====
section
/-! SUPPORT. A bit field read after a field of the same word was set. -/

namespace Sys2Proof.Machine

/-- A field of `w` bits at `lo` splits a word into what lies above it, its value and what lies below it. -/
theorem setBits_eq (v hi lo x : Nat) (h : lo ≤ hi) :
    setBits v hi lo x = v / 2 ^ (hi + 1) * 2 ^ (hi + 1) + (x % 2 ^ (hi + 1 - lo) * 2 ^ lo + v % 2 ^ lo) := by
  have e : 2 ^ (hi + 1) = 2 ^ lo * 2 ^ (hi + 1 - lo) := by rw [← Nat.pow_add]; congr 1; omega
  have h1 := Nat.div_add_mod v (2 ^ lo)
  have h2 := Nat.div_add_mod (v / 2 ^ lo) (2 ^ (hi + 1 - lo))
  have h3 : v / 2 ^ (hi + 1) = v / 2 ^ lo / 2 ^ (hi + 1 - lo) := by rw [e, Nat.div_div_eq_div_mul]
  simp only [setBits, bits]
  rw [h3, e]
  generalize v / 2 ^ lo / 2 ^ (hi + 1 - lo) = a at *
  generalize v / 2 ^ lo % 2 ^ (hi + 1 - lo) = b at *
  generalize x % 2 ^ (hi + 1 - lo) * 2 ^ lo = y
  generalize v % 2 ^ lo = l at *
  have h4 : v = a * (2 ^ lo * 2 ^ (hi + 1 - lo)) + b * 2 ^ lo + l := by
    rw [← h1, ← h2]; ring
  have h5 : v - b * 2 ^ lo = a * (2 ^ lo * 2 ^ (hi + 1 - lo)) + l := by omega
  rw [h5]; omega

theorem setBits_low {hi lo x : Nat} (v : Nat) (h : lo ≤ hi) : x % 2 ^ (hi + 1 - lo) * 2 ^ lo + v % 2 ^ lo < 2 ^ (hi + 1) := by
  have e : 2 ^ (hi + 1) = 2 ^ (hi + 1 - lo) * 2 ^ lo := by rw [← Nat.pow_add]; congr 1; omega
  have h1 : x % 2 ^ (hi + 1 - lo) < 2 ^ (hi + 1 - lo) := Nat.mod_lt _ (Nat.two_pow_pos _)
  have h2 : v % 2 ^ lo < 2 ^ lo := Nat.mod_lt _ (Nat.two_pow_pos _)
  have h3 : (x % 2 ^ (hi + 1 - lo) + 1) * 2 ^ lo ≤ 2 ^ (hi + 1 - lo) * 2 ^ lo := Nat.mul_le_mul_right _ h1
  rw [e]; rw [Nat.add_mul] at h3; omega

/-- The field itself. -/
theorem bits_setBits_same (v hi lo x : Nat) (h : lo ≤ hi) : bits (setBits v hi lo x) hi lo = x % 2 ^ (hi + 1 - lo) := by
  rw [setBits_eq v hi lo x h, bits]
  have e : 2 ^ (hi + 1) = 2 ^ (hi + 1 - lo) * 2 ^ lo := by rw [← Nat.pow_add]; congr 1; omega
  rw [show v / 2 ^ (hi + 1) * 2 ^ (hi + 1) + (x % 2 ^ (hi + 1 - lo) * 2 ^ lo + v % 2 ^ lo) =
    v % 2 ^ lo + 2 ^ lo * (v / 2 ^ (hi + 1) * 2 ^ (hi + 1 - lo) + x % 2 ^ (hi + 1 - lo)) by rw [e]; ring,
    Nat.add_mul_div_left _ _ (Nat.two_pow_pos _), Nat.div_eq_of_lt (Nat.mod_lt _ (Nat.two_pow_pos _)), Nat.zero_add]
  simp [Nat.mul_add_mod_of_lt, Nat.mod_lt, Nat.add_mod]

/-- A field above it. -/
theorem bits_setBits_above (v hi lo x hi' lo' : Nat) (h : lo ≤ hi) (ha : hi < lo') : bits (setBits v hi lo x) hi' lo' = bits v hi' lo' := by
  have key : setBits v hi lo x / 2 ^ lo' = v / 2 ^ lo' := by
    have e : 2 ^ lo' = 2 ^ (hi + 1) * 2 ^ (lo' - hi - 1) := by rw [← Nat.pow_add]; congr 1; omega
    rw [e, ← Nat.div_div_eq_div_mul, ← Nat.div_div_eq_div_mul, setBits_eq v hi lo x h]
    congr 1
    rw [Nat.mul_comm, Nat.mul_add_div (Nat.two_pow_pos _), Nat.div_eq_of_lt (setBits_low v h), Nat.add_zero]
  simp only [bits, key]

/-- A field below it. -/
theorem bits_setBits_below (v hi lo x hi' lo' : Nat) (h : lo ≤ hi) (hb : hi' < lo) : bits (setBits v hi lo x) hi' lo' = bits v hi' lo' := by
  have key : setBits v hi lo x % 2 ^ lo = v % 2 ^ lo := by
    have e : 2 ^ (hi + 1) = 2 ^ (hi + 1 - lo) * 2 ^ lo := by rw [← Nat.pow_add]; congr 1; omega
    rw [setBits_eq v hi lo x h, e, ← Nat.mul_assoc, ← Nat.add_assoc, ← Nat.add_mul, Nat.mul_comm _ (2 ^ lo), Nat.mul_add_mod, Nat.mod_mod]
  by_cases hl : lo' ≤ hi'
  · have low : ∀ z, bits z hi' lo' = bits (z % 2 ^ lo) hi' lo' := by
      intro z
      simp only [bits]
      have e1 : 2 ^ (hi' + 1) = 2 ^ lo' * 2 ^ (hi' + 1 - lo') := by rw [← Nat.pow_add]; congr 1; omega
      rw [← Nat.mod_mul_right_div_self, ← e1, ← Nat.mod_mul_right_div_self, ← e1,
        Nat.mod_mod_of_dvd _ (Nat.pow_dvd_pow 2 (show hi' + 1 ≤ lo by omega))]
    rw [low (setBits v hi lo x), key, ← low]
  · have : hi' + 1 - lo' = 0 := by omega
    simp [bits, this, Nat.mod_one]

/-- A word with a field set stays a word. -/
theorem setBits_lt {v hi lo x : Nat} (h : lo ≤ hi) (h1 : hi ≤ 31) (hv : v < 2 ^ 32) : setBits v hi lo x < 2 ^ 32 := by
  have e : (2 : Nat) ^ 32 = 2 ^ (31 - hi) * 2 ^ (hi + 1) := by rw [← Nat.pow_add]; congr 1; omega
  have hq : v / 2 ^ (hi + 1) < 2 ^ (31 - hi) := Nat.div_lt_of_lt_mul (by rw [Nat.mul_comm, ← e]; exact hv)
  have h3 : (v / 2 ^ (hi + 1) + 1) * 2 ^ (hi + 1) ≤ 2 ^ (31 - hi) * 2 ^ (hi + 1) := Nat.mul_le_mul_right _ hq
  have := setBits_low (x := x) v h
  rw [setBits_eq v hi lo x h, e]; rw [Nat.add_mul] at h3; omega

/-- A field of a register after it was set. -/
theorem State.getF_setF (s : State) {a v : Nat} {f : Fld} (h : f.lo ≤ f.hi) (h1 : f.hi ≤ 31) : (s.setF a f v).getF a f = v % 2 ^ (f.hi + 1 - f.lo) := by
  simp only [State.getF, State.setF, State.reg_setReg, Nat.mod_eq_of_lt (setBits_lt h h1 (s.reg_lt a)), bits_setBits_same _ _ _ _ h]

/-- Another field of the register. -/
theorem State.getF_setF_field (s : State) {a v : Nat} {f g : Fld} (h : f.lo ≤ f.hi) (h1 : f.hi ≤ 31) (hd : f.hi < g.lo ∨ g.hi < f.lo) :
    (s.setF a f v).getF a g = s.getF a g := by
  simp only [State.getF, State.setF, State.reg_setReg, Nat.mod_eq_of_lt (setBits_lt h h1 (s.reg_lt a))]
  rcases hd with hd | hd
  · exact bits_setBits_above _ _ _ _ _ _ h hd
  · exact bits_setBits_below _ _ _ _ _ _ h hd

/-- A field of another register. -/
theorem State.getF_setF_ne (s : State) {a b v : Nat} {f g : Fld} (h : b ≠ a) : (s.setF a f v).getF b g = s.getF b g := by
  simp only [State.getF, State.setF, State.reg_setReg_ne _ _ h]

end Sys2Proof.Machine
end

