-- ==== Sys2Proof/Laws/Flits.lean ====
section
/-! SUPPORT. A flit that arrives in good order has its effect as it came. -/

namespace Sys2Proof.Machine

theorem hopBeat_clean {c : List Byte} (h : folioDecode c = .clean) : hopBeat c = (c, false) := by simp [hopBeat, h]

/-- A flit whose beats decode clean passes a hop as it is. -/
theorem flitHop_clean {f : Flit} (h : ∀ c ∈ f.beats, folioDecode c = .clean) : flitHop f = f := by
  have h1 : f.beats.map hopBeat = f.beats.map (fun c => (c, false)) := List.map_congr_left (fun c hc => hopBeat_clean (h c hc))
  have h2 : ∀ (l : List (List Byte)) (k : Nat), ((l.map (fun c => (c, false))).zipIdx k).map (fun x => if x.1.2 then 2 ^ x.2 else 0) = l.map (fun _ => 0) := by
    intro l
    induction l with
    | nil => intro k; rfl
    | cons a l ih => intro k; simp only [List.map_cons, List.zipIdx_cons, ih]; rfl
  have h3 : ∀ (l : List (List Byte)) (a : Nat), (l.map (fun _ => 0)).foldl (· + ·) a = a := by
    intro l
    induction l with
    | nil => intro a; rfl
    | cons b l ih => intro a; simp only [List.map_cons, List.foldl_cons, Nat.add_zero, ih]
  unfold flitHop
  dsimp only
  rw [h1, h2, h3, List.map_map]
  have h4 : (Prod.fst ∘ fun (c : List Byte) => (c, false)) = id := rfl
  rw [h4, List.map_id, Nat.or_zero]

/-- A flit in good order for this device has its effect. -/
theorem State.FlitArrives.takeFlit {s : State} {link typ : Nat} {f : Flit} {g : Flit → State → State} (h : s.FlitArrives link f typ) :
    s.takeFlit link f typ g = g f s := by
  obtain ⟨_, h1, h2, h3, h4, h5, h6, h7, h8, h9, h10⟩ := h
  unfold State.takeFlit
  rw [if_neg (by omega), if_neg (by simp [h3, h4]; omega), if_neg (by simp [h7]), if_neg (by simp [h4, h8])]
  dsimp only
  rw [flitHop_clean h10, List.filter_eq_nil_iff.mpr (fun x hx => by
    rw [h10 x.1 (List.fst_mem_of_mem_zipIdx hx)]; decide)]
  exact if_pos h9

end Sys2Proof.Machine
end

