-- ==== Sys2Proof/Laws/Keeps.lean ====
section
/-! SUPPORT. What a step may do to the queue, the timebase, the safe state, the binding table and the canonical form of registers and object memory,
and the shapes the functions of the machine are made of. -/

namespace Sys2Proof.Machine

/-- What is watched over a step: the queue, and what holds of the timebase, of the safe state and of the binding table. -/
structure Watch where
  queue : List Instr
  time : Nat → Prop
  safe : Bool → Prop
  bind : Option Binding → Prop

/-- The state is good, and what is watched holds of it. -/
structure Holds (w : Watch) (s : State) : Prop where
  inv : s.Inv
  queue : s.pending = w.queue
  time : w.time s.now
  safe : w.safe s.err.safe
  bind : w.bind s.strg.bind

/-- What is watched outlives the loss of the main supplies. -/
structure Watch.Loses (w : Watch) : Prop where
  safe : w.safe false
  bind : w.bind none

/-- What is watched outlives a cold boot. -/
structure Watch.Cold (w : Watch) : Prop where
  time : w.time 0
  safe : w.safe false
  bind : w.bind none

theorem Watch.Cold.loses {w : Watch} (h : w.Cold) : w.Loses := ⟨h.safe, h.bind⟩

/-- What is watched holds of every next state of an outcome. -/
def NextHolds (w : Watch) (o : Host.Outcome State Fault Refusal) : Prop := ∀ t, o = .next t → Holds w t

/-- What is watched holds of the state of an answer, if there is one. -/
def SomeHolds (w : Watch) (o : Option State) : Prop := ∀ t, o = some t → Holds w t

variable {w : Watch}

theorem nextHolds_next {s : State} (h : Holds w s) : NextHolds w (.next s) := by
  intro t e
  injection e with e
  exact e ▸ h

theorem nextHolds_fault {r : Fault} : NextHolds w (.fault r) := by
  intro t e
  injection e

theorem nextHolds_refused {r : Refusal} : NextHolds w (.refused r) := by
  intro t e
  injection e

theorem someHolds_some {s : State} (h : Holds w s) : SomeHolds w (some s) := by
  intro t e
  injection e with e
  exact e ▸ h

theorem someHolds_none : SomeHolds w none := by
  intro t e
  injection e

theorem NextHolds.of {o : Host.Outcome State Fault Refusal} {t : State} (h : NextHolds w o) (e : o = .next t) : Holds w t := h t e

theorem SomeHolds.of {o : Option State} {t : State} (h : SomeHolds w o) (e : o = some t) : Holds w t := h t e

theorem id_keeps {s : State} (h : Holds w s) : Holds w (id s) := h

theorem someHolds_map {α : Type} {o : Option α} {f : α → State} (h : ∀ x, Holds w (f x)) : SomeHolds w (o.map f) := by
  cases o with
  | none => exact someHolds_none
  | some x => exact someHolds_some (h x)

theorem someHolds_bind {o : Option State} {f : State → Option State} (h : SomeHolds w o) (hf : ∀ t, Holds w t → SomeHolds w (f t)) :
    SomeHolds w (o.bind f) := by
  cases o with
  | none => exact someHolds_none
  | some t => exact hf t (h t rfl)

theorem holds_fst_of {β : Type} {p : State × β} {u : State} {v : β} (e : p = (u, v)) (h : Holds w p.1) : Holds w u := by
  rw [e] at h
  exact h

theorem holds_snd_of {β : Type} {p : β × State} {u : State} {v : β} (e : p = (v, u)) (h : Holds w p.2) : Holds w u := by
  rw [e] at h
  exact h

/-- A state that has everything watched from one of which it holds. -/
theorem Holds.of {s t : State} (h : Holds w s) (hr : t.regs = s.regs) (hm : t.mem.data = s.mem.data) (hq : t.pending = s.pending) (ht : t.now = s.now)
    (hs : t.err.safe = s.err.safe) (hb : t.strg.bind = s.strg.bind) : Holds w t := by
  obtain ⟨⟨h1, h2⟩, h3, h4, h5, h6⟩ := h
  refine ⟨⟨?_, ?_⟩, ?_, ?_, ?_, ?_⟩
  · unfold Registers.wf at *
    rw [hr]
    exact h1
  · unfold Memory.wf at *
    rw [hm]
    exact h2
  · rw [hq]
    exact h3
  · rw [ht]
    exact h4
  · rw [hs]
    exact h5
  · rw [hb]
    exact h6

/-- The same of a record. -/
theorem Holds.mk_of {s : State} {pending now freeCount regs wideLow wideHigh lastRead out fns flight slips rrPos rrTaken insts shm mem esc err ledg bnd outs coll strg hap tch aud rnd fab fw pwr pmu dbg} (h : Holds w s) (hr : regs = s.regs) (hm : mem.data = s.mem.data) (hq : pending = s.pending) (ht : now = s.now)
    (hs : err.safe = s.err.safe) (hb : strg.bind = s.strg.bind) :
    Holds w ⟨pending, now, freeCount, regs, wideLow, wideHigh, lastRead, out, fns, flight, slips, rrPos, rrTaken, insts, shm, mem, esc, err, ledg, bnd, outs, coll, strg, hap, tch, aud, rnd, fab, fw, pwr, pmu, dbg⟩ := h.of hr hm hq ht hs hb

/-- The same where the registers have changed and are in canonical form. -/
theorem Holds.mk_regs {s : State} {pending now freeCount regs wideLow wideHigh lastRead out fns flight slips rrPos rrTaken insts shm mem esc err ledg bnd outs coll strg hap tch aud rnd fab fw pwr pmu dbg} (h : Holds w s) (hr : tabWf resetValue regs = true) (hm : mem.data = s.mem.data) (hq : pending = s.pending)
    (ht : now = s.now) (hs : err.safe = s.err.safe) (hb : strg.bind = s.strg.bind) :
    Holds w ⟨pending, now, freeCount, regs, wideLow, wideHigh, lastRead, out, fns, flight, slips, rrPos, rrTaken, insts, shm, mem, esc, err, ledg, bnd, outs, coll, strg, hap, tch, aud, rnd, fab, fw, pwr, pmu, dbg⟩ := by
  have h' : Holds w { s with regs := regs } := ⟨⟨hr, h.inv.2⟩, h.queue, h.time, h.safe, h.bind⟩
  exact h'.of rfl hm hq ht hs hb

/-- The same where the object memory has changed and is in canonical form. -/
theorem Holds.mk_data {s : State} {pending now freeCount regs wideLow wideHigh lastRead out fns flight slips rrPos rrTaken insts shm mem esc err ledg bnd outs coll strg hap tch aud rnd fab fw pwr pmu dbg} (h : Holds w s) (hr : regs = s.regs) (hm : tabWf unwritten mem.data = true) (hq : pending = s.pending)
    (ht : now = s.now) (hs : err.safe = s.err.safe) (hb : strg.bind = s.strg.bind) :
    Holds w ⟨pending, now, freeCount, regs, wideLow, wideHigh, lastRead, out, fns, flight, slips, rrPos, rrTaken, insts, shm, mem, esc, err, ledg, bnd, outs, coll, strg, hap, tch, aud, rnd, fab, fw, pwr, pmu, dbg⟩ := by
  have h' : Holds w { s with mem := mem } := ⟨⟨h.inv.1, hm⟩, h.queue, h.time, h.safe, h.bind⟩
  exact h'.of hr rfl hq ht hs hb

/-- Steps that each keep what is watched keep it together. -/
theorem foldl_keeps {α : Type} {f : State → α → State} {l : List α} {s : State} (h : Holds w s) (hf : ∀ t x, Holds w t → Holds w (f t x)) :
    Holds w (l.foldl f s) := by
  induction l generalizing s with
  | nil => exact h
  | cons a r ih => exact ih (hf s a h)

/-- The same where the state goes along with something else. -/
theorem foldl_keeps_fst {α β : Type} {f : State × β → α → State × β} {l : List α} {p : State × β} (h : Holds w p.1)
    (hf : ∀ q x, Holds w q.1 → Holds w (f q x).1) : Holds w (l.foldl f p).1 := by
  induction l generalizing p with
  | nil => exact h
  | cons a r ih => exact ih (hf p a h)

theorem foldl_keeps_snd {α β : Type} {f : β × State → α → β × State} {l : List α} {p : β × State} (h : Holds w p.2)
    (hf : ∀ q x, Holds w q.2 → Holds w (f q x).2) : Holds w (l.foldl f p).2 := by
  induction l generalizing p with
  | nil => exact h
  | cons a r ih => exact ih (hf p a h)

end Sys2Proof.Machine
end

