-- ==== Sys2Proof/Laws/KeepsOps.lean ====
section
/-! SUPPORT. What Machine/Ops.lean does keeps what is watched. -/

namespace Sys2Proof.Machine

theorem State.setReg_keeps {w : Watch} {s : State} {a1 a2} (h : Holds w s) : Holds w (State.setReg s a1 a2) := by
  exact ⟨⟨tabWf_set _ _ h.inv.1, h.inv.2⟩, h.queue, h.time, h.safe, h.bind⟩

theorem State.setF_keeps {w : Watch} {s : State} {a1 a2 a3} (h : Holds w s) : Holds w (State.setF s a1 a2 a3) := by
  unfold State.setF
  try dsimp only
  repeat' first
    | with_reducible assumption
    | with_reducible apply State.setReg_keeps

theorem State.setReg64_keeps {w : Watch} {s : State} {a1 a2} (h : Holds w s) : Holds w (State.setReg64 s a1 a2) := by
  unfold State.setReg64
  try dsimp only
  repeat' first
    | with_reducible assumption
    | with_reducible apply State.setReg_keeps

theorem State.count_keeps {w : Watch} {s : State} {a1 a2} (h : Holds w s) : Holds w (State.count s a1 a2) := by
  unfold State.count
  try dsimp only
  repeat' first
    | with_reducible assumption
    | with_reducible apply State.setReg_keeps

theorem State.countF_keeps {w : Watch} {s : State} {a1 a2 a3} (h : Holds w s) : Holds w (State.countF s a1 a2 a3) := by
  unfold State.countF
  try dsimp only
  repeat' first
    | with_reducible assumption
    | with_reducible apply State.setF_keeps

theorem State.setBit_keeps {w : Watch} {s : State} {a1 a2 a3} (h : Holds w s) : Holds w (State.setBit s a1 a2 a3) := by
  unfold State.setBit
  try dsimp only
  repeat' first
    | with_reducible assumption
    | with_reducible apply State.setReg_keeps

theorem State.fresh_keeps {w : Watch} {s : State} (h : Holds w s) : Holds w (State.fresh s).2 := by
  unfold State.fresh
  try dsimp only
  repeat' first
    | with_reducible assumption
    | fail_if_no_progress with_reducible refine Holds.mk_of ?_ rfl rfl rfl rfl rfl rfl

theorem State.fresh_keeps' {u v} {w : Watch} {s : State} (e : State.fresh s = (v, u)) (h : Holds w s) : Holds w u := by
  have h2 := @State.fresh_keeps w s h
  rw [e] at h2
  exact h2

theorem State.setFn_keeps {w : Watch} {s : State} {a1 a2} (h : Holds w s) : Holds w (State.setFn s a1 a2) := by
  unfold State.setFn
  try dsimp only
  repeat' first
    | with_reducible assumption
    | fail_if_no_progress with_reducible refine Holds.mk_of ?_ rfl rfl rfl rfl rfl rfl

theorem State.setInst_keeps {w : Watch} {s : State} {a1 a2} (h : Holds w s) : Holds w (State.setInst s a1 a2) := by
  unfold State.setInst
  try dsimp only
  repeat' first
    | with_reducible assumption
    | fail_if_no_progress with_reducible refine Holds.mk_of ?_ rfl rfl rfl rfl rfl rfl

theorem State.emit_keeps {w : Watch} {s : State} {a1} (h : Holds w s) : Holds w (State.emit s a1) := by
  unfold State.emit
  try dsimp only
  repeat' first
    | with_reducible assumption
    | fail_if_no_progress with_reducible refine Holds.mk_of ?_ rfl rfl rfl rfl rfl rfl

theorem State.signalReplies_keeps {w : Watch} {s : State} {a1} (h : Holds w s) : Holds w (State.signalReplies s a1) := by
  unfold State.signalReplies
  try dsimp only
  repeat' first
    | with_reducible assumption
    | with_reducible apply State.emit_keeps
    | with_reducible apply State.setFn_keeps

theorem State.writeEntry_keeps {w : Watch} {s : State} {a1 a2} (h : Holds w s) : Holds w (State.writeEntry s a1 a2) := by
  unfold State.writeEntry
  try dsimp only
  repeat' first
    | with_reducible assumption
    | with_reducible apply State.emit_keeps
    | with_reducible apply State.setFn_keeps
    | with_reducible apply State.setReg_keeps
    | with_reducible apply State.signalReplies_keeps
    | fail_if_no_progress with_reducible refine Holds.mk_of ?_ rfl rfl rfl rfl rfl rfl
    | split

theorem State.pushReply_keeps {w : Watch} {s : State} {a1 a2} (h : Holds w s) : Holds w (State.pushReply s a1 a2) := by
  unfold State.pushReply
  try dsimp only
  repeat' first
    | with_reducible assumption
    | with_reducible apply State.setFn_keeps
    | with_reducible apply State.writeEntry_keeps
    | fail_if_no_progress with_reducible refine Holds.mk_of ?_ rfl rfl rfl rfl rfl rfl
    | split

theorem State.dropNotice_keeps {w : Watch} {s : State} {a1} (h : Holds w s) : Holds w (State.dropNotice s a1) := by
  unfold State.dropNotice
  try dsimp only
  repeat' first
    | with_reducible assumption
    | with_reducible apply State.count_keeps
    | with_reducible apply State.setFn_keeps

theorem State.mkNotice_keeps {w : Watch} {s : State} {a1 a2 a3 a4 a5} (h : Holds w s) : Holds w (State.mkNotice s a1 a2 a3 a4 a5).2 := by
  unfold State.mkNotice
  try dsimp only
  repeat' first
    | with_reducible assumption
    | with_reducible apply State.setFn_keeps

theorem State.mkNotice_keeps' {u v} {w : Watch} {s : State} {a1 a2 a3 a4 a5} (e : State.mkNotice s a1 a2 a3 a4 a5 = (v, u)) (h : Holds w s) : Holds w u := by
  have h2 := @State.mkNotice_keeps w s a1 a2 a3 a4 a5 h
  rw [e] at h2
  exact h2

theorem State.writeNotice_keeps {w : Watch} {s : State} {a1 a2} (h : Holds w s) : Holds w (State.writeNotice s a1 a2) := by
  unfold State.writeNotice
  try dsimp only
  repeat' first
    | with_reducible assumption
    | with_reducible apply State.dropNotice_keeps
    | with_reducible apply State.writeEntry_keeps
    | fail_if_no_progress with_reducible refine Holds.mk_of ?_ rfl rfl rfl rfl rfl rfl
    | split

theorem State.writeLost_keeps {w : Watch} {s : State} {a1} (h : Holds w s) : Holds w (State.writeLost s a1) := by
  unfold State.writeLost
  try dsimp only
  repeat' first
    | with_reducible assumption
    | with_reducible apply State.mkNotice_keeps
    | with_reducible refine State.mkNotice_keeps' (by assumption) ?_
    | with_reducible apply State.setFn_keeps
    | with_reducible apply State.writeEntry_keeps
    | fail_if_no_progress with_reducible refine Holds.mk_of ?_ rfl rfl rfl rfl rfl rfl
    | split

theorem State.post_keeps {w : Watch} {s : State} {a1 a2 a3 a4 a5} (h : Holds w s) : Holds w (State.post s a1 a2 a3 a4 a5) := by
  unfold State.post
  try dsimp only
  repeat' first
    | with_reducible assumption
    | with_reducible apply State.dropNotice_keeps
    | with_reducible apply State.mkNotice_keeps
    | with_reducible refine State.mkNotice_keeps' (by assumption) ?_
    | with_reducible apply State.setFn_keeps
    | with_reducible apply State.writeLost_keeps
    | with_reducible apply State.writeNotice_keeps
    | fail_if_no_progress with_reducible refine Holds.mk_of ?_ rfl rfl rfl rfl rfl rfl
    | split

theorem State.toFabricManager_keeps {w : Watch} {s : State} {a1 a2 a3} (h : Holds w s) : Holds w (State.toFabricManager s a1 a2 a3) := by
  unfold State.toFabricManager
  try dsimp only
  repeat' first
    | with_reducible assumption
    | with_reducible apply State.emit_keeps
    | fail_if_no_progress with_reducible refine Holds.mk_of ?_ rfl rfl rfl rfl rfl rfl
    | split

theorem State.postMgr_keeps {w : Watch} {s : State} {a1 a2 a3 a4} (h : Holds w s) : Holds w (State.postMgr s a1 a2 a3 a4) := by
  unfold State.postMgr
  try dsimp only
  repeat' first
    | with_reducible assumption
    | with_reducible apply State.post_keeps
    | with_reducible apply State.toFabricManager_keeps
    | fail_if_no_progress with_reducible refine Holds.mk_of ?_ rfl rfl rfl rfl rfl rfl
    | split

theorem State.flushReplies_keeps {w : Watch} {s : State} {a1 a2} (h : Holds w s) : Holds w (State.flushReplies a1 s a2) := by
  induction a1 generalizing s with
  | zero => exact h
  | succ n ih =>
    unfold State.flushReplies
    repeat' first
      | with_reducible assumption
      | with_reducible apply ih
      | with_reducible apply State.writeEntry_keeps
      | with_reducible apply State.setFn_keeps
      | split

theorem State.flushNotices_keeps {w : Watch} {s : State} {a1 a2} (h : Holds w s) : Holds w (State.flushNotices a1 s a2) := by
  induction a1 generalizing s with
  | zero => exact h
  | succ n ih =>
    unfold State.flushNotices
    repeat' first
      | with_reducible assumption
      | with_reducible apply ih
      | with_reducible apply State.writeNotice_keeps
      | with_reducible apply State.setFn_keeps
      | split

theorem State.flushHeld_keeps {w : Watch} {s : State} {a1} (h : Holds w s) : Holds w (State.flushHeld s a1) := by
  unfold State.flushHeld
  try dsimp only
  repeat' first
    | with_reducible assumption
    | with_reducible apply State.flushNotices_keeps
    | with_reducible apply State.flushReplies_keeps
    | fail_if_no_progress with_reducible refine Holds.mk_of ?_ rfl rfl rfl rfl rfl rfl
    | split

theorem State.badWrite_keeps {w : Watch} {s : State} {a1 a2} (h : Holds w s) : Holds w (State.badWrite s a1 a2) := by
  unfold State.badWrite
  try dsimp only
  repeat' first
    | with_reducible assumption
    | with_reducible apply State.count_keeps
    | with_reducible apply State.postMgr_keeps

theorem State.windowReply_keeps {w : Watch} {s : State} {a1} (h : Holds w s) : Holds w (State.windowReply s a1) := by
  unfold State.windowReply
  try dsimp only
  repeat' first
    | with_reducible assumption
    | with_reducible apply State.setF_keeps
    | with_reducible apply State.setReg_keeps
    | fail_if_no_progress with_reducible refine Holds.mk_of ?_ rfl rfl rfl rfl rfl rfl
    | with_reducible refine foldl_keeps ?_ ?_
    | split
    | (intro)

theorem State.complete_keeps {w : Watch} {s : State} {a1 a2 a3 a4 a5} (h : Holds w s) : Holds w (State.complete s a1 a2 a3 a4 a5) := by
  unfold State.complete
  try dsimp only
  repeat' first
    | with_reducible assumption
    | with_reducible apply State.orphan_keeps
    | with_reducible apply State.pushReply_keeps
    | with_reducible apply State.toFabricManager_keeps
    | with_reducible apply State.windowReply_keeps
    | fail_if_no_progress with_reducible refine Holds.mk_of ?_ rfl rfl rfl rfl rfl rfl
    | split

theorem State.letIn_keeps {w : Watch} {s : State} {a1 a2 a3 a4 a5} (h : Holds w s) : Holds w (State.letIn s a1 a2 a3 a4 a5) := by
  unfold State.letIn
  try dsimp only
  repeat' first
    | with_reducible assumption
    | fail_if_no_progress with_reducible refine Holds.mk_of ?_ rfl rfl rfl rfl rfl rfl
    | split

theorem State.fetched_keeps {w : Watch} {s : State} {a1 a2 a3} (h : Holds w s) : Holds w (State.fetched s a1 a2 a3) := by
  unfold State.fetched
  try dsimp only
  repeat' first
    | with_reducible assumption
    | fail_if_no_progress with_reducible refine Holds.mk_of ?_ rfl rfl rfl rfl rfl rfl

theorem State.commit_keeps {w : Watch} {s : State} {a1} (h : Holds w s) : Holds w (State.commit s a1) := by
  unfold State.commit
  try dsimp only
  repeat' first
    | with_reducible assumption
    | fail_if_no_progress with_reducible refine Holds.mk_of ?_ rfl rfl rfl rfl rfl rfl

theorem State.noteWrites_keeps {w : Watch} {s : State} {a1 a2} (h : Holds w s) : Holds w (State.noteWrites s a1 a2) := by
  unfold State.noteWrites
  try dsimp only
  repeat' first
    | with_reducible assumption
    | fail_if_no_progress with_reducible refine Holds.mk_of ?_ rfl rfl rfl rfl rfl rfl

theorem State.completeAll_keeps {w : Watch} {s : State} {a1 a2 a3} (h : Holds w s) : Holds w (State.completeAll s a1 a2 a3) := by
  unfold State.completeAll
  try dsimp only
  repeat' first
    | with_reducible assumption
    | with_reducible apply State.complete_keeps
    | fail_if_no_progress with_reducible refine Holds.mk_of ?_ rfl rfl rfl rfl rfl rfl
    | with_reducible refine foldl_keeps ?_ ?_
    | split
    | (intro)

theorem State.setShelf_keeps {w : Watch} {s : State} {a1 a2} (h : Holds w s) : Holds w (State.setShelf s a1 a2) := by
  unfold State.setShelf
  try dsimp only
  repeat' first
    | with_reducible assumption
    | fail_if_no_progress with_reducible refine Holds.mk_of ?_ rfl rfl rfl rfl rfl rfl

theorem State.setObj_keeps {w : Watch} {s : State} {a1 a2} (h : Holds w s) : Holds w (State.setObj s a1 a2) := by
  unfold State.setObj
  try dsimp only
  repeat' first
    | with_reducible assumption
    | with_reducible apply State.setShelf_keeps

theorem State.spoil_keeps {w : Watch} {s : State} {a1} (h : Holds w s) : Holds w (State.spoil s a1) := by
  unfold State.spoil
  try dsimp only
  repeat' first
    | with_reducible assumption
    | fail_if_no_progress with_reducible refine Holds.mk_of ?_ rfl rfl rfl rfl rfl rfl

theorem State.putBytes_keeps {w : Watch} {s : State} {a1 a2 a3} (h : Holds w s) : Holds w (State.putBytes s a1 a2 a3) := by
  exact ⟨⟨h.inv.1, tabWf_put _ _ h.inv.2⟩, h.queue, h.time, h.safe, h.bind⟩

theorem State.touch_keeps {w : Watch} {s : State} {a1 a2 a3} (h : Holds w s) : Holds w (State.touch s a1 a2 a3) := by
  unfold State.touch
  try dsimp only
  repeat' first
    | with_reducible assumption
    | with_reducible apply State.setObj_keeps
    | fail_if_no_progress with_reducible refine Holds.mk_of ?_ rfl rfl rfl rfl rfl rfl

theorem State.forwardWrite_keeps {w : Watch} {s : State} {a1 a2 a3} (h : Holds w s) : Holds w (State.forwardWrite s a1 a2 a3) := by
  unfold State.forwardWrite
  try dsimp only
  repeat' first
    | with_reducible assumption
    | with_reducible apply State.emit_keeps
    | fail_if_no_progress with_reducible refine Holds.mk_of ?_ rfl rfl rfl rfl rfl rfl
    | with_reducible refine foldl_keeps ?_ ?_
    | split
    | (intro)

theorem State.writeObj_keeps {w : Watch} {s : State} {a1 a2 a3} (h : Holds w s) : Holds w (State.writeObj s a1 a2 a3) := by
  unfold State.writeObj
  try dsimp only
  repeat' first
    | with_reducible assumption
    | with_reducible apply State.forwardWrite_keeps
    | with_reducible apply State.putBytes_keeps
    | with_reducible apply State.touch_keeps
    | fail_if_no_progress with_reducible refine Holds.mk_of ?_ rfl rfl rfl rfl rfl rfl

theorem State.ledgAppend_keeps {w : Watch} {s : State} {a1 a2 a3 a4} (h : Holds w s) : Holds w (State.ledgAppend s a1 a2 a3 a4) := by
  unfold State.ledgAppend
  try dsimp only
  repeat' first
    | with_reducible assumption
    | with_reducible apply State.setReg_keeps
    | fail_if_no_progress with_reducible refine Holds.mk_of ?_ rfl rfl rfl rfl rfl rfl

theorem State.powerEvent_keeps {w : Watch} {s : State} {a1 a2 a3} (h : Holds w s) : Holds w (State.powerEvent s a1 a2 a3) := by
  unfold State.powerEvent
  try dsimp only
  repeat' first
    | with_reducible assumption
    | with_reducible apply State.ledgAppend_keeps
    | fail_if_no_progress with_reducible refine Holds.mk_of ?_ rfl rfl rfl rfl rfl rfl
    | split

theorem State.tellError_keeps {w : Watch} {s : State} {a1 a2} (h : Holds w s) : Holds w (State.tellError s a1 a2) := by
  unfold State.tellError
  try dsimp only
  repeat' first
    | with_reducible assumption
    | with_reducible apply State.emit_keeps
    | with_reducible apply State.postMgr_keeps
    | fail_if_no_progress with_reducible refine Holds.mk_of ?_ rfl rfl rfl rfl rfl rfl
    | split

theorem State.noteT2_keeps {w : Watch} {s : State} {a1 a2 a3} (h : Holds w s) : Holds w (State.noteT2 s a1 a2 a3) := by
  unfold State.noteT2
  try dsimp only
  repeat' first
    | with_reducible assumption
    | fail_if_no_progress with_reducible refine Holds.mk_of ?_ rfl rfl rfl rfl rfl rfl
    | split

theorem State.noteT3_keeps {w : Watch} {s : State} {a1 a2} (h : Holds w s) : Holds w (State.noteT3 s a1 a2) := by
  unfold State.noteT3
  try dsimp only
  repeat' first
    | with_reducible assumption
    | fail_if_no_progress with_reducible refine Holds.mk_of ?_ rfl rfl rfl rfl rfl rfl
    | split

theorem State.setRec_keeps {w : Watch} {s : State} {a1 a2} (h : Holds w s) : Holds w (State.setRec s a1 a2) := by
  unfold State.setRec
  try dsimp only
  repeat' first
    | with_reducible assumption
    | fail_if_no_progress with_reducible refine Holds.mk_of ?_ rfl rfl rfl rfl rfl rfl

theorem State.ledgRecord_keeps {w : Watch} {s : State} {a1} (h : Holds w s) : Holds w (State.ledgRecord s a1) := by
  unfold State.ledgRecord
  try dsimp only
  repeat' first
    | with_reducible assumption
    | with_reducible apply State.ledgAppend_keeps
    | fail_if_no_progress with_reducible refine Holds.mk_of ?_ rfl rfl rfl rfl rfl rfl
    | split

theorem State.foldRecord_keeps {w : Watch} {s : State} {a1 a2 a3 a4} (h : Holds w s) : Holds w (State.foldRecord s a1 a2 a3 a4) := by
  unfold State.foldRecord
  try dsimp only
  repeat' first
    | with_reducible assumption
    | with_reducible apply State.ledgAppend_keeps
    | with_reducible apply State.setRec_keeps
    | with_reducible apply State.tellError_keeps
    | fail_if_no_progress with_reducible refine Holds.mk_of ?_ rfl rfl rfl rfl rfl rfl
    | split

theorem State.newRecord_keeps {w : Watch} {s : State} {a1} (h : Holds w s) : Holds w (State.newRecord s a1) := by
  unfold State.newRecord
  try dsimp only
  repeat' first
    | with_reducible assumption
    | with_reducible apply State.count_keeps
    | with_reducible apply State.setRec_keeps
    | with_reducible apply State.tellError_keeps
    | fail_if_no_progress with_reducible refine Holds.mk_of ?_ rfl rfl rfl rfl rfl rfl
    | split

theorem State.nextErrSeq_keeps {w : Watch} {s : State} (h : Holds w s) : Holds w (State.nextErrSeq s) := by
  unfold State.nextErrSeq
  try dsimp only
  repeat' first
    | with_reducible assumption
    | fail_if_no_progress with_reducible refine Holds.mk_of ?_ rfl rfl rfl rfl rfl rfl

theorem State.record_keeps {w : Watch} {s : State} {a1 a2 a3 a4 a5 a6 a7 a8} (h : Holds w s) : Holds w (State.record s a1 a2 a3 a4 a5 a6 a7 a8).state := by
  unfold State.record
  try dsimp only
  repeat' first
    | with_reducible assumption
    | with_reducible apply State.count_keeps
    | with_reducible apply State.foldRecord_keeps
    | with_reducible apply State.ledgRecord_keeps
    | with_reducible apply State.newRecord_keeps
    | with_reducible apply State.nextErrSeq_keeps
    | with_reducible apply State.noteT2_keeps
    | with_reducible apply State.noteT3_keeps
    | fail_if_no_progress with_reducible refine Holds.mk_of ?_ rfl rfl rfl rfl rfl rfl
    | split

theorem State.setSlip_keeps {w : Watch} {s : State} {a1 a2} (h : Holds w s) : Holds w (State.setSlip s a1 a2) := by
  unfold State.setSlip
  try dsimp only
  repeat' first
    | with_reducible assumption
    | fail_if_no_progress with_reducible refine Holds.mk_of ?_ rfl rfl rfl rfl rfl rfl

theorem State.endWaiters_keeps {w : Watch} {s : State} {a1 a2 a3 a4} (h : Holds w s) : Holds w (State.endWaiters s a1 a2 a3 a4) := by
  unfold State.endWaiters
  try dsimp only
  repeat' first
    | with_reducible assumption
    | with_reducible apply State.complete_keeps
    | with_reducible apply State.setSlip_keeps
    | fail_if_no_progress with_reducible refine Holds.mk_of ?_ rfl rfl rfl rfl rfl rfl
    | with_reducible refine foldl_keeps ?_ ?_
    | split
    | (intro)

theorem State.handSlip_keeps {w : Watch} {s : State} {a1} (h : Holds w s) : Holds w (State.handSlip s a1) := by
  unfold State.handSlip
  try dsimp only
  repeat' first
    | with_reducible assumption
    | with_reducible apply State.complete_keeps
    | with_reducible apply State.setSlip_keeps
    | fail_if_no_progress with_reducible refine Holds.mk_of ?_ rfl rfl rfl rfl rfl rfl
    | split

theorem State.breakSlip_keeps {w : Watch} {s : State} {a1 a2} (h : Holds w s) : Holds w (State.breakSlip s a1 a2) := by
  unfold State.breakSlip
  try dsimp only
  repeat' first
    | with_reducible assumption
    | with_reducible apply State.handSlip_keeps
    | with_reducible apply State.postMgr_keeps
    | with_reducible apply State.setSlip_keeps
    | fail_if_no_progress with_reducible refine Holds.mk_of ?_ rfl rfl rfl rfl rfl rfl
    | split

theorem State.breakSlips_keeps {w : Watch} {s : State} {a1 a2 a3} (h : Holds w s) : Holds w (State.breakSlips s a1 a2 a3) := by
  unfold State.breakSlips
  try dsimp only
  repeat' first
    | with_reducible assumption
    | with_reducible apply State.breakSlip_keeps
    | with_reducible apply State.endWaiters_keeps
    | fail_if_no_progress with_reducible refine Holds.mk_of ?_ rfl rfl rfl rfl rfl rfl
    | with_reducible refine foldl_keeps ?_ ?_
    | split
    | (intro)

end Sys2Proof.Machine
end

