-- ==== Sys2Proof/Laws/KeepsFolio.lean ====
section
/-! SUPPORT. What Machine/Folio.lean does keeps what is watched. -/

namespace Sys2Proof.Machine

theorem State.setBeatError_keeps {w : Watch} {s : State} {a1 a2 a3} (h : Holds w s) : Holds w (State.setBeatError s a1 a2 a3) := by
  unfold State.setBeatError
  try dsimp only
  repeat' first
    | with_reducible assumption
    | fail_if_no_progress with_reducible refine Holds.mk_of ?_ rfl rfl rfl rfl rfl rfl

theorem State.settleBeat_keeps {w : Watch} {s : State} {a1 a2} (h : Holds w s) : Holds w (State.settleBeat s a1 a2) := by
  unfold State.settleBeat
  try dsimp only
  repeat' first
    | with_reducible assumption
    | with_reducible apply State.putBytes_keeps
    | with_reducible apply State.setBeatError_keeps
    | fail_if_no_progress with_reducible refine Holds.mk_of ?_ rfl rfl rfl rfl rfl rfl
    | split

theorem State.takeInjection_keeps {w : Watch} {s : State} {a1 a2 a3} (h : Holds w s) : Holds w (State.takeInjection s a1 a2 a3) := by
  unfold State.takeInjection
  try dsimp only
  repeat' first
    | with_reducible assumption
    | with_reducible apply State.putBytes_keeps
    | with_reducible apply State.setBeatError_keeps
    | with_reducible apply State.setF_keeps
    | fail_if_no_progress with_reducible refine Holds.mk_of ?_ rfl rfl rfl rfl rfl rfl
    | split

theorem State.countCorrected_keeps {w : Watch} {s : State} {a1 a2} (h : Holds w s) : Holds w (State.countCorrected s a1 a2) := by
  unfold State.countCorrected
  try dsimp only
  repeat' first
    | with_reducible assumption
    | with_reducible apply State.count_keeps
    | with_reducible apply State.countF_keeps
    | with_reducible apply State.postMgr_keeps
    | with_reducible apply State.record_keeps
    | fail_if_no_progress with_reducible refine Holds.mk_of ?_ rfl rfl rfl rfl rfl rfl
    | split

theorem State.noteRead_keeps {w : Watch} {s : State} {a1 a2 a3} (h : Holds w s) : Holds w (State.noteRead s a1 a2 a3) := by
  unfold State.noteRead
  try dsimp only
  repeat' first
    | with_reducible assumption
    | with_reducible apply State.countCorrected_keeps
    | fail_if_no_progress with_reducible refine Holds.mk_of ?_ rfl rfl rfl rfl rfl rfl
    | with_reducible refine foldl_keeps ?_ ?_
    | split
    | (intro)

theorem State.store_keeps {w : Watch} {s : State} {a1 a2 a3} (h : Holds w s) : Holds w (State.store s a1 a2 a3) := by
  unfold State.store
  try dsimp only
  repeat' first
    | with_reducible assumption
    | with_reducible apply State.noteRead_keeps
    | with_reducible apply State.settleBeat_keeps
    | with_reducible apply State.takeInjection_keeps
    | with_reducible apply State.writeObj_keeps
    | fail_if_no_progress with_reducible refine Holds.mk_of ?_ rfl rfl rfl rfl rfl rfl
    | with_reducible refine foldl_keeps ?_ ?_
    | split
    | (intro)

theorem State.countUncorrectable_keeps {w : Watch} {s : State} {a1 a2} (h : Holds w s) : Holds w (State.countUncorrectable s a1 a2) := by
  unfold State.countUncorrectable
  try dsimp only
  repeat' first
    | with_reducible assumption
    | with_reducible apply State.count_keeps
    | with_reducible apply State.countF_keeps
    | fail_if_no_progress with_reducible refine Holds.mk_of ?_ rfl rfl rfl rfl rfl rfl
    | split

theorem State.postUe_keeps {w : Watch} {s : State} {a1 a2} (h : Holds w s) : Holds w (State.postUe s a1 a2) := by
  unfold State.postUe
  try dsimp only
  repeat' first
    | with_reducible assumption
    | with_reducible apply State.countUncorrectable_keeps
    | with_reducible apply State.post_keeps
    | with_reducible apply State.postMgr_keeps
    | fail_if_no_progress with_reducible refine Holds.mk_of ?_ rfl rfl rfl rfl rfl rfl
    | split

end Sys2Proof.Machine
end

