-- ==== Sys2Proof/Laws/KeepsOperands.lean ====
section
/-! SUPPORT. What Machine/Operands.lean does keeps what is watched. -/

namespace Sys2Proof.Machine

theorem State.readBlock_keeps {w : Watch} {s : State} {a1 a2} (h : Holds w s) : Holds w (State.readBlock s a1 a2) := by
  unfold State.readBlock
  try dsimp only
  repeat' first
    | with_reducible assumption
    | with_reducible apply State.noteRead_keeps
    | with_reducible apply State.postUe_keeps
    | fail_if_no_progress with_reducible refine Holds.mk_of ?_ rfl rfl rfl rfl rfl rfl
    | split

theorem State.tellReads_keeps {w : Watch} {s : State} {a1} (h : Holds w s) : Holds w (State.tellReads s a1) := by
  unfold State.tellReads
  try dsimp only
  repeat' first
    | with_reducible assumption
    | with_reducible apply State.postUe_keeps
    | fail_if_no_progress with_reducible refine Holds.mk_of ?_ rfl rfl rfl rfl rfl rfl
    | split

theorem runPkt_keeps {w : Watch} {s : State} {a1 a2 a3 f} (h : Holds w s) (hf : ∀ p t, Holds w t → Holds w (f p t)) : Holds w (runPkt a1 a2 s a3 f) := by
  unfold runPkt
  try dsimp only
  repeat' first
    | with_reducible assumption
    | with_reducible apply hf
    | with_reducible apply State.complete_keeps
    | with_reducible apply State.letIn_keeps
    | with_reducible apply State.readBlock_keeps
    | with_reducible apply State.tellReads_keeps
    | fail_if_no_progress with_reducible refine Holds.mk_of ?_ rfl rfl rfl rfl rfl rfl
    | split

end Sys2Proof.Machine
end

