-- ==== Sys2Proof/Laws/KeepsGrants.lean ====
section
/-! SUPPORT. What Machine/Grants.lean does keeps what is watched. -/

namespace Sys2Proof.Machine

theorem State.postOwner_keeps {w : Watch} {s : State} {a1 a2 a3 a4 a5} (h : Holds w s) : Holds w (State.postOwner s a1 a2 a3 a4 a5) := by
  unfold State.postOwner
  try dsimp only
  repeat' first
    | with_reducible assumption
    | with_reducible apply State.post_keeps

theorem State.capChangedFn_keeps {w : Watch} {s : State} {a1} (h : Holds w s) : Holds w (State.capChangedFn s a1) := by
  unfold State.capChangedFn
  try dsimp only
  repeat' first
    | with_reducible assumption
    | with_reducible apply State.post_keeps
    | with_reducible apply State.setFn_keeps

theorem State.capChanged_keeps {w : Watch} {s : State} {a1} (h : Holds w s) : Holds w (State.capChanged s a1) := by
  unfold State.capChanged
  try dsimp only
  repeat' first
    | with_reducible assumption
    | with_reducible apply State.capChangedFn_keeps

end Sys2Proof.Machine
end

