-- ==== Sys2Proof/Laws/KeepsCounters.lean ====
section
/-! SUPPORT. What Machine/Counters.lean does keeps what is watched. -/

namespace Sys2Proof.Machine

theorem State.setCnt_keeps {w : Watch} {s : State} {a1 a2} (h : Holds w s) : Holds w (State.setCnt s a1 a2) := by
  unfold State.setCnt
  try dsimp only
  repeat' first
    | with_reducible assumption
    | fail_if_no_progress with_reducible refine Holds.mk_of ?_ rfl rfl rfl rfl rfl rfl

theorem State.setCntValue_keeps {w : Watch} {s : State} {a1 a2} (h : Holds w s) : Holds w (State.setCntValue s a1 a2) := by
  unfold State.setCntValue
  try dsimp only
  repeat' first
    | with_reducible assumption
    | with_reducible apply State.setReg_keeps

theorem State.resetCounter_keeps {w : Watch} {s : State} {a1} (h : Holds w s) : Holds w (State.resetCounter s a1) := by
  unfold State.resetCounter
  try dsimp only
  repeat' first
    | with_reducible assumption
    | with_reducible apply State.setCnt_keeps
    | with_reducible apply State.setCntValue_keeps
    | with_reducible apply State.setReg_keeps

theorem State.clearCounters_keeps {w : Watch} {s : State} {a1} (h : Holds w s) : Holds w (State.clearCounters s a1) := by
  unfold State.clearCounters
  try dsimp only
  repeat' first
    | with_reducible assumption
    | with_reducible apply State.resetCounter_keeps
    | fail_if_no_progress with_reducible refine Holds.mk_of ?_ rfl rfl rfl rfl rfl rfl
    | with_reducible refine foldl_keeps ?_ ?_

theorem State.giveCounter_keeps {w : Watch} {s : State} {a1 a2} (h : Holds w s) : Holds w (State.giveCounter s a1 a2) := by
  unfold State.giveCounter
  try dsimp only
  repeat' first
    | with_reducible assumption
    | with_reducible apply State.resetCounter_keeps
    | with_reducible apply State.setF_keeps

theorem State.allotCounters_keeps {w : Watch} {s : State} {a1 a2} (h : Holds w s) : Holds w (State.allotCounters s a1 a2) := by
  unfold State.allotCounters
  try dsimp only
  repeat' first
    | with_reducible assumption
    | with_reducible apply State.giveCounter_keeps
    | fail_if_no_progress with_reducible refine Holds.mk_of ?_ rfl rfl rfl rfl rfl rfl
    | with_reducible refine foldl_keeps ?_ ?_
    | split
    | (intro)

theorem State.tellLost_keeps {w : Watch} {s : State} {a1 a2} (h : Holds w s) : Holds w (State.tellLost s a1 a2) := by
  unfold State.tellLost
  try dsimp only
  repeat' first
    | with_reducible assumption
    | with_reducible apply State.postOwner_keeps
    | fail_if_no_progress with_reducible refine Holds.mk_of ?_ rfl rfl rfl rfl rfl rfl
    | split

theorem State.putSample_keeps {w : Watch} {s : State} {a1 a2} (h : Holds w s) : Holds w (State.putSample s a1 a2) := by
  unfold State.putSample
  try dsimp only
  repeat' first
    | with_reducible assumption
    | with_reducible apply State.count_keeps
    | with_reducible apply State.setReg_keeps
    | with_reducible apply State.store_keeps
    | with_reducible apply State.tellLost_keeps
    | fail_if_no_progress with_reducible refine Holds.mk_of ?_ rfl rfl rfl rfl rfl rfl
    | split

theorem State.advanceCounter_keeps {w : Watch} {s : State} {a1 a2 a3} (h : Holds w s) : Holds w (State.advanceCounter s a1 a2 a3) := by
  unfold State.advanceCounter
  try dsimp only
  repeat' first
    | with_reducible assumption
    | with_reducible apply State.postOwner_keeps
    | with_reducible apply State.putSample_keeps
    | with_reducible apply State.setCntValue_keeps
    | with_reducible apply State.setF_keeps
    | fail_if_no_progress with_reducible refine Holds.mk_of ?_ rfl rfl rfl rfl rfl rfl
    | split

theorem State.occur_keeps {w : Watch} {s : State} {a1} (h : Holds w s) : Holds w (State.occur s a1) := by
  unfold State.occur
  try dsimp only
  repeat' first
    | with_reducible assumption
    | with_reducible apply State.advanceCounter_keeps
    | fail_if_no_progress with_reducible refine Holds.mk_of ?_ rfl rfl rfl rfl rfl rfl
    | with_reducible refine foldl_keeps ?_ ?_
    | split
    | (intro)

theorem State.fixedCount_keeps {w : Watch} {s : State} {a1 a2} (h : Holds w s) : Holds w (State.fixedCount s a1 a2) := by
  unfold State.fixedCount
  try dsimp only
  repeat' first
    | with_reducible assumption
    | with_reducible apply State.setReg64_keeps
    | fail_if_no_progress with_reducible refine Holds.mk_of ?_ rfl rfl rfl rfl rfl rfl
    | split

theorem State.fixedMeasured_keeps {w : Watch} {s : State} {a1} (h : Holds w s) : Holds w (State.fixedMeasured s a1) := by
  unfold State.fixedMeasured
  try dsimp only
  repeat' first
    | with_reducible assumption
    | with_reducible apply State.fixedCount_keeps
    | fail_if_no_progress with_reducible refine Holds.mk_of ?_ rfl rfl rfl rfl rfl rfl
    | with_reducible refine foldl_keeps ?_ ?_
    | split
    | (intro)

theorem State.measuredCount_keeps {w : Watch} {s : State} {a1 a2 a3} (h : Holds w s) : Holds w (State.measuredCount s a1 a2 a3) := by
  unfold State.measuredCount
  try dsimp only
  repeat' first
    | with_reducible assumption
    | with_reducible apply State.advanceCounter_keeps
    | fail_if_no_progress with_reducible refine Holds.mk_of ?_ rfl rfl rfl rfl rfl rfl
    | split

theorem execPmuSample_keeps {w : Watch} {s : State} {a1 a2 a3 a4 a5 a6 a7 a8 a9 a10} (h : Holds w s) : NextHolds w (execPmuSample a1 a2 a3 a4 a5 a6 a7 a8 a9 a10 s) := by
  unfold execPmuSample
  try dsimp only
  repeat' first
    | with_reducible assumption
    | with_reducible apply nextHolds_next
    | with_reducible exact nextHolds_fault
    | with_reducible exact nextHolds_refused
    | with_reducible apply State.fixedMeasured_keeps
    | with_reducible apply State.measuredCount_keeps

theorem effPmuSetCounter_keeps {w : Watch} {s : State} {a1 a2} (h : Holds w s) : Holds w (effPmuSetCounter a1 a2 s) := by
  unfold effPmuSetCounter
  try dsimp only
  repeat' first
    | with_reducible assumption
    | with_reducible apply State.complete_keeps
    | with_reducible apply State.setCnt_keeps
    | with_reducible apply State.setCntValue_keeps
    | with_reducible apply State.setReg_keeps
    | fail_if_no_progress with_reducible refine Holds.mk_of ?_ rfl rfl rfl rfl rfl rfl
    | split

theorem execPmuSetCounter_keeps {w : Watch} {s : State} {a1} (h : Holds w s) : NextHolds w (execPmuSetCounter a1 s) := by
  unfold execPmuSetCounter
  try dsimp only
  repeat' first
    | with_reducible assumption
    | with_reducible apply nextHolds_next
    | with_reducible exact nextHolds_fault
    | with_reducible exact nextHolds_refused
    | with_reducible apply effPmuSetCounter_keeps
    | with_reducible apply runPkt_keeps
    | fail_if_no_progress with_reducible refine Holds.mk_of ?_ rfl rfl rfl rfl rfl rfl
    | split
    | (intro)

theorem effPmuControl_keeps {w : Watch} {s : State} {a1 a2} (h : Holds w s) : Holds w (effPmuControl a1 a2 s) := by
  unfold effPmuControl
  try dsimp only
  repeat' first
    | with_reducible assumption
    | with_reducible apply State.complete_keeps
    | with_reducible apply State.setCntValue_keeps
    | with_reducible apply State.setF_keeps
    | fail_if_no_progress with_reducible refine Holds.mk_of ?_ rfl rfl rfl rfl rfl rfl
    | with_reducible refine foldl_keeps ?_ ?_
    | split
    | (intro)

theorem execPmuControl_keeps {w : Watch} {s : State} {a1} (h : Holds w s) : NextHolds w (execPmuControl a1 s) := by
  unfold execPmuControl
  try dsimp only
  repeat' first
    | with_reducible assumption
    | with_reducible apply nextHolds_next
    | with_reducible exact nextHolds_fault
    | with_reducible exact nextHolds_refused
    | with_reducible apply effPmuControl_keeps
    | with_reducible apply runPkt_keeps
    | fail_if_no_progress with_reducible refine Holds.mk_of ?_ rfl rfl rfl rfl rfl rfl
    | split
    | (intro)

theorem effPmuSetSamples_keeps {w : Watch} {s : State} {a1 a2} (h : Holds w s) : Holds w (effPmuSetSamples a1 a2 s) := by
  unfold effPmuSetSamples
  try dsimp only
  repeat' first
    | with_reducible assumption
    | with_reducible apply State.complete_keeps
    | with_reducible apply State.setReg_keeps
    | fail_if_no_progress with_reducible refine Holds.mk_of ?_ rfl rfl rfl rfl rfl rfl

theorem execPmuSetSamples_keeps {w : Watch} {s : State} {a1} (h : Holds w s) : NextHolds w (execPmuSetSamples a1 s) := by
  unfold execPmuSetSamples
  try dsimp only
  repeat' first
    | with_reducible assumption
    | with_reducible apply nextHolds_next
    | with_reducible exact nextHolds_fault
    | with_reducible exact nextHolds_refused
    | with_reducible apply effPmuSetSamples_keeps
    | with_reducible apply runPkt_keeps
    | fail_if_no_progress with_reducible refine Holds.mk_of ?_ rfl rfl rfl rfl rfl rfl
    | split
    | (intro)

theorem effPmuSetDump_keeps {w : Watch} {s : State} {a1 a2} (h : Holds w s) : Holds w (effPmuSetDump a1 a2 s) := by
  unfold effPmuSetDump
  try dsimp only
  repeat' first
    | with_reducible assumption
    | with_reducible apply State.complete_keeps
    | with_reducible apply State.setReg_keeps
    | fail_if_no_progress with_reducible refine Holds.mk_of ?_ rfl rfl rfl rfl rfl rfl

theorem execPmuSetDump_keeps {w : Watch} {s : State} {a1} (h : Holds w s) : NextHolds w (execPmuSetDump a1 s) := by
  unfold execPmuSetDump
  try dsimp only
  repeat' first
    | with_reducible assumption
    | with_reducible apply nextHolds_next
    | with_reducible exact nextHolds_fault
    | with_reducible exact nextHolds_refused
    | with_reducible apply effPmuSetDump_keeps
    | with_reducible apply runPkt_keeps
    | fail_if_no_progress with_reducible refine Holds.mk_of ?_ rfl rfl rfl rfl rfl rfl
    | split
    | (intro)

theorem execPmuDumpPeriod_keeps {w : Watch} {s : State} {a1 a2 a3 a4} (h : Holds w s) : NextHolds w (execPmuDumpPeriod a1 a2 a3 a4 s) := by
  unfold execPmuDumpPeriod
  try dsimp only
  repeat' first
    | with_reducible assumption
    | with_reducible apply nextHolds_next
    | with_reducible exact nextHolds_fault
    | with_reducible exact nextHolds_refused
    | with_reducible apply State.count_keeps
    | with_reducible apply State.fixedMeasured_keeps
    | with_reducible apply State.measuredCount_keeps
    | with_reducible apply State.setReg_keeps
    | with_reducible apply State.store_keeps
    | with_reducible apply State.tellLost_keeps
    | fail_if_no_progress with_reducible refine Holds.mk_of ?_ rfl rfl rfl rfl rfl rfl
    | with_reducible refine foldl_keeps ?_ ?_
    | split
    | (intro)

end Sys2Proof.Machine
end

