-- ==== Sys2Proof/Laws/KeepsBindery.lean ====
section
/-! SUPPORT. What Machine/Bindery.lean does keeps what is watched. -/

namespace Sys2Proof.Machine

theorem State.setLayer_keeps {w : Watch} {s : State} {a1 a2} (h : Holds w s) : Holds w (State.setLayer s a1 a2) := by
  unfold State.setLayer
  try dsimp only
  repeat' first
    | with_reducible assumption
    | fail_if_no_progress with_reducible refine Holds.mk_of ?_ rfl rfl rfl rfl rfl rfl

theorem State.setPipe_keeps {w : Watch} {s : State} {a1 a2} (h : Holds w s) : Holds w (State.setPipe s a1 a2) := by
  unfold State.setPipe
  try dsimp only
  repeat' first
    | with_reducible assumption
    | fail_if_no_progress with_reducible refine Holds.mk_of ?_ rfl rfl rfl rfl rfl rfl

theorem State.setOutp_keeps {w : Watch} {s : State} {a1 a2} (h : Holds w s) : Holds w (State.setOutp s a1 a2) := by
  unfold State.setOutp
  try dsimp only
  repeat' first
    | with_reducible assumption
    | fail_if_no_progress with_reducible refine Holds.mk_of ?_ rfl rfl rfl rfl rfl rfl

theorem State.abort_keeps {w : Watch} {s : State} {a1 a2} (h : Holds w s) : Holds w (State.abort s a1 a2) := by
  unfold State.abort
  try dsimp only
  repeat' first
    | with_reducible assumption
    | with_reducible apply State.complete_keeps

theorem setLayerReady_keeps {w : Watch} {s : State} {a1 a2 a3} (h : Holds w s) : Holds w (setLayerReady a1 a2 a3 s) := by
  unfold setLayerReady
  try dsimp only
  repeat' first
    | with_reducible assumption
    | with_reducible apply State.abort_keeps
    | with_reducible apply State.setLayer_keeps
    | fail_if_no_progress with_reducible refine Holds.mk_of ?_ rfl rfl rfl rfl rfl rfl
    | split

theorem effBndSetLayer_keeps {w : Watch} {s : State} {a1 a2} (h : Holds w s) : Holds w (effBndSetLayer a1 a2 s) := by
  unfold effBndSetLayer
  try dsimp only
  repeat' first
    | with_reducible assumption
    | with_reducible apply State.noteRead_keeps
    | with_reducible apply setLayerReady_keeps
    | fail_if_no_progress with_reducible refine Holds.mk_of ?_ rfl rfl rfl rfl rfl rfl
    | split

theorem execBndSetLayer_keeps {w : Watch} {s : State} {a1} (h : Holds w s) : NextHolds w (execBndSetLayer a1 s) := by
  unfold execBndSetLayer
  try dsimp only
  repeat' first
    | with_reducible assumption
    | with_reducible apply nextHolds_next
    | with_reducible exact nextHolds_fault
    | with_reducible exact nextHolds_refused
    | with_reducible apply effBndSetLayer_keeps
    | with_reducible apply runPkt_keeps
    | fail_if_no_progress with_reducible refine Holds.mk_of ?_ rfl rfl rfl rfl rfl rfl
    | split
    | (intro)

theorem flipReady_keeps {w : Watch} {s : State} {a1 a2 a3 a4} (h : Holds w s) : Holds w (flipReady a1 a2 a3 a4 s) := by
  unfold flipReady
  try dsimp only
  repeat' first
    | with_reducible assumption
    | with_reducible apply State.abort_keeps
    | with_reducible apply State.setLayer_keeps
    | fail_if_no_progress with_reducible refine Holds.mk_of ?_ rfl rfl rfl rfl rfl rfl
    | split

theorem effBndFlip_keeps {w : Watch} {s : State} {a1 a2} (h : Holds w s) : Holds w (effBndFlip a1 a2 s) := by
  unfold effBndFlip
  try dsimp only
  repeat' first
    | with_reducible assumption
    | with_reducible apply flipReady_keeps

theorem execBndFlip_keeps {w : Watch} {s : State} {a1} (h : Holds w s) : NextHolds w (execBndFlip a1 s) := by
  unfold execBndFlip
  try dsimp only
  repeat' first
    | with_reducible assumption
    | with_reducible apply nextHolds_next
    | with_reducible exact nextHolds_fault
    | with_reducible exact nextHolds_refused
    | with_reducible apply effBndFlip_keeps
    | with_reducible apply runPkt_keeps
    | fail_if_no_progress with_reducible refine Holds.mk_of ?_ rfl rfl rfl rfl rfl rfl
    | split
    | (intro)

theorem effBndSetLut_keeps {w : Watch} {s : State} {a1 a2} (h : Holds w s) : Holds w (effBndSetLut a1 a2 s) := by
  unfold effBndSetLut
  try dsimp only
  repeat' first
    | with_reducible assumption
    | with_reducible apply State.noteRead_keeps
    | with_reducible apply State.setLayer_keeps
    | with_reducible apply State.setPipe_keeps
    | fail_if_no_progress with_reducible refine Holds.mk_of ?_ rfl rfl rfl rfl rfl rfl
    | split

theorem execBndSetLut_keeps {w : Watch} {s : State} {a1} (h : Holds w s) : NextHolds w (execBndSetLut a1 s) := by
  unfold execBndSetLut
  try dsimp only
  repeat' first
    | with_reducible assumption
    | with_reducible apply nextHolds_next
    | with_reducible exact nextHolds_fault
    | with_reducible exact nextHolds_refused
    | with_reducible apply effBndSetLut_keeps
    | with_reducible apply runPkt_keeps
    | fail_if_no_progress with_reducible refine Holds.mk_of ?_ rfl rfl rfl rfl rfl rfl
    | split
    | (intro)

theorem State.setPose_keeps {w : Watch} {s : State} {a1} (h : Holds w s) : Holds w (State.setPose s a1) := by
  unfold State.setPose
  try dsimp only
  repeat' first
    | with_reducible assumption
    | with_reducible apply State.setF_keeps
    | with_reducible apply State.setReg64_keeps
    | fail_if_no_progress with_reducible refine Holds.mk_of ?_ rfl rfl rfl rfl rfl rfl

theorem effBndSetPose_keeps {w : Watch} {s : State} {a1 a2} (h : Holds w s) : Holds w (effBndSetPose a1 a2 s) := by
  unfold effBndSetPose
  try dsimp only
  repeat' first
    | with_reducible assumption
    | with_reducible apply State.complete_keeps
    | with_reducible apply State.setPose_keeps

theorem execBndSetPose_keeps {w : Watch} {s : State} {a1} (h : Holds w s) : NextHolds w (execBndSetPose a1 s) := by
  unfold execBndSetPose
  try dsimp only
  repeat' first
    | with_reducible assumption
    | with_reducible apply nextHolds_next
    | with_reducible exact nextHolds_fault
    | with_reducible exact nextHolds_refused
    | with_reducible apply effBndSetPose_keeps
    | with_reducible apply runPkt_keeps
    | fail_if_no_progress with_reducible refine Holds.mk_of ?_ rfl rfl rfl rfl rfl rfl
    | split
    | (intro)

theorem execMotionSample_keeps {w : Watch} {s : State} {a1} (h : Holds w s) : NextHolds w (execMotionSample a1 s) := by
  unfold execMotionSample
  try dsimp only
  repeat' first
    | with_reducible assumption
    | with_reducible apply nextHolds_next
    | with_reducible exact nextHolds_fault
    | with_reducible exact nextHolds_refused
    | with_reducible apply State.countF_keeps
    | with_reducible apply State.setPose_keeps
    | fail_if_no_progress with_reducible refine Holds.mk_of ?_ rfl rfl rfl rfl rfl rfl
    | split

theorem execPoseStale_keeps {w : Watch} {s : State} (h : Holds w s) : NextHolds w (execPoseStale s) := by
  unfold execPoseStale
  try dsimp only
  repeat' first
    | with_reducible assumption
    | with_reducible apply nextHolds_next
    | with_reducible exact nextHolds_fault
    | with_reducible exact nextHolds_refused
    | with_reducible apply State.postMgr_keeps
    | with_reducible apply State.postOwner_keeps
    | with_reducible apply State.setF_keeps
    | fail_if_no_progress with_reducible refine Holds.mk_of ?_ rfl rfl rfl rfl rfl rfl
    | with_reducible refine foldl_keeps ?_ ?_
    | split
    | (intro)

theorem State.dropBuffer_keeps {w : Watch} {s : State} {a1} (h : Holds w s) : Holds w (State.dropBuffer s a1) := by
  unfold State.dropBuffer
  try dsimp only
  repeat' first
    | with_reducible assumption
    | with_reducible apply State.abort_keeps
    | with_reducible apply State.setLayer_keeps
    | fail_if_no_progress with_reducible refine Holds.mk_of ?_ rfl rfl rfl rfl rfl rfl
    | split

theorem State.applySet_keeps {w : Watch} {s : State} {a1 a2} (h : Holds w s) : Holds w (State.applySet s a1 a2) := by
  unfold State.applySet
  try dsimp only
  repeat' first
    | with_reducible assumption
    | with_reducible apply State.complete_keeps
    | with_reducible apply State.dropBuffer_keeps
    | with_reducible apply State.setLayer_keeps
    | fail_if_no_progress with_reducible refine Holds.mk_of ?_ rfl rfl rfl rfl rfl rfl
    | split

theorem State.applyLut_keeps {w : Watch} {s : State} {a1 a2} (h : Holds w s) : Holds w (State.applyLut s a1 a2) := by
  unfold State.applyLut
  try dsimp only
  repeat' first
    | with_reducible assumption
    | with_reducible apply State.complete_keeps
    | with_reducible apply State.setLayer_keeps
    | fail_if_no_progress with_reducible refine Holds.mk_of ?_ rfl rfl rfl rfl rfl rfl
    | with_reducible refine foldl_keeps ?_ ?_
    | split
    | (intro)

theorem State.applyFlip_keeps {w : Watch} {s : State} {a1 a2 a3} (h : Holds w s) : Holds w (State.applyFlip s a1 a2 a3) := by
  unfold State.applyFlip
  try dsimp only
  repeat' first
    | with_reducible assumption
    | with_reducible apply State.commit_keeps
    | with_reducible apply State.complete_keeps
    | with_reducible apply State.setLayer_keeps
    | fail_if_no_progress with_reducible refine Holds.mk_of ?_ rfl rfl rfl rfl rfl rfl
    | split

theorem State.countLate_keeps {w : Watch} {s : State} {a1 a2 a3 a4 a5} (h : Holds w s) : Holds w (State.countLate s a1 a2 a3 a4 a5) := by
  unfold State.countLate
  try dsimp only
  repeat' first
    | with_reducible assumption
    | with_reducible apply State.count_keeps
    | with_reducible apply State.postOwner_keeps
    | fail_if_no_progress with_reducible refine Holds.mk_of ?_ rfl rfl rfl rfl rfl rfl
    | split

theorem State.applyLate_keeps {w : Watch} {s : State} {a1 a2 a3} (h : Holds w s) : Holds w (State.applyLate s a1 a2 a3) := by
  unfold State.applyLate
  try dsimp only
  repeat' first
    | with_reducible assumption
    | with_reducible apply State.countLate_keeps
    | with_reducible apply State.setLayer_keeps
    | fail_if_no_progress with_reducible refine Holds.mk_of ?_ rfl rfl rfl rfl rfl rfl
    | split

theorem State.latchLayer_keeps {w : Watch} {s : State} {a1 a2 a3} (h : Holds w s) : Holds w (State.latchLayer s a1 a2 a3) := by
  unfold State.latchLayer
  try dsimp only
  repeat' first
    | with_reducible assumption
    | with_reducible apply State.applyFlip_keeps
    | with_reducible apply State.applyLate_keeps
    | with_reducible apply State.applyLut_keeps
    | with_reducible apply State.applySet_keeps
    | fail_if_no_progress with_reducible refine Holds.mk_of ?_ rfl rfl rfl rfl rfl rfl
    | split

theorem State.applyRegamma_keeps {w : Watch} {s : State} {a1 a2} (h : Holds w s) : Holds w (State.applyRegamma s a1 a2) := by
  unfold State.applyRegamma
  try dsimp only
  repeat' first
    | with_reducible assumption
    | with_reducible apply State.complete_keeps
    | with_reducible apply State.setF_keeps
    | with_reducible apply State.setPipe_keeps
    | fail_if_no_progress with_reducible refine Holds.mk_of ?_ rfl rfl rfl rfl rfl rfl
    | with_reducible refine foldl_keeps ?_ ?_
    | split
    | (intro)

theorem State.latchPipe_keeps {w : Watch} {s : State} {a1 a2 a3} (h : Holds w s) : Holds w (State.latchPipe s a1 a2 a3) := by
  unfold State.latchPipe
  try dsimp only
  repeat' first
    | with_reducible assumption
    | with_reducible apply State.applyRegamma_keeps
    | with_reducible apply State.setPipe_keeps

theorem State.latchSafe_keeps {w : Watch} {s : State} {a1 a2} (h : Holds w s) : Holds w (State.latchSafe s a1 a2) := by
  unfold State.latchSafe
  try dsimp only
  repeat' first
    | with_reducible assumption
    | with_reducible apply State.setPipe_keeps

theorem State.latchBindery_keeps {w : Watch} {s : State} {a1 a2} (h : Holds w s) : Holds w (State.latchBindery s a1 a2) := by
  unfold State.latchBindery
  try dsimp only
  repeat' first
    | with_reducible assumption
    | with_reducible apply State.latchLayer_keeps
    | with_reducible apply State.latchPipe_keeps
    | with_reducible apply State.latchSafe_keeps
    | fail_if_no_progress with_reducible refine Holds.mk_of ?_ rfl rfl rfl rfl rfl rfl
    | with_reducible refine foldl_keeps ?_ ?_
    | split
    | (intro)

theorem execFlipPreviousReleased_keeps {w : Watch} {s : State} {a1} (h : Holds w s) : NextHolds w (execFlipPreviousReleased a1 s) := by
  unfold execFlipPreviousReleased
  try dsimp only
  repeat' first
    | with_reducible assumption
    | with_reducible apply nextHolds_next
    | with_reducible exact nextHolds_fault
    | with_reducible exact nextHolds_refused
    | with_reducible apply State.complete_keeps
    | with_reducible apply State.setLayer_keeps
    | fail_if_no_progress with_reducible refine Holds.mk_of ?_ rfl rfl rfl rfl rfl rfl
    | with_reducible refine foldl_keeps ?_ ?_
    | split
    | (intro)

theorem State.dropLayersIf_keeps {w : Watch} {s : State} {a1} (h : Holds w s) : Holds w (State.dropLayersIf s a1) := by
  unfold State.dropLayersIf
  try dsimp only
  repeat' first
    | with_reducible assumption
    | fail_if_no_progress with_reducible refine Holds.mk_of ?_ rfl rfl rfl rfl rfl rfl

theorem State.dropLayers_keeps {w : Watch} {s : State} {a1} (h : Holds w s) : Holds w (State.dropLayers s a1) := by
  unfold State.dropLayers
  try dsimp only
  repeat' first
    | with_reducible assumption
    | with_reducible apply State.dropLayersIf_keeps

theorem State.forgetBindery_keeps {w : Watch} {s : State} {a1} (h : Holds w s) : Holds w (State.forgetBindery s a1) := by
  unfold State.forgetBindery
  try dsimp only
  repeat' first
    | with_reducible assumption
    | fail_if_no_progress with_reducible refine Holds.mk_of ?_ rfl rfl rfl rfl rfl rfl

end Sys2Proof.Machine
end

