-- ==== Sys2Proof/Laws/KeepsC0.lean ====
section
/-! SUPPORT. What Machine/C0.lean does keeps what is watched. -/

namespace Sys2Proof.Machine

theorem State.writeExpected_keeps {w : Watch} {s : State} {a1} (h : Holds w s) : Holds w (State.writeExpected s a1) := by
  unfold State.writeExpected
  try dsimp only
  repeat' first
    | with_reducible assumption
    | with_reducible apply State.setReg_keeps
    | fail_if_no_progress with_reducible refine Holds.mk_of ?_ rfl rfl rfl rfl rfl rfl
    | split

end Sys2Proof.Machine
end

