-- ==== Sys2Proof/Laws/KeepsGate.lean ====
section
/-! SUPPORT. What Machine/Gate.lean does keeps what is watched. -/

namespace Sys2Proof.Machine

theorem State.gated_keeps {w : Watch} {s : State} {a1 a2 f} (h : Holds w s) (hf : ∀ t, Holds w t → Holds w (f t)) : Holds w (State.gated s a1 a2 f) := by
  unfold State.gated
  try dsimp only
  repeat' first
    | with_reducible assumption
    | with_reducible apply hf
    | with_reducible apply State.badWrite_keeps
    | with_reducible apply State.count_keeps
    | fail_if_no_progress with_reducible refine Holds.mk_of ?_ rfl rfl rfl rfl rfl rfl
    | split

theorem State.regWrite_keeps {w : Watch} {s : State} {a1 a2 a3 a4 f} (h : Holds w s) (hf : ∀ t, Holds w t → Holds w (f t)) : Holds w (State.regWrite s a1 a2 a3 a4 f) := by
  unfold State.regWrite
  try dsimp only
  repeat' first
    | with_reducible assumption
    | with_reducible apply hf
    | with_reducible apply State.badWrite_keeps
    | with_reducible apply State.gated_keeps
    | fail_if_no_progress with_reducible refine Holds.mk_of ?_ rfl rfl rfl rfl rfl rfl
    | split
    | (intro)

end Sys2Proof.Machine
end

