-- ==== Sys2Proof/Laws/KeepsCollation.lean ====
section
/-! SUPPORT. What Machine/Collation.lean does keeps what is watched. -/

namespace Sys2Proof.Machine

theorem State.setCvuHolder_keeps {w : Watch} {s : State} {a1 a2} (h : Holds w s) : Holds w (State.setCvuHolder s a1 a2) := by
  unfold State.setCvuHolder
  try dsimp only
  repeat' first
    | with_reducible assumption
    | fail_if_no_progress with_reducible refine Holds.mk_of ?_ rfl rfl rfl rfl rfl rfl

theorem State.setCvuValue_keeps {w : Watch} {s : State} {a1 a2} (h : Holds w s) : Holds w (State.setCvuValue s a1 a2) := by
  unfold State.setCvuValue
  try dsimp only
  repeat' first
    | with_reducible assumption
    | with_reducible apply State.setReg_keeps

theorem State.cvuFeed_keeps {w : Watch} {s : State} {a1 a2} (h : Holds w s) : Holds w (State.cvuFeed s a1 a2) := by
  unfold State.cvuFeed
  try dsimp only
  repeat' first
    | with_reducible assumption
    | with_reducible apply State.setCvuValue_keeps

theorem State.cvuStart_keeps {w : Watch} {s : State} {a1} (h : Holds w s) : Holds w (State.cvuStart s a1) := by
  unfold State.cvuStart
  try dsimp only
  repeat' first
    | with_reducible assumption
    | with_reducible apply State.setCvuValue_keeps
    | with_reducible apply State.setF_keeps

theorem State.cvuReset_keeps {w : Watch} {s : State} {a1} (h : Holds w s) : Holds w (State.cvuReset s a1) := by
  unfold State.cvuReset
  try dsimp only
  repeat' first
    | with_reducible assumption
    | with_reducible apply State.setReg_keeps
    | fail_if_no_progress with_reducible refine Holds.mk_of ?_ rfl rfl rfl rfl rfl rfl
    | with_reducible refine foldl_keeps ?_ ?_
    | split
    | (intro)

theorem State.cvuWrite_keeps {w : Watch} {s : State} {a1 a2 a3 a4 f} (h : Holds w s) (hf : ∀ t, Holds w t → Holds w (f t)) : Holds w (State.cvuWrite s a1 a2 a3 a4 f) := by
  unfold State.cvuWrite
  try dsimp only
  repeat' first
    | with_reducible assumption
    | with_reducible apply hf
    | with_reducible apply State.badWrite_keeps
    | with_reducible apply State.regWrite_keeps
    | fail_if_no_progress with_reducible refine Holds.mk_of ?_ rfl rfl rfl rfl rfl rfl
    | split
    | (intro)

theorem State.writeCvuCfg_keeps {w : Watch} {s : State} {a1 a2 a3} (h : Holds w s) : Holds w (State.writeCvuCfg s a1 a2 a3) := by
  unfold State.writeCvuCfg
  try dsimp only
  repeat' first
    | with_reducible assumption
    | with_reducible apply State.badWrite_keeps
    | with_reducible apply State.cvuStart_keeps
    | with_reducible apply State.cvuWrite_keeps
    | with_reducible apply State.setF_keeps
    | with_reducible apply State.setReg_keeps
    | fail_if_no_progress with_reducible refine Holds.mk_of ?_ rfl rfl rfl rfl rfl rfl
    | split
    | (intro)

theorem State.writeCvuData_keeps {w : Watch} {s : State} {a1 a2 a3 a4 a5} (h : Holds w s) : Holds w (State.writeCvuData s a1 a2 a3 a4 a5) := by
  unfold State.writeCvuData
  try dsimp only
  repeat' first
    | with_reducible assumption
    | with_reducible apply State.cvuFeed_keeps
    | with_reducible apply State.cvuWrite_keeps
    | fail_if_no_progress with_reducible refine Holds.mk_of ?_ rfl rfl rfl rfl rfl rfl
    | split
    | (intro)

theorem State.writeCvuValue_keeps {w : Watch} {s : State} {a1 a2 a3} (h : Holds w s) : Holds w (State.writeCvuValue s a1 a2 a3) := by
  unfold State.writeCvuValue
  try dsimp only
  repeat' first
    | with_reducible assumption
    | with_reducible apply State.badWrite_keeps
    | with_reducible apply State.cvuWrite_keeps
    | with_reducible apply State.setCvuValue_keeps
    | fail_if_no_progress with_reducible refine Holds.mk_of ?_ rfl rfl rfl rfl rfl rfl
    | split
    | (intro)

theorem State.writeCvuExpect_keeps {w : Watch} {s : State} {a1 a2 a3} (h : Holds w s) : Holds w (State.writeCvuExpect s a1 a2 a3) := by
  unfold State.writeCvuExpect
  try dsimp only
  repeat' first
    | with_reducible assumption
    | with_reducible apply State.cvuWrite_keeps
    | with_reducible apply State.setF_keeps
    | with_reducible apply State.setReg_keeps
    | fail_if_no_progress with_reducible refine Holds.mk_of ?_ rfl rfl rfl rfl rfl rfl
    | split
    | (intro)

theorem State.aliveAccept_keeps {w : Watch} {s : State} {a1 a2} (h : Holds w s) : Holds w (State.aliveAccept s a1 a2) := by
  unfold State.aliveAccept
  try dsimp only
  repeat' first
    | with_reducible assumption
    | with_reducible apply State.setF_keeps

theorem State.aliveJudge_keeps {w : Watch} {s : State} {a1 a2} (h : Holds w s) : Holds w (State.aliveJudge s a1 a2) := by
  unfold State.aliveJudge
  try dsimp only
  repeat' first
    | with_reducible assumption
    | with_reducible apply State.aliveAccept_keeps
    | with_reducible apply State.countF_keeps
    | with_reducible apply State.setF_keeps
    | fail_if_no_progress with_reducible refine Holds.mk_of ?_ rfl rfl rfl rfl rfl rfl
    | split

theorem State.aliveNext_keeps {w : Watch} {s : State} {a1} (h : Holds w s) : Holds w (State.aliveNext s a1) := by
  unfold State.aliveNext
  try dsimp only
  repeat' first
    | with_reducible assumption
    | with_reducible apply State.aliveAccept_keeps

theorem State.writeCvuAlive_keeps {w : Watch} {s : State} {a1 a2 a3} (h : Holds w s) : Holds w (State.writeCvuAlive s a1 a2 a3) := by
  unfold State.writeCvuAlive
  try dsimp only
  repeat' first
    | with_reducible assumption
    | with_reducible apply State.aliveJudge_keeps
    | with_reducible apply State.aliveNext_keeps
    | with_reducible apply State.cvuWrite_keeps
    | fail_if_no_progress with_reducible refine Holds.mk_of ?_ rfl rfl rfl rfl rfl rfl
    | split
    | (intro)

theorem execCvuStart_keeps {w : Watch} {s : State} {a1 a2} (h : Holds w s) : NextHolds w (execCvuStart a1 a2 s) := by
  unfold execCvuStart
  try dsimp only
  repeat' first
    | with_reducible assumption
    | with_reducible apply nextHolds_next
    | with_reducible exact nextHolds_fault
    | with_reducible exact nextHolds_refused
    | with_reducible apply State.writeCvuCfg_keeps

theorem execCvuAlgChange_keeps {w : Watch} {s : State} {a1 a2 a3} (h : Holds w s) : NextHolds w (execCvuAlgChange a1 a2 a3 s) := by
  unfold execCvuAlgChange
  try dsimp only
  repeat' first
    | with_reducible assumption
    | with_reducible apply nextHolds_next
    | with_reducible exact nextHolds_fault
    | with_reducible exact nextHolds_refused
    | with_reducible apply State.writeCvuCfg_keeps

theorem execCvuData8_keeps {w : Watch} {s : State} {a1 a2 a3} (h : Holds w s) : NextHolds w (execCvuData8 a1 a2 a3 s) := by
  unfold execCvuData8
  try dsimp only
  repeat' first
    | with_reducible assumption
    | with_reducible apply nextHolds_next
    | with_reducible exact nextHolds_fault
    | with_reducible exact nextHolds_refused
    | with_reducible apply State.writeCvuData_keeps

theorem execCvuData16_keeps {w : Watch} {s : State} {a1 a2 a3} (h : Holds w s) : NextHolds w (execCvuData16 a1 a2 a3 s) := by
  unfold execCvuData16
  try dsimp only
  repeat' first
    | with_reducible assumption
    | with_reducible apply nextHolds_next
    | with_reducible exact nextHolds_fault
    | with_reducible exact nextHolds_refused
    | with_reducible apply State.writeCvuData_keeps

theorem execCvuData32_keeps {w : Watch} {s : State} {a1 a2 a3} (h : Holds w s) : NextHolds w (execCvuData32 a1 a2 a3 s) := by
  unfold execCvuData32
  try dsimp only
  repeat' first
    | with_reducible assumption
    | with_reducible apply nextHolds_next
    | with_reducible exact nextHolds_fault
    | with_reducible exact nextHolds_refused
    | with_reducible apply State.writeCvuData_keeps

theorem execCvuValueWrite_keeps {w : Watch} {s : State} {a1 a2 a3} (h : Holds w s) : NextHolds w (execCvuValueWrite a1 a2 a3 s) := by
  unfold execCvuValueWrite
  try dsimp only
  repeat' first
    | with_reducible assumption
    | with_reducible apply nextHolds_next
    | with_reducible exact nextHolds_fault
    | with_reducible exact nextHolds_refused
    | with_reducible apply State.writeCvuValue_keeps

theorem execCvuExpectWrite_keeps {w : Watch} {s : State} {a1 a2 a3} (h : Holds w s) : NextHolds w (execCvuExpectWrite a1 a2 a3 s) := by
  unfold execCvuExpectWrite
  try dsimp only
  repeat' first
    | with_reducible assumption
    | with_reducible apply nextHolds_next
    | with_reducible exact nextHolds_fault
    | with_reducible exact nextHolds_refused
    | with_reducible apply State.writeCvuExpect_keeps

theorem execCvuAliveValue_keeps {w : Watch} {s : State} {a1 a2 a3} (h : Holds w s) : NextHolds w (execCvuAliveValue a1 a2 a3 s) := by
  unfold execCvuAliveValue
  try dsimp only
  repeat' first
    | with_reducible assumption
    | with_reducible apply nextHolds_next
    | with_reducible exact nextHolds_fault
    | with_reducible exact nextHolds_refused
    | with_reducible apply State.writeCvuAlive_keeps

theorem execCvuAliveNext_keeps {w : Watch} {s : State} {a1 a2} (h : Holds w s) : NextHolds w (execCvuAliveNext a1 a2 s) := by
  unfold execCvuAliveNext
  try dsimp only
  repeat' first
    | with_reducible assumption
    | with_reducible apply nextHolds_next
    | with_reducible exact nextHolds_fault
    | with_reducible exact nextHolds_refused
    | with_reducible apply State.writeCvuAlive_keeps

theorem execCvuAliveReset_keeps {w : Watch} {s : State} {a1 a2} (h : Holds w s) : NextHolds w (execCvuAliveReset a1 a2 s) := by
  unfold execCvuAliveReset
  try dsimp only
  repeat' first
    | with_reducible assumption
    | with_reducible apply nextHolds_next
    | with_reducible exact nextHolds_fault
    | with_reducible exact nextHolds_refused
    | with_reducible apply State.writeCvuCfg_keeps

theorem effCollAssignUnit_keeps {w : Watch} {s : State} {a1 a2} (h : Holds w s) : Holds w (effCollAssignUnit a1 a2 s) := by
  unfold effCollAssignUnit
  try dsimp only
  repeat' first
    | with_reducible assumption
    | with_reducible apply State.capChanged_keeps
    | with_reducible apply State.complete_keeps
    | with_reducible apply State.cvuReset_keeps
    | with_reducible apply State.setCvuHolder_keeps
    | fail_if_no_progress with_reducible refine Holds.mk_of ?_ rfl rfl rfl rfl rfl rfl
    | split

theorem execCollAssignUnit_keeps {w : Watch} {s : State} {a1} (h : Holds w s) : NextHolds w (execCollAssignUnit a1 s) := by
  unfold execCollAssignUnit
  try dsimp only
  repeat' first
    | with_reducible assumption
    | with_reducible apply nextHolds_next
    | with_reducible exact nextHolds_fault
    | with_reducible exact nextHolds_refused
    | with_reducible apply effCollAssignUnit_keeps
    | with_reducible apply runPkt_keeps
    | fail_if_no_progress with_reducible refine Holds.mk_of ?_ rfl rfl rfl rfl rfl rfl
    | split
    | (intro)

theorem effCollCompute_keeps {w : Watch} {s : State} {a1 a2} (h : Holds w s) : Holds w (effCollCompute a1 a2 s) := by
  unfold effCollCompute
  try dsimp only
  repeat' first
    | with_reducible assumption
    | with_reducible apply State.complete_keeps
    | with_reducible apply State.cvuFeed_keeps
    | with_reducible apply State.cvuStart_keeps
    | with_reducible apply State.noteRead_keeps
    | with_reducible apply State.postUe_keeps
    | fail_if_no_progress with_reducible refine Holds.mk_of ?_ rfl rfl rfl rfl rfl rfl
    | split

theorem execCollCompute_keeps {w : Watch} {s : State} {a1} (h : Holds w s) : NextHolds w (execCollCompute a1 s) := by
  unfold execCollCompute
  try dsimp only
  repeat' first
    | with_reducible assumption
    | with_reducible apply nextHolds_next
    | with_reducible exact nextHolds_fault
    | with_reducible exact nextHolds_refused
    | with_reducible apply effCollCompute_keeps
    | with_reducible apply runPkt_keeps
    | fail_if_no_progress with_reducible refine Holds.mk_of ?_ rfl rfl rfl rfl rfl rfl
    | split
    | (intro)

theorem State.loseUnits_keeps {w : Watch} {s : State} {a1 a2} (h : Holds w s) : Holds w (State.loseUnits s a1 a2) := by
  unfold State.loseUnits
  try dsimp only
  repeat' first
    | with_reducible assumption
    | with_reducible apply State.cvuReset_keeps
    | with_reducible apply State.setCvuHolder_keeps
    | fail_if_no_progress with_reducible refine Holds.mk_of ?_ rfl rfl rfl rfl rfl rfl
    | with_reducible refine foldl_keeps ?_ ?_
    | split
    | (intro)

theorem State.setWin_keeps {w : Watch} {s : State} {a1 a2} (h : Holds w s) : Holds w (State.setWin s a1 a2) := by
  unfold State.setWin
  try dsimp only
  repeat' first
    | with_reducible assumption
    | fail_if_no_progress with_reducible refine Holds.mk_of ?_ rfl rfl rfl rfl rfl rfl

theorem State.queueWin_keeps {w : Watch} {s : State} {a1 a2} (h : Holds w s) : Holds w (State.queueWin s a1 a2) := by
  unfold State.queueWin
  try dsimp only
  repeat' first
    | with_reducible assumption
    | with_reducible apply State.setWin_keeps

theorem effCollSetWindow_keeps {w : Watch} {s : State} {a1 a2} (h : Holds w s) : Holds w (effCollSetWindow a1 a2 s) := by
  unfold effCollSetWindow
  try dsimp only
  repeat' first
    | with_reducible assumption
    | with_reducible apply State.queueWin_keeps
    | fail_if_no_progress with_reducible refine Holds.mk_of ?_ rfl rfl rfl rfl rfl rfl
    | split

theorem execCollSetWindow_keeps {w : Watch} {s : State} {a1} (h : Holds w s) : NextHolds w (execCollSetWindow a1 s) := by
  unfold execCollSetWindow
  try dsimp only
  repeat' first
    | with_reducible assumption
    | with_reducible apply nextHolds_next
    | with_reducible exact nextHolds_fault
    | with_reducible exact nextHolds_refused
    | with_reducible apply effCollSetWindow_keeps
    | with_reducible apply runPkt_keeps
    | fail_if_no_progress with_reducible refine Holds.mk_of ?_ rfl rfl rfl rfl rfl rfl
    | split
    | (intro)

theorem effCollExpect_keeps {w : Watch} {s : State} {a1 a2} (h : Holds w s) : Holds w (effCollExpect a1 a2 s) := by
  unfold effCollExpect
  try dsimp only
  repeat' first
    | with_reducible assumption
    | with_reducible apply State.queueWin_keeps
    | fail_if_no_progress with_reducible refine Holds.mk_of ?_ rfl rfl rfl rfl rfl rfl
    | split

theorem execCollExpect_keeps {w : Watch} {s : State} {a1} (h : Holds w s) : NextHolds w (execCollExpect a1 s) := by
  unfold execCollExpect
  try dsimp only
  repeat' first
    | with_reducible assumption
    | with_reducible apply nextHolds_next
    | with_reducible exact nextHolds_fault
    | with_reducible exact nextHolds_refused
    | with_reducible apply effCollExpect_keeps
    | with_reducible apply runPkt_keeps
    | fail_if_no_progress with_reducible refine Holds.mk_of ?_ rfl rfl rfl rfl rfl rfl
    | split
    | (intro)

theorem State.showWin_keeps {w : Watch} {s : State} {a1 a2} (h : Holds w s) : Holds w (State.showWin s a1 a2) := by
  unfold State.showWin
  try dsimp only
  repeat' first
    | with_reducible assumption
    | with_reducible apply State.setReg_keeps
    | fail_if_no_progress with_reducible refine Holds.mk_of ?_ rfl rfl rfl rfl rfl rfl
    | split

theorem State.clearFails_keeps {w : Watch} {s : State} {a1 a2} (h : Holds w s) : Holds w (State.clearFails s a1 a2) := by
  unfold State.clearFails
  try dsimp only
  repeat' first
    | with_reducible assumption
    | with_reducible apply State.setF_keeps

theorem State.turnWinOff_keeps {w : Watch} {s : State} {a1 a2} (h : Holds w s) : Holds w (State.turnWinOff s a1 a2) := by
  unfold State.turnWinOff
  try dsimp only
  repeat' first
    | with_reducible assumption
    | with_reducible apply State.postOwner_keeps
    | with_reducible apply State.setWin_keeps
    | with_reducible apply State.showWin_keeps

theorem State.applyWinPend_keeps {w : Watch} {s : State} {a1 a2 a3 a4} (h : Holds w s) : Holds w (State.applyWinPend s a1 a2 a3 a4) := by
  unfold State.applyWinPend
  try dsimp only
  repeat' first
    | with_reducible assumption
    | with_reducible apply State.clearFails_keeps
    | with_reducible apply State.complete_keeps
    | with_reducible apply State.setWin_keeps
    | with_reducible apply State.showWin_keeps
    | fail_if_no_progress with_reducible refine Holds.mk_of ?_ rfl rfl rfl rfl rfl rfl
    | split

theorem State.latchWindows_keeps {w : Watch} {s : State} {a1 a2} (h : Holds w s) : Holds w (State.latchWindows s a1 a2) := by
  unfold State.latchWindows
  try dsimp only
  repeat' first
    | with_reducible assumption
    | with_reducible apply State.applyWinPend_keeps
    | with_reducible apply State.setWin_keeps
    | with_reducible apply State.turnWinOff_keeps
    | fail_if_no_progress with_reducible refine Holds.mk_of ?_ rfl rfl rfl rfl rfl rfl
    | with_reducible refine foldl_keeps ?_ ?_
    | split
    | (intro)

theorem State.latchRuns_keeps {w : Watch} {s : State} {a1 a2} (h : Holds w s) : Holds w (State.latchRuns s a1 a2) := by
  unfold State.latchRuns
  try dsimp only
  repeat' first
    | with_reducible assumption
    | with_reducible apply State.setWin_keeps
    | fail_if_no_progress with_reducible refine Holds.mk_of ?_ rfl rfl rfl rfl rfl rfl
    | with_reducible refine foldl_keeps ?_ ?_
    | split
    | (intro)

theorem State.markLate_keeps {w : Watch} {s : State} {a1 a2} (h : Holds w s) : Holds w (State.markLate s a1 a2) := by
  unfold State.markLate
  try dsimp only
  repeat' first
    | with_reducible assumption
    | with_reducible apply State.setWin_keeps
    | fail_if_no_progress with_reducible refine Holds.mk_of ?_ rfl rfl rfl rfl rfl rfl
    | with_reducible refine foldl_keeps ?_ ?_
    | split
    | (intro)

theorem State.feedWindows_keeps {w : Watch} {s : State} {a1 a2 a3 a4} (h : Holds w s) : Holds w (State.feedWindows s a1 a2 a3 a4) := by
  unfold State.feedWindows
  try dsimp only
  repeat' first
    | with_reducible assumption
    | with_reducible apply State.setWin_keeps
    | fail_if_no_progress with_reducible refine Holds.mk_of ?_ rfl rfl rfl rfl rfl rfl
    | with_reducible refine foldl_keeps ?_ ?_
    | split
    | (intro)

theorem State.fitWindows_keeps {w : Watch} {s : State} {a1} (h : Holds w s) : Holds w (State.fitWindows s a1) := by
  unfold State.fitWindows
  try dsimp only
  repeat' first
    | with_reducible assumption
    | with_reducible apply State.turnWinOff_keeps
    | fail_if_no_progress with_reducible refine Holds.mk_of ?_ rfl rfl rfl rfl rfl rfl
    | with_reducible refine foldl_keeps ?_ ?_
    | split
    | (intro)

theorem State.loseSupplier_keeps {w : Watch} {s : State} {a1 a2} (h : Holds w s) : Holds w (State.loseSupplier s a1 a2) := by
  unfold State.loseSupplier
  try dsimp only
  repeat' first
    | with_reducible assumption
    | fail_if_no_progress with_reducible refine Holds.mk_of ?_ rfl rfl rfl rfl rfl rfl

theorem State.forgetWindows_keeps {w : Watch} {s : State} {a1} (h : Holds w s) : Holds w (State.forgetWindows s a1) := by
  unfold State.forgetWindows
  try dsimp only
  repeat' first
    | with_reducible assumption
    | fail_if_no_progress with_reducible refine Holds.mk_of ?_ rfl rfl rfl rfl rfl rfl

end Sys2Proof.Machine
end

