-- ==== Sys2Proof/Laws/KeepsOutputs.lean ====
section
/-! SUPPORT. What Machine/Outputs.lean does keeps what is watched. -/

namespace Sys2Proof.Machine

theorem State.postOut_keeps {w : Watch} {s : State} {a1 a2 a3 a4 a5} (h : Holds w s) : Holds w (State.postOut s a1 a2 a3 a4 a5) := by
  unfold State.postOut
  try dsimp only
  repeat' first
    | with_reducible assumption
    | with_reducible apply State.postOwner_keeps

theorem State.dropPermit_keeps {w : Watch} {s : State} {a1} (h : Holds w s) : Holds w (State.dropPermit s a1) := by
  unfold State.dropPermit
  try dsimp only
  repeat' first
    | with_reducible assumption
    | with_reducible apply State.setF_keeps
    | fail_if_no_progress with_reducible refine Holds.mk_of ?_ rfl rfl rfl rfl rfl rfl

theorem State.setPixPll_keeps {w : Watch} {s : State} {a1 a2} (h : Holds w s) : Holds w (State.setPixPll s a1 a2) := by
  unfold State.setPixPll
  try dsimp only
  repeat' first
    | with_reducible assumption
    | with_reducible apply State.setBit_keeps

theorem State.settleWear_keeps {w : Watch} {s : State} {a1} (h : Holds w s) : Holds w (State.settleWear s a1) := by
  unfold State.settleWear
  try dsimp only
  repeat' first
    | with_reducible assumption
    | with_reducible apply State.setOutp_keeps
    | fail_if_no_progress with_reducible refine Holds.mk_of ?_ rfl rfl rfl rfl rfl rfl
    | with_reducible refine foldl_keeps ?_ ?_
    | split

theorem State.stopOne_keeps {w : Watch} {s : State} {a1} (h : Holds w s) : Holds w (State.stopOne s a1) := by
  unfold State.stopOne
  try dsimp only
  repeat' first
    | with_reducible assumption
    | with_reducible apply State.setF_keeps
    | with_reducible apply State.setOutp_keeps
    | with_reducible apply State.setPixPll_keeps
    | with_reducible apply State.setReg_keeps
    | with_reducible apply State.settleWear_keeps
    | fail_if_no_progress with_reducible refine Holds.mk_of ?_ rfl rfl rfl rfl rfl rfl
    | split

theorem State.endChange_keeps {w : Watch} {s : State} {a1 a2 a3 a4} (h : Holds w s) : Holds w (State.endChange s a1 a2 a3 a4) := by
  unfold State.endChange
  try dsimp only
  repeat' first
    | with_reducible assumption
    | with_reducible apply State.complete_keeps
    | with_reducible apply State.dropPermit_keeps
    | with_reducible apply State.setOutp_keeps
    | fail_if_no_progress with_reducible refine Holds.mk_of ?_ rfl rfl rfl rfl rfl rfl
    | with_reducible refine foldl_keeps ?_ ?_
    | split

theorem State.linkStopped_keeps {w : Watch} {s : State} {a1 a2} (h : Holds w s) : Holds w (State.linkStopped s a1 a2) := by
  unfold State.linkStopped
  try dsimp only
  repeat' first
    | with_reducible assumption
    | with_reducible apply State.endChange_keeps
    | with_reducible apply State.setF_keeps
    | with_reducible apply State.setOutp_keeps
    | with_reducible apply State.setReg_keeps
    | with_reducible apply State.settleWear_keeps
    | with_reducible apply State.stopOne_keeps
    | fail_if_no_progress with_reducible refine Holds.mk_of ?_ rfl rfl rfl rfl rfl rfl
    | with_reducible refine foldl_keeps ?_ ?_
    | split
    | (intro)

theorem beginChange_keeps {w : Watch} {s : State} {a1 a2 a3} (h : Holds w s) : Holds w (beginChange a1 a2 a3 s) := by
  unfold beginChange
  try dsimp only
  repeat' first
    | with_reducible assumption
    | with_reducible apply State.commit_keeps
    | with_reducible apply State.endChange_keeps
    | with_reducible apply State.setOutp_keeps
    | fail_if_no_progress with_reducible refine Holds.mk_of ?_ rfl rfl rfl rfl rfl rfl
    | split

theorem effOutSetTiming_keeps {w : Watch} {s : State} {a1 a2} (h : Holds w s) : Holds w (effOutSetTiming a1 a2 s) := by
  unfold effOutSetTiming
  try dsimp only
  repeat' first
    | with_reducible assumption
    | with_reducible apply beginChange_keeps

theorem execOutSetTiming_keeps {w : Watch} {s : State} {a1} (h : Holds w s) : NextHolds w (execOutSetTiming a1 s) := by
  unfold execOutSetTiming
  try dsimp only
  repeat' first
    | with_reducible assumption
    | with_reducible apply nextHolds_next
    | with_reducible exact nextHolds_fault
    | with_reducible exact nextHolds_refused
    | with_reducible apply effOutSetTiming_keeps
    | with_reducible apply runPkt_keeps
    | fail_if_no_progress with_reducible refine Holds.mk_of ?_ rfl rfl rfl rfl rfl rfl
    | split
    | (intro)

theorem execOutLinkStopped_keeps {w : Watch} {s : State} {a1} (h : Holds w s) : NextHolds w (execOutLinkStopped a1 s) := by
  unfold execOutLinkStopped
  try dsimp only
  repeat' first
    | with_reducible assumption
    | with_reducible apply nextHolds_next
    | with_reducible exact nextHolds_fault
    | with_reducible exact nextHolds_refused
    | with_reducible apply State.linkStopped_keeps
    | with_reducible apply step_keeps
    | fail_if_no_progress with_reducible refine Holds.mk_of ?_ rfl rfl rfl rfl rfl rfl
    | split

theorem execOutPllLocked_keeps {w : Watch} {s : State} {a1 a2} (h : Holds w s) : NextHolds w (execOutPllLocked a1 a2 s) := by
  unfold execOutPllLocked
  try dsimp only
  repeat' first
    | with_reducible assumption
    | with_reducible apply nextHolds_next
    | with_reducible exact nextHolds_fault
    | with_reducible exact nextHolds_refused
    | with_reducible apply State.setOutp_keeps
    | with_reducible apply State.setPixPll_keeps
    | with_reducible apply step_keeps
    | fail_if_no_progress with_reducible refine Holds.mk_of ?_ rfl rfl rfl rfl rfl rfl
    | split

theorem State.linkResult_keeps {w : Watch} {s : State} {a1 a2} (h : Holds w s) : Holds w (State.linkResult s a1 a2) := by
  unfold State.linkResult
  try dsimp only
  repeat' first
    | with_reducible assumption
    | with_reducible apply State.count_keeps
    | with_reducible apply State.postOut_keeps
    | with_reducible apply State.setF_keeps
    | fail_if_no_progress with_reducible refine Holds.mk_of ?_ rfl rfl rfl rfl rfl rfl
    | split

theorem execOutLinkTrained_keeps {w : Watch} {s : State} {a1 a2 a3} (h : Holds w s) : NextHolds w (execOutLinkTrained a1 a2 a3 s) := by
  unfold execOutLinkTrained
  try dsimp only
  repeat' first
    | with_reducible assumption
    | with_reducible apply nextHolds_next
    | with_reducible exact nextHolds_fault
    | with_reducible exact nextHolds_refused
    | with_reducible apply State.linkResult_keeps
    | with_reducible apply State.setOutp_keeps
    | with_reducible apply step_keeps
    | fail_if_no_progress with_reducible refine Holds.mk_of ?_ rfl rfl rfl rfl rfl rfl
    | split

theorem State.putTiming_keeps {w : Watch} {s : State} {a1 a2 a3} (h : Holds w s) : Holds w (State.putTiming s a1 a2 a3) := by
  unfold State.putTiming
  try dsimp only
  repeat' first
    | with_reducible assumption
    | with_reducible apply State.setF_keeps
    | with_reducible apply State.setOutp_keeps
    | with_reducible apply State.setReg_keeps

theorem State.startTiming_keeps {w : Watch} {s : State} {a1 a2} (h : Holds w s) : Holds w (State.startTiming s a1 a2) := by
  unfold State.startTiming
  try dsimp only
  repeat' first
    | with_reducible assumption
    | with_reducible apply State.putTiming_keeps
    | with_reducible apply State.setOutp_keeps
    | with_reducible apply State.setPixPll_keeps
    | with_reducible apply State.setReg_keeps
    | with_reducible apply State.setReg64_keeps
    | fail_if_no_progress with_reducible refine Holds.mk_of ?_ rfl rfl rfl rfl rfl rfl
    | split

theorem State.restartOutput_keeps {w : Watch} {s : State} {a1} (h : Holds w s) : Holds w (State.restartOutput s a1) := by
  unfold State.restartOutput
  try dsimp only
  repeat' first
    | with_reducible assumption
    | with_reducible apply State.setOutp_keeps
    | fail_if_no_progress with_reducible refine Holds.mk_of ?_ rfl rfl rfl rfl rfl rfl
    | split

theorem State.stopForDrop_keeps {w : Watch} {s : State} {a1} (h : Holds w s) : Holds w (State.stopForDrop s a1) := by
  unfold State.stopForDrop
  try dsimp only
  repeat' first
    | with_reducible assumption
    | with_reducible apply State.endChange_keeps
    | with_reducible apply State.stopOne_keeps
    | fail_if_no_progress with_reducible refine Holds.mk_of ?_ rfl rfl rfl rfl rfl rfl
    | split

theorem State.stateTolerance_keeps {w : Watch} {s : State} {a1} (h : Holds w s) : Holds w (State.stateTolerance s a1) := by
  unfold State.stateTolerance
  try dsimp only
  repeat' first
    | with_reducible assumption
    | with_reducible apply State.setReg_keeps
    | fail_if_no_progress with_reducible refine Holds.mk_of ?_ rfl rfl rfl rfl rfl rfl
    | split

theorem State.underrun_keeps {w : Watch} {s : State} {a1 a2} (h : Holds w s) : Holds w (State.underrun s a1 a2) := by
  unfold State.underrun
  try dsimp only
  repeat' first
    | with_reducible assumption
    | with_reducible apply State.count_keeps
    | with_reducible apply State.occur_keeps
    | with_reducible apply State.postOut_keeps
    | with_reducible apply State.setOutp_keeps
    | fail_if_no_progress with_reducible refine Holds.mk_of ?_ rfl rfl rfl rfl rfl rfl
    | split

theorem State.poisonBeat_keeps {w : Watch} {s : State} {a1 a2 a3} (h : Holds w s) : Holds w (State.poisonBeat s a1 a2 a3) := by
  unfold State.poisonBeat
  try dsimp only
  repeat' first
    | with_reducible assumption
    | with_reducible apply State.count_keeps
    | with_reducible apply State.postOut_keeps
    | with_reducible apply State.record_keeps
    | with_reducible apply State.restartOutput_keeps
    | with_reducible apply State.setOutp_keeps
    | fail_if_no_progress with_reducible refine Holds.mk_of ?_ rfl rfl rfl rfl rfl rfl
    | split

theorem execOutLineStart_keeps {w : Watch} {s : State} {a1 a2 a3} (h : Holds w s) : NextHolds w (execOutLineStart a1 a2 a3 s) := by
  unfold execOutLineStart
  try dsimp only
  repeat' first
    | with_reducible assumption
    | with_reducible apply nextHolds_next
    | with_reducible exact nextHolds_fault
    | with_reducible exact nextHolds_refused
    | with_reducible apply State.fixedCount_keeps
    | with_reducible apply State.occur_keeps
    | with_reducible apply State.poisonBeat_keeps
    | with_reducible apply State.setOutp_keeps
    | with_reducible apply State.setReg_keeps
    | with_reducible apply State.stateTolerance_keeps
    | with_reducible apply State.underrun_keeps
    | fail_if_no_progress with_reducible refine Holds.mk_of ?_ rfl rfl rfl rfl rfl rfl
    | with_reducible refine foldl_keeps ?_ ?_
    | split
    | (intro)

theorem execTeEdge_keeps {w : Watch} {s : State} {a1} (h : Holds w s) : NextHolds w (execTeEdge a1 s) := by
  unfold execTeEdge
  try dsimp only
  repeat' first
    | with_reducible assumption
    | with_reducible apply nextHolds_next
    | with_reducible exact nextHolds_fault
    | with_reducible exact nextHolds_refused
    | with_reducible apply State.count_keeps
    | with_reducible apply State.setF_keeps
    | with_reducible apply State.setOutp_keeps
    | fail_if_no_progress with_reducible refine Holds.mk_of ?_ rfl rfl rfl rfl rfl rfl
    | split

theorem execTePeriodMissed_keeps {w : Watch} {s : State} {a1} (h : Holds w s) : NextHolds w (execTePeriodMissed a1 s) := by
  unfold execTePeriodMissed
  try dsimp only
  repeat' first
    | with_reducible assumption
    | with_reducible apply nextHolds_next
    | with_reducible exact nextHolds_fault
    | with_reducible exact nextHolds_refused
    | with_reducible apply State.postOut_keeps
    | with_reducible apply State.setF_keeps
    | with_reducible apply State.setOutp_keeps
    | fail_if_no_progress with_reducible refine Holds.mk_of ?_ rfl rfl rfl rfl rfl rfl
    | split

theorem execHpdPlug_keeps {w : Watch} {s : State} {a1} (h : Holds w s) : NextHolds w (execHpdPlug a1 s) := by
  unfold execHpdPlug
  try dsimp only
  repeat' first
    | with_reducible assumption
    | with_reducible apply nextHolds_next
    | with_reducible exact nextHolds_fault
    | with_reducible exact nextHolds_refused
    | with_reducible apply State.postOut_keeps
    | with_reducible apply State.setF_keeps
    | fail_if_no_progress with_reducible refine Holds.mk_of ?_ rfl rfl rfl rfl rfl rfl
    | split

theorem execHpdUnplug_keeps {w : Watch} {s : State} {a1} (h : Holds w s) : NextHolds w (execHpdUnplug a1 s) := by
  unfold execHpdUnplug
  repeat' first
    | with_reducible assumption
    | with_reducible apply nextHolds_next
    | with_reducible exact nextHolds_fault
    | with_reducible exact nextHolds_refused
    | with_reducible apply State.count_keeps
    | with_reducible apply State.postOut_keeps
    | with_reducible apply State.setF_keeps
    | with_reducible apply State.setOutp_keeps
    | fail_if_no_progress with_reducible refine Holds.mk_of ?_ rfl rfl rfl rfl rfl rfl
    | split

theorem execHpdIrq_keeps {w : Watch} {s : State} {a1} (h : Holds w s) : NextHolds w (execHpdIrq a1 s) := by
  unfold execHpdIrq
  try dsimp only
  repeat' first
    | with_reducible assumption
    | with_reducible apply nextHolds_next
    | with_reducible exact nextHolds_fault
    | with_reducible exact nextHolds_refused
    | with_reducible apply State.postOut_keeps
    | fail_if_no_progress with_reducible refine Holds.mk_of ?_ rfl rfl rfl rfl rfl rfl
    | split

theorem auxAnswer_keeps {w : Watch} {s : State} {a1 a2 a3 a4 a5 a6 a7} (h : Holds w s) : Holds w (auxAnswer a1 a2 a3 a4 a5 a6 a7 s) := by
  unfold auxAnswer
  try dsimp only
  repeat' first
    | with_reducible assumption
    | with_reducible apply State.complete_keeps
    | with_reducible apply State.setOutp_keeps
    | fail_if_no_progress with_reducible refine Holds.mk_of ?_ rfl rfl rfl rfl rfl rfl
    | split

theorem effOutAux_keeps {w : Watch} {s : State} {a1 a2 a3 a4 a5} (h : Holds w s) : Holds w (effOutAux a1 a2 a3 a4 a5 s) := by
  unfold effOutAux
  try dsimp only
  repeat' first
    | with_reducible assumption
    | with_reducible apply State.setOutp_keeps
    | with_reducible apply auxAnswer_keeps
    | fail_if_no_progress with_reducible refine Holds.mk_of ?_ rfl rfl rfl rfl rfl rfl
    | split

theorem execOutAux_keeps {w : Watch} {s : State} {a1 a2 a3 a4} (h : Holds w s) : NextHolds w (execOutAux a1 a2 a3 a4 s) := by
  unfold execOutAux
  try dsimp only
  repeat' first
    | with_reducible assumption
    | with_reducible apply nextHolds_next
    | with_reducible exact nextHolds_fault
    | with_reducible exact nextHolds_refused
    | with_reducible apply effOutAux_keeps
    | with_reducible apply runPkt_keeps
    | fail_if_no_progress with_reducible refine Holds.mk_of ?_ rfl rfl rfl rfl rfl rfl
    | split
    | (intro)

theorem State.forgetAux_keeps {w : Watch} {s : State} {a1} (h : Holds w s) : Holds w (State.forgetAux s a1) := by
  unfold State.forgetAux
  try dsimp only
  repeat' first
    | with_reducible assumption
    | fail_if_no_progress with_reducible refine Holds.mk_of ?_ rfl rfl rfl rfl rfl rfl

theorem State.writeAdvance_keeps {w : Watch} {s : State} {a1 a2} (h : Holds w s) : Holds w (State.writeAdvance s a1 a2).1 := by
  unfold State.writeAdvance
  try dsimp only
  repeat' first
    | with_reducible assumption
    | with_reducible apply State.setF_keeps
    | fail_if_no_progress with_reducible refine Holds.mk_of ?_ rfl rfl rfl rfl rfl rfl
    | with_reducible refine foldl_keeps ?_ ?_
    | fail_if_no_progress dsimp only
    | with_reducible refine foldl_keeps_fst ?_ ?_
    | split
    | (intro)

theorem State.writeAdvance_keeps' {u v} {w : Watch} {s : State} {a1 a2} (e : State.writeAdvance s a1 a2 = (u, v)) (h : Holds w s) : Holds w u := by
  have h2 := @State.writeAdvance_keeps w s a1 a2 h
  rw [e] at h2
  exact h2

theorem State.writeTimingReg_keeps {w : Watch} {s : State} {a1 a2 a3} (h : Holds w s) : SomeHolds w (State.writeTimingReg s a1 a2 a3) := by
  unfold State.writeTimingReg
  try dsimp only
  repeat' first
    | with_reducible assumption
    | with_reducible apply someHolds_some
    | with_reducible exact someHolds_none
    | with_reducible apply someHolds_map
    | with_reducible apply someHolds_bind
    | with_reducible apply State.setF_keeps
    | with_reducible apply State.setReg_keeps
    | fail_if_no_progress with_reducible refine Holds.mk_of ?_ rfl rfl rfl rfl rfl rfl
    | with_reducible refine foldl_keeps ?_ ?_
    | split
    | (intro)

end Sys2Proof.Machine
end

