-- ==== Sys2Proof/Laws/KeepsStrongroom.lean ====
section
/-! SUPPORT. What Machine/Strongroom.lean does keeps what is watched. -/

namespace Sys2Proof.Machine

theorem State.setAlert_keeps {w : Watch} {s : State} {a1 a2} (h : Holds w s) : Holds w (State.setAlert s a1 a2) := by
  unfold State.setAlert
  try dsimp only
  repeat' first
    | with_reducible assumption
    | with_reducible apply State.setF_keeps
    | fail_if_no_progress with_reducible refine Holds.mk_of ?_ rfl rfl rfl rfl rfl rfl

theorem State.showChimes_keeps {w : Watch} {s : State} (h : Holds w s) : Holds w (State.showChimes s) := by
  unfold State.showChimes
  try dsimp only
  repeat' first
    | with_reducible assumption
    | with_reducible apply State.setReg_keeps

theorem State.setVoices_keeps {w : Watch} {s : State} {a1 a2} (h : Holds w s) : Holds w (State.setVoices s a1 a2) := by
  unfold State.setVoices
  try dsimp only
  repeat' first
    | with_reducible assumption
    | with_reducible apply State.showChimes_keeps
    | fail_if_no_progress with_reducible refine Holds.mk_of ?_ rfl rfl rfl rfl rfl rfl

theorem State.chimeStart_keeps {w : Watch} {s : State} {a1} (h : Holds w s) : Holds w (State.chimeStart s a1) := by
  unfold State.chimeStart
  try dsimp only
  repeat' first
    | with_reducible assumption
    | with_reducible apply State.setVoices_keeps
    | fail_if_no_progress with_reducible refine Holds.mk_of ?_ rfl rfl rfl rfl rfl rfl
    | split

theorem State.chimeFill_keeps {w : Watch} {s : State} (h : Holds w s) : Holds w (State.chimeFill s) := by
  unfold State.chimeFill
  try dsimp only
  repeat' first
    | with_reducible assumption
    | with_reducible apply State.setVoices_keeps

theorem State.chimeStop_keeps {w : Watch} {s : State} {a1} (h : Holds w s) : Holds w (State.chimeStop s a1) := by
  unfold State.chimeStop
  try dsimp only
  repeat' first
    | with_reducible assumption
    | with_reducible apply State.chimeFill_keeps
    | with_reducible apply State.setVoices_keeps

theorem execChimeVoiceFree_keeps {w : Watch} {s : State} {a1} (h : Holds w s) : NextHolds w (execChimeVoiceFree a1 s) := by
  unfold execChimeVoiceFree
  try dsimp only
  repeat' first
    | with_reducible assumption
    | with_reducible apply nextHolds_next
    | with_reducible exact nextHolds_fault
    | with_reducible exact nextHolds_refused
    | with_reducible apply State.chimeFill_keeps
    | with_reducible apply State.setVoices_keeps
    | fail_if_no_progress with_reducible refine Holds.mk_of ?_ rfl rfl rfl rfl rfl rfl
    | split

theorem State.respond_keeps {w : Watch} {s : State} {a1 a2 a3 a4 a5 a6} (h : Holds w s) : Holds w (State.respond s a1 a2 a3 a4 a5 a6) := by
  unfold State.respond
  try dsimp only
  repeat' first
    | with_reducible assumption
    | with_reducible apply State.chimeStart_keeps
    | with_reducible apply State.post_keeps
    | with_reducible apply State.setAlert_keeps
    | fail_if_no_progress with_reducible refine Holds.mk_of ?_ rfl rfl rfl rfl rfl rfl
    | with_reducible refine foldl_keeps ?_ ?_
    | split
    | (intro)

theorem State.endResponse_keeps {w : Watch} {s : State} {a1 a2 a3} (h : Holds w s) : Holds w (State.endResponse s a1 a2 a3) := by
  unfold State.endResponse
  try dsimp only
  repeat' first
    | with_reducible assumption
    | with_reducible apply State.chimeStop_keeps
    | with_reducible apply State.setAlert_keeps
    | fail_if_no_progress with_reducible refine Holds.mk_of ?_ rfl rfl rfl rfl rfl rfl
    | split

theorem State.takeOutcome_keeps {w : Watch} {s : State} {a1 a2 a3} (h : Holds w s) : Holds w (State.takeOutcome s a1 a2 a3) := by
  unfold State.takeOutcome
  try dsimp only
  repeat' first
    | with_reducible assumption
    | with_reducible apply State.endResponse_keeps
    | with_reducible apply State.post_keeps
    | with_reducible apply State.postMgr_keeps
    | with_reducible apply State.record_keeps
    | with_reducible apply State.respond_keeps
    | with_reducible apply State.setBit_keeps
    | with_reducible apply State.writeExpected_keeps
    | fail_if_no_progress with_reducible refine Holds.mk_of ?_ rfl rfl rfl rfl rfl rfl
    | with_reducible refine foldl_keeps ?_ ?_
    | split
    | (intro)

theorem State.escalate_keeps {w : Watch} {s : State} {a1 a2 a3} (h : Holds w s) : Holds w (State.escalate s a1 a2 a3) := by
  unfold State.escalate
  try dsimp only
  repeat' first
    | with_reducible assumption
    | with_reducible apply State.postMgr_keeps
    | with_reducible apply State.respond_keeps
    | with_reducible apply State.setBit_keeps
    | with_reducible apply State.setWin_keeps

theorem State.settleEscalation_keeps {w : Watch} {s : State} {a1 a2} (h : Holds w s) : Holds w (State.settleEscalation s a1 a2) := by
  unfold State.settleEscalation
  try dsimp only
  repeat' first
    | with_reducible assumption
    | with_reducible apply State.endResponse_keeps
    | with_reducible apply State.postMgr_keeps
    | with_reducible apply State.setBit_keeps
    | fail_if_no_progress with_reducible refine Holds.mk_of ?_ rfl rfl rfl rfl rfl rfl
    | split

theorem State.setGpc_keeps {w : Watch} {s : State} {a1 a2} (h : Holds w s) : Holds w (State.setGpc s a1 a2) := by
  unfold State.setGpc
  try dsimp only
  repeat' first
    | with_reducible assumption
    | fail_if_no_progress with_reducible refine Holds.mk_of ?_ rfl rfl rfl rfl rfl rfl

theorem execGpcOutcome_keeps {w : Watch} {s : State} {a1 a2} (h : Holds w s) : NextHolds w (execGpcOutcome a1 a2 s) := by
  unfold execGpcOutcome
  try dsimp only
  repeat' first
    | with_reducible assumption
    | with_reducible apply nextHolds_next
    | with_reducible exact nextHolds_fault
    | with_reducible exact nextHolds_refused
    | with_reducible apply State.count_keeps
    | with_reducible apply State.postMgr_keeps
    | with_reducible apply State.setF_keeps
    | with_reducible apply State.setGpc_keeps
    | with_reducible apply State.setReg_keeps
    | with_reducible apply State.takeOutcome_keeps
    | fail_if_no_progress with_reducible refine Holds.mk_of ?_ rfl rfl rfl rfl rfl rfl
    | split

theorem State.postBoth_keeps {w : Watch} {s : State} {a1 a2 a3 a4 a5 a6} (h : Holds w s) : Holds w (State.postBoth s a1 a2 a3 a4 a5 a6) := by
  unfold State.postBoth
  try dsimp only
  repeat' first
    | with_reducible assumption
    | with_reducible apply State.postOwner_keeps
    | fail_if_no_progress with_reducible refine Holds.mk_of ?_ rfl rfl rfl rfl rfl rfl
    | split

theorem State.winAct_keeps {w : Watch} {s : State} {a1 a2 a3 a4 a5} (h : Holds w s) : Holds w (State.winAct s a1 a2 a3 a4 a5) := by
  unfold State.winAct
  try dsimp only
  repeat' first
    | with_reducible assumption
    | with_reducible apply State.escalate_keeps
    | with_reducible apply State.postBoth_keeps
    | with_reducible apply State.setF_keeps
    | with_reducible apply State.setWin_keeps
    | fail_if_no_progress with_reducible refine Holds.mk_of ?_ rfl rfl rfl rfl rfl rfl
    | split

theorem execWindowOutcome_keeps {w : Watch} {s : State} {a1 a2} (h : Holds w s) : NextHolds w (execWindowOutcome a1 a2 s) := by
  unfold execWindowOutcome
  try dsimp only
  repeat' first
    | with_reducible assumption
    | with_reducible apply nextHolds_next
    | with_reducible exact nextHolds_fault
    | with_reducible exact nextHolds_refused
    | with_reducible apply State.clearFails_keeps
    | with_reducible apply State.count_keeps
    | with_reducible apply State.countF_keeps
    | with_reducible apply State.postBoth_keeps
    | with_reducible apply State.setF_keeps
    | with_reducible apply State.setReg_keeps
    | with_reducible apply State.setWin_keeps
    | with_reducible apply State.settleEscalation_keeps
    | with_reducible apply State.winAct_keeps
    | fail_if_no_progress with_reducible refine Holds.mk_of ?_ rfl rfl rfl rfl rfl rfl
    | split

theorem strgPkt_keeps {w : Watch} {s : State} {a1 a2 a3 f} (h : Holds w s) (hf : ∀ p t, Holds w t → Holds w (f p t)) : Holds w (strgPkt a1 a2 s a3 f) := by
  unfold strgPkt
  try dsimp only
  repeat' first
    | with_reducible assumption
    | with_reducible apply hf
    | with_reducible apply State.complete_keeps
    | with_reducible apply State.letIn_keeps
    | with_reducible apply State.readBlock_keeps
    | with_reducible apply runPkt_keeps
    | fail_if_no_progress with_reducible refine Holds.mk_of ?_ rfl rfl rfl rfl rfl rfl
    | split

theorem effStrgGetInfo_keeps {w : Watch} {s : State} {a1 a2} (h : Holds w s) : Holds w (effStrgGetInfo a1 a2 s) := by
  unfold effStrgGetInfo
  try dsimp only
  repeat' first
    | with_reducible assumption
    | with_reducible apply State.complete_keeps

theorem execStrgGetInfo_keeps {w : Watch} {s : State} {a1} (h : Holds w s) : NextHolds w (execStrgGetInfo a1 s) := by
  unfold execStrgGetInfo
  try dsimp only
  repeat' first
    | with_reducible assumption
    | with_reducible apply nextHolds_next
    | with_reducible exact nextHolds_fault
    | with_reducible exact nextHolds_refused
    | with_reducible apply effStrgGetInfo_keeps
    | with_reducible apply strgPkt_keeps
    | fail_if_no_progress with_reducible refine Holds.mk_of ?_ rfl rfl rfl rfl rfl rfl
    | split
    | (intro)

theorem effStrgSetTelltale_keeps {w : Watch} {s : State} {a1 a2} (h : Holds w s) : Holds w (effStrgSetTelltale a1 a2 s) := by
  unfold effStrgSetTelltale
  try dsimp only
  repeat' first
    | with_reducible assumption
    | with_reducible apply State.writeExpected_keeps
    | fail_if_no_progress with_reducible refine Holds.mk_of ?_ rfl rfl rfl rfl rfl rfl
    | with_reducible refine foldl_keeps ?_ ?_
    | split

theorem execStrgSetTelltale_keeps {w : Watch} {s : State} {a1} (h : Holds w s) : NextHolds w (execStrgSetTelltale a1 s) := by
  unfold execStrgSetTelltale
  try dsimp only
  repeat' first
    | with_reducible assumption
    | with_reducible apply nextHolds_next
    | with_reducible exact nextHolds_fault
    | with_reducible exact nextHolds_refused
    | with_reducible apply effStrgSetTelltale_keeps
    | with_reducible apply strgPkt_keeps
    | fail_if_no_progress with_reducible refine Holds.mk_of ?_ rfl rfl rfl rfl rfl rfl
    | split
    | (intro)

theorem State.forgetTelltales_keeps {w : Watch} {s : State} {a1} (h : Holds w s) : Holds w (State.forgetTelltales s a1) := by
  unfold State.forgetTelltales
  try dsimp only
  repeat' first
    | with_reducible assumption
    | fail_if_no_progress with_reducible refine Holds.mk_of ?_ rfl rfl rfl rfl rfl rfl

theorem State.failTelltale_keeps {w : Watch} {s : State} {a1} (h : Holds w s) : Holds w (State.failTelltale s a1) := by
  unfold State.failTelltale
  try dsimp only
  repeat' first
    | with_reducible assumption
    | with_reducible apply State.writeExpected_keeps
    | fail_if_no_progress with_reducible refine Holds.mk_of ?_ rfl rfl rfl rfl rfl rfl
    | split

theorem State.loseController_keeps {w : Watch} {s : State} {a1} (h : Holds w s) : Holds w (State.loseController s a1) := by
  unfold State.loseController
  try dsimp only
  repeat' first
    | with_reducible assumption
    | with_reducible apply State.failTelltale_keeps
    | fail_if_no_progress with_reducible refine Holds.mk_of ?_ rfl rfl rfl rfl rfl rfl
    | with_reducible refine foldl_keeps ?_ ?_
    | split
    | (intro)

theorem execTelltaleRefreshExpiry_keeps {w : Watch} {s : State} {a1} (h : Holds w s) : NextHolds w (execTelltaleRefreshExpiry a1 s) := by
  unfold execTelltaleRefreshExpiry
  try dsimp only
  repeat' first
    | with_reducible assumption
    | with_reducible apply nextHolds_next
    | with_reducible exact nextHolds_fault
    | with_reducible exact nextHolds_refused
    | with_reducible apply State.failTelltale_keeps
    | fail_if_no_progress with_reducible refine Holds.mk_of ?_ rfl rfl rfl rfl rfl rfl
    | split

theorem execBlinkPhaseUpdate_keeps {w : Watch} {s : State} {a1} (h : Holds w s) : NextHolds w (execBlinkPhaseUpdate a1 s) := by
  unfold execBlinkPhaseUpdate
  try dsimp only
  repeat' first
    | with_reducible assumption
    | with_reducible apply nextHolds_next
    | with_reducible exact nextHolds_fault
    | with_reducible exact nextHolds_refused
    | with_reducible apply State.writeExpected_keeps

theorem State.putTelltale_keeps {w : Watch} {s : State} {a1 a2 a3} (h : Holds w s) : Holds w (State.putTelltale s a1 a2 a3) := by
  unfold State.putTelltale
  try dsimp only
  repeat' first
    | with_reducible assumption
    | with_reducible apply State.setF_keeps

theorem State.latchTelltales_keeps {w : Watch} {s : State} {a1 a2} (h : Holds w s) : Holds w (State.latchTelltales s a1 a2) := by
  unfold State.latchTelltales
  try dsimp only
  repeat' first
    | with_reducible assumption
    | with_reducible apply State.complete_keeps
    | with_reducible apply State.post_keeps
    | with_reducible apply State.postMgr_keeps
    | with_reducible apply State.putTelltale_keeps
    | fail_if_no_progress with_reducible refine Holds.mk_of ?_ rfl rfl rfl rfl rfl rfl
    | with_reducible refine foldl_keeps ?_ ?_
    | split
    | (intro)

theorem State.latchCheckers_keeps {w : Watch} {s : State} {a1 a2} (h : Holds w s) : Holds w (State.latchCheckers s a1 a2) := by
  unfold State.latchCheckers
  try dsimp only
  repeat' first
    | with_reducible assumption
    | with_reducible apply State.setGpc_keeps
    | with_reducible apply State.writeExpected_keeps
    | fail_if_no_progress with_reducible refine Holds.mk_of ?_ rfl rfl rfl rfl rfl rfl
    | split

theorem State.feedChecker_keeps {w : Watch} {s : State} {a1 a2 a3 a4} (h : Holds w s) : Holds w (State.feedChecker s a1 a2 a3 a4) := by
  unfold State.feedChecker
  try dsimp only
  repeat' first
    | with_reducible assumption
    | with_reducible apply State.count_keeps
    | with_reducible apply State.setGpc_keeps
    | fail_if_no_progress with_reducible refine Holds.mk_of ?_ rfl rfl rfl rfl rfl rfl
    | split

theorem State.startChecking_keeps {w : Watch} {s : State} {a1} (h : Holds w s) : Holds w (State.startChecking s a1) := by
  unfold State.startChecking
  try dsimp only
  repeat' first
    | with_reducible assumption
    | with_reducible apply State.setGpc_keeps

theorem effStrgChime_keeps {w : Watch} {s : State} {a1 a2} (h : Holds w s) : Holds w (effStrgChime a1 a2 s) := by
  unfold effStrgChime
  try dsimp only
  repeat' first
    | with_reducible assumption
    | with_reducible apply State.chimeStart_keeps
    | with_reducible apply State.chimeStop_keeps
    | with_reducible apply State.complete_keeps
    | fail_if_no_progress with_reducible refine Holds.mk_of ?_ rfl rfl rfl rfl rfl rfl
    | split

theorem execStrgChime_keeps {w : Watch} {s : State} {a1} (h : Holds w s) : NextHolds w (execStrgChime a1 s) := by
  unfold execStrgChime
  try dsimp only
  repeat' first
    | with_reducible assumption
    | with_reducible apply nextHolds_next
    | with_reducible exact nextHolds_fault
    | with_reducible exact nextHolds_refused
    | with_reducible apply effStrgChime_keeps
    | with_reducible apply strgPkt_keeps
    | fail_if_no_progress with_reducible refine Holds.mk_of ?_ rfl rfl rfl rfl rfl rfl
    | split
    | (intro)

theorem effStrgKeyLoad_keeps {w : Watch} {s : State} {a1 a2} (h : Holds w s) : Holds w (effStrgKeyLoad a1 a2 s) := by
  unfold effStrgKeyLoad
  try dsimp only
  repeat' first
    | with_reducible assumption
    | with_reducible apply State.complete_keeps
    | with_reducible apply State.noteRead_keeps
    | fail_if_no_progress with_reducible refine Holds.mk_of ?_ rfl rfl rfl rfl rfl rfl
    | split

theorem execStrgKeyLoad_keeps {w : Watch} {s : State} {a1} (h : Holds w s) : NextHolds w (execStrgKeyLoad a1 s) := by
  unfold execStrgKeyLoad
  try dsimp only
  repeat' first
    | with_reducible assumption
    | with_reducible apply nextHolds_next
    | with_reducible exact nextHolds_fault
    | with_reducible exact nextHolds_refused
    | with_reducible apply effStrgKeyLoad_keeps
    | with_reducible apply strgPkt_keeps
    | fail_if_no_progress with_reducible refine Holds.mk_of ?_ rfl rfl rfl rfl rfl rfl
    | split
    | (intro)

theorem effStrgPermitTiming_keeps {w : Watch} {s : State} {a1 a2} (h : Holds w s) : Holds w (effStrgPermitTiming a1 a2 s) := by
  unfold effStrgPermitTiming
  try dsimp only
  repeat' first
    | with_reducible assumption
    | with_reducible apply State.complete_keeps
    | with_reducible apply State.setF_keeps
    | fail_if_no_progress with_reducible refine Holds.mk_of ?_ rfl rfl rfl rfl rfl rfl

theorem execStrgPermitTiming_keeps {w : Watch} {s : State} {a1} (h : Holds w s) : NextHolds w (execStrgPermitTiming a1 s) := by
  unfold execStrgPermitTiming
  try dsimp only
  repeat' first
    | with_reducible assumption
    | with_reducible apply nextHolds_next
    | with_reducible exact nextHolds_fault
    | with_reducible exact nextHolds_refused
    | with_reducible apply effStrgPermitTiming_keeps
    | with_reducible apply strgPkt_keeps
    | fail_if_no_progress with_reducible refine Holds.mk_of ?_ rfl rfl rfl rfl rfl rfl
    | split
    | (intro)

theorem execPermitExpiry_keeps {w : Watch} {s : State} {a1} (h : Holds w s) : NextHolds w (execPermitExpiry a1 s) := by
  unfold execPermitExpiry
  try dsimp only
  repeat' first
    | with_reducible assumption
    | with_reducible apply nextHolds_next
    | with_reducible exact nextHolds_fault
    | with_reducible exact nextHolds_refused
    | with_reducible apply State.dropPermit_keeps
    | fail_if_no_progress with_reducible refine Holds.mk_of ?_ rfl rfl rfl rfl rfl rfl
    | split

end Sys2Proof.Machine
end

