-- ==== Sys2Proof/Laws/KeepsHaptics.lean ====
section
/-! SUPPORT. What Machine/Haptics.lean does keeps what is watched. -/

namespace Sys2Proof.Machine

theorem State.showHap_keeps {w : Watch} {s : State} {a1} (h : Holds w s) : Holds w (State.showHap s a1) := by
  unfold State.showHap
  try dsimp only
  repeat' first
    | with_reducible assumption
    | with_reducible apply State.setF_keeps

theorem State.setHap_keeps {w : Watch} {s : State} {a1 a2} (h : Holds w s) : Holds w (State.setHap s a1 a2) := by
  unfold State.setHap
  try dsimp only
  repeat' first
    | with_reducible assumption
    | with_reducible apply State.showHap_keeps
    | fail_if_no_progress with_reducible refine Holds.mk_of ?_ rfl rfl rfl rfl rfl rfl

theorem State.settleBoost_keeps {w : Watch} {s : State} (h : Holds w s) : Holds w (State.settleBoost s) := by
  unfold State.settleBoost
  try dsimp only
  repeat' first
    | with_reducible assumption
    | with_reducible apply State.fresh_keeps
    | with_reducible refine State.fresh_keeps' (by assumption) ?_
    | with_reducible apply State.setF_keeps
    | fail_if_no_progress with_reducible refine Holds.mk_of ?_ rfl rfl rfl rfl rfl rfl
    | split

theorem execBoostUp_keeps {w : Watch} {s : State} (h : Holds w s) : NextHolds w (execBoostUp s) := by
  unfold execBoostUp
  try dsimp only
  repeat' first
    | with_reducible assumption
    | with_reducible apply nextHolds_next
    | with_reducible exact nextHolds_fault
    | with_reducible exact nextHolds_refused
    | with_reducible apply State.setF_keeps
    | fail_if_no_progress with_reducible refine Holds.mk_of ?_ rfl rfl rfl rfl rfl rfl
    | split

theorem execVhvSag_keeps {w : Watch} {s : State} {a1} (h : Holds w s) : NextHolds w (execVhvSag a1 s) := by
  unfold execVhvSag
  try dsimp only
  repeat' first
    | with_reducible assumption
    | with_reducible apply nextHolds_next
    | with_reducible exact nextHolds_fault
    | with_reducible exact nextHolds_refused
    | with_reducible apply State.postMgr_keeps
    | with_reducible apply State.setF_keeps
    | fail_if_no_progress with_reducible refine Holds.mk_of ?_ rfl rfl rfl rfl rfl rfl
    | split

theorem execVhvSagEnd_keeps {w : Watch} {s : State} {a1} (h : Holds w s) : NextHolds w (execVhvSagEnd a1 s) := by
  unfold execVhvSagEnd
  try dsimp only
  repeat' first
    | with_reducible assumption
    | with_reducible apply nextHolds_next
    | with_reducible exact nextHolds_fault
    | with_reducible exact nextHolds_refused
    | with_reducible apply State.setF_keeps
    | fail_if_no_progress with_reducible refine Holds.mk_of ?_ rfl rfl rfl rfl rfl rfl
    | split

theorem State.endPending_keeps {w : Watch} {s : State} {a1 a2 a3} (h : Holds w s) : Holds w (State.endPending s a1 a2 a3) := by
  unfold State.endPending
  try dsimp only
  repeat' first
    | with_reducible assumption
    | with_reducible apply State.complete_keeps
    | with_reducible apply State.setHap_keeps
    | fail_if_no_progress with_reducible refine Holds.mk_of ?_ rfl rfl rfl rfl rfl rfl
    | split

theorem State.endEffect_keeps {w : Watch} {s : State} {a1 a2} (h : Holds w s) : Holds w (State.endEffect s a1 a2) := by
  unfold State.endEffect
  try dsimp only
  repeat' first
    | with_reducible assumption
    | with_reducible apply State.complete_keeps
    | with_reducible apply State.setHap_keeps
    | fail_if_no_progress with_reducible refine Holds.mk_of ?_ rfl rfl rfl rfl rfl rfl
    | with_reducible refine foldl_keeps ?_ ?_
    | split
    | (intro)

theorem State.brakePassively_keeps {w : Watch} {s : State} {a1} (h : Holds w s) : Holds w (State.brakePassively s a1) := by
  unfold State.brakePassively
  try dsimp only
  repeat' first
    | with_reducible assumption
    | with_reducible apply State.fresh_keeps
    | with_reducible refine State.fresh_keeps' (by assumption) ?_
    | with_reducible apply State.setHap_keeps
    | fail_if_no_progress with_reducible refine Holds.mk_of ?_ rfl rfl rfl rfl rfl rfl
    | split

theorem State.clearCal_keeps {w : Watch} {s : State} {a1} (h : Holds w s) : Holds w (State.clearCal s a1) := by
  unfold State.clearCal
  try dsimp only
  repeat' first
    | with_reducible assumption
    | with_reducible apply State.setF_keeps
    | with_reducible apply State.setHap_keeps
    | with_reducible apply State.setReg_keeps

theorem State.hapOwnerChange_keeps {w : Watch} {s : State} {a1} (h : Holds w s) : Holds w (State.hapOwnerChange s a1) := by
  unfold State.hapOwnerChange
  try dsimp only
  repeat' first
    | with_reducible assumption
    | with_reducible apply State.brakePassively_keeps
    | with_reducible apply State.clearCal_keeps
    | with_reducible apply State.endPending_keeps
    | with_reducible apply State.fresh_keeps
    | with_reducible refine State.fresh_keeps' (by assumption) ?_
    | with_reducible apply State.setF_keeps
    | with_reducible apply State.setHap_keeps
    | with_reducible apply State.setReg_keeps
    | with_reducible apply State.settleBoost_keeps

theorem State.dropHaptics_keeps {w : Watch} {s : State} (h : Holds w s) : Holds w (State.dropHaptics s) := by
  unfold State.dropHaptics
  try dsimp only
  repeat' first
    | with_reducible assumption
    | with_reducible apply State.brakePassively_keeps
    | with_reducible apply State.endEffect_keeps
    | with_reducible apply State.endPending_keeps
    | with_reducible apply State.settleBoost_keeps
    | fail_if_no_progress with_reducible refine Holds.mk_of ?_ rfl rfl rfl rfl rfl rfl
    | with_reducible refine foldl_keeps ?_ ?_
    | split
    | (intro)

theorem execVhaptLoss_keeps {w : Watch} {s : State} {a1} (h : Holds w s) : NextHolds w (execVhaptLoss a1 s) := by
  unfold execVhaptLoss
  try dsimp only
  repeat' first
    | with_reducible assumption
    | with_reducible apply nextHolds_next
    | with_reducible exact nextHolds_fault
    | with_reducible exact nextHolds_refused
    | with_reducible apply State.brakePassively_keeps
    | with_reducible apply State.endPending_keeps
    | with_reducible apply State.postMgr_keeps
    | with_reducible apply State.setF_keeps
    | with_reducible apply State.settleBoost_keeps
    | fail_if_no_progress with_reducible refine Holds.mk_of ?_ rfl rfl rfl rfl rfl rfl
    | with_reducible refine foldl_keeps ?_ ?_
    | split
    | (intro)

theorem execVhaptRestored_keeps {w : Watch} {s : State} {a1} (h : Holds w s) : NextHolds w (execVhaptRestored a1 s) := by
  unfold execVhaptRestored
  try dsimp only
  repeat' first
    | with_reducible assumption
    | with_reducible apply nextHolds_next
    | with_reducible exact nextHolds_fault
    | with_reducible exact nextHolds_refused
    | with_reducible apply State.setF_keeps
    | fail_if_no_progress with_reducible refine Holds.mk_of ?_ rfl rfl rfl rfl rfl rfl
    | split

theorem effHapSetChannel_keeps {w : Watch} {s : State} {a1 a2} (h : Holds w s) : Holds w (effHapSetChannel a1 a2 s) := by
  unfold effHapSetChannel
  try dsimp only
  repeat' first
    | with_reducible assumption
    | with_reducible apply State.clearCal_keeps
    | with_reducible apply State.complete_keeps
    | with_reducible apply State.fresh_keeps
    | with_reducible refine State.fresh_keeps' (by assumption) ?_
    | with_reducible apply State.setF_keeps
    | with_reducible apply State.setHap_keeps
    | with_reducible apply State.setReg_keeps
    | with_reducible apply State.settleBoost_keeps
    | with_reducible apply State.showHap_keeps
    | fail_if_no_progress with_reducible refine Holds.mk_of ?_ rfl rfl rfl rfl rfl rfl
    | split

theorem execHapSetChannel_keeps {w : Watch} {s : State} {a1} (h : Holds w s) : NextHolds w (execHapSetChannel a1 s) := by
  unfold execHapSetChannel
  try dsimp only
  repeat' first
    | with_reducible assumption
    | with_reducible apply nextHolds_next
    | with_reducible exact nextHolds_fault
    | with_reducible exact nextHolds_refused
    | with_reducible apply effHapSetChannel_keeps
    | with_reducible apply runPkt_keeps
    | fail_if_no_progress with_reducible refine Holds.mk_of ?_ rfl rfl rfl rfl rfl rfl
    | split
    | (intro)

theorem State.copyToWake_keeps {w : Watch} {s : State} {a1 a2 a3} (h : Holds w s) : Holds w (State.copyToWake s a1 a2 a3) := by
  unfold State.copyToWake
  try dsimp only
  repeat' first
    | with_reducible assumption
    | fail_if_no_progress with_reducible refine Holds.mk_of ?_ rfl rfl rfl rfl rfl rfl

theorem effHapLoadEffect_keeps {w : Watch} {s : State} {a1 a2} (h : Holds w s) : Holds w (effHapLoadEffect a1 a2 s) := by
  unfold effHapLoadEffect
  try dsimp only
  repeat' first
    | with_reducible assumption
    | with_reducible apply State.complete_keeps
    | with_reducible apply State.copyToWake_keeps
    | with_reducible apply State.noteRead_keeps
    | with_reducible apply State.setHap_keeps

theorem execHapLoadEffect_keeps {w : Watch} {s : State} {a1} (h : Holds w s) : NextHolds w (execHapLoadEffect a1 s) := by
  unfold execHapLoadEffect
  try dsimp only
  repeat' first
    | with_reducible assumption
    | with_reducible apply nextHolds_next
    | with_reducible exact nextHolds_fault
    | with_reducible exact nextHolds_refused
    | with_reducible apply effHapLoadEffect_keeps
    | with_reducible apply runPkt_keeps
    | fail_if_no_progress with_reducible refine Holds.mk_of ?_ rfl rfl rfl rfl rfl rfl
    | split
    | (intro)

theorem State.dropTrigger_keeps {w : Watch} {s : State} {a1} (h : Holds w s) : Holds w (State.dropTrigger s a1) := by
  unfold State.dropTrigger
  try dsimp only
  repeat' first
    | with_reducible assumption
    | with_reducible apply State.count_keeps

theorem State.hapQueue_keeps {w : Watch} {s : State} {a1 a2 a3 a4} (h : Holds w s) : Holds w (State.hapQueue s a1 a2 a3 a4) := by
  unfold State.hapQueue
  try dsimp only
  repeat' first
    | with_reducible assumption
    | with_reducible apply State.dropTrigger_keeps
    | with_reducible apply State.endPending_keeps
    | with_reducible apply State.setHap_keeps
    | fail_if_no_progress with_reducible refine Holds.mk_of ?_ rfl rfl rfl rfl rfl rfl
    | split

theorem State.hapTrigger_keeps {w : Watch} {s : State} {a1 a2} (h : Holds w s) : Holds w (State.hapTrigger s a1 a2) := by
  unfold State.hapTrigger
  try dsimp only
  repeat' first
    | with_reducible assumption
    | with_reducible apply State.dropTrigger_keeps
    | with_reducible apply State.hapQueue_keeps
    | fail_if_no_progress with_reducible refine Holds.mk_of ?_ rfl rfl rfl rfl rfl rfl
    | split

theorem effHapPlay_keeps {w : Watch} {s : State} {a1 a2} (h : Holds w s) : Holds w (effHapPlay a1 a2 s) := by
  unfold effHapPlay
  try dsimp only
  repeat' first
    | with_reducible assumption
    | with_reducible apply State.hapQueue_keeps
    | fail_if_no_progress with_reducible refine Holds.mk_of ?_ rfl rfl rfl rfl rfl rfl
    | split

theorem execHapPlay_keeps {w : Watch} {s : State} {a1} (h : Holds w s) : NextHolds w (execHapPlay a1 s) := by
  unfold execHapPlay
  try dsimp only
  repeat' first
    | with_reducible assumption
    | with_reducible apply nextHolds_next
    | with_reducible exact nextHolds_fault
    | with_reducible exact nextHolds_refused
    | with_reducible apply effHapPlay_keeps
    | with_reducible apply runPkt_keeps
    | fail_if_no_progress with_reducible refine Holds.mk_of ?_ rfl rfl rfl rfl rfl rfl
    | split
    | (intro)

theorem effHapStop_keeps {w : Watch} {s : State} {a1 a2} (h : Holds w s) : Holds w (effHapStop a1 a2 s) := by
  unfold effHapStop
  try dsimp only
  repeat' first
    | with_reducible assumption
    | with_reducible apply State.commit_keeps
    | with_reducible apply State.complete_keeps
    | with_reducible apply State.endPending_keeps
    | with_reducible apply State.setHap_keeps
    | fail_if_no_progress with_reducible refine Holds.mk_of ?_ rfl rfl rfl rfl rfl rfl
    | split

theorem execHapStop_keeps {w : Watch} {s : State} {a1} (h : Holds w s) : NextHolds w (execHapStop a1 s) := by
  unfold execHapStop
  try dsimp only
  repeat' first
    | with_reducible assumption
    | with_reducible apply nextHolds_next
    | with_reducible exact nextHolds_fault
    | with_reducible exact nextHolds_refused
    | with_reducible apply effHapStop_keeps
    | with_reducible apply runPkt_keeps
    | fail_if_no_progress with_reducible refine Holds.mk_of ?_ rfl rfl rfl rfl rfl rfl
    | split
    | (intro)

theorem effHapCalibrate_keeps {w : Watch} {s : State} {a1 a2} (h : Holds w s) : Holds w (effHapCalibrate a1 a2 s) := by
  unfold effHapCalibrate
  try dsimp only
  repeat' first
    | with_reducible assumption
    | with_reducible apply State.commit_keeps
    | with_reducible apply State.setHap_keeps

theorem execHapCalibrate_keeps {w : Watch} {s : State} {a1} (h : Holds w s) : NextHolds w (execHapCalibrate a1 s) := by
  unfold execHapCalibrate
  try dsimp only
  repeat' first
    | with_reducible assumption
    | with_reducible apply nextHolds_next
    | with_reducible exact nextHolds_fault
    | with_reducible exact nextHolds_refused
    | with_reducible apply effHapCalibrate_keeps
    | with_reducible apply runPkt_keeps
    | fail_if_no_progress with_reducible refine Holds.mk_of ?_ rfl rfl rfl rfl rfl rfl
    | split
    | (intro)

theorem State.forgetHaptics_keeps {w : Watch} {s : State} {a1} (h : Holds w s) : Holds w (State.forgetHaptics s a1) := by
  unfold State.forgetHaptics
  try dsimp only
  repeat' first
    | with_reducible assumption
    | with_reducible apply State.setHap_keeps
    | fail_if_no_progress with_reducible refine Holds.mk_of ?_ rfl rfl rfl rfl rfl rfl
    | with_reducible refine foldl_keeps ?_ ?_
    | split
    | (intro)

theorem State.wakePlay_keeps {w : Watch} {s : State} {a1 a2 a3} (h : Holds w s) : Holds w (State.wakePlay s a1 a2 a3) := by
  unfold State.wakePlay
  try dsimp only
  repeat' first
    | with_reducible assumption
    | with_reducible apply State.setHap_keeps
    | with_reducible apply State.setReg64_keeps
    | fail_if_no_progress with_reducible refine Holds.mk_of ?_ rfl rfl rfl rfl rfl rfl
    | split

end Sys2Proof.Machine
end

