-- ==== Sys2Proof/Laws/KeepsTouch.lean ====
section
/-! SUPPORT. What Machine/Touch.lean does keeps what is watched. -/

namespace Sys2Proof.Machine

theorem State.showTouch_keeps {w : Watch} {s : State} {a1} (h : Holds w s) : Holds w (State.showTouch s a1) := by
  unfold State.showTouch
  try dsimp only
  repeat' first
    | with_reducible assumption
    | with_reducible apply State.setF_keeps

theorem State.setTctl_keeps {w : Watch} {s : State} {a1 a2} (h : Holds w s) : Holds w (State.setTctl s a1 a2) := by
  unfold State.setTctl
  try dsimp only
  repeat' first
    | with_reducible assumption
    | with_reducible apply State.showTouch_keeps
    | fail_if_no_progress with_reducible refine Holds.mk_of ?_ rfl rfl rfl rfl rfl rfl

theorem effTchSetPanel_keeps {w : Watch} {s : State} {a1 a2} (h : Holds w s) : Holds w (effTchSetPanel a1 a2 s) := by
  unfold effTchSetPanel
  try dsimp only
  repeat' first
    | with_reducible assumption
    | with_reducible apply State.complete_keeps
    | with_reducible apply State.setTctl_keeps

theorem execTchSetPanel_keeps {w : Watch} {s : State} {a1} (h : Holds w s) : NextHolds w (execTchSetPanel a1 s) := by
  unfold execTchSetPanel
  try dsimp only
  repeat' first
    | with_reducible assumption
    | with_reducible apply nextHolds_next
    | with_reducible exact nextHolds_fault
    | with_reducible exact nextHolds_refused
    | with_reducible apply effTchSetPanel_keeps
    | with_reducible apply runPkt_keeps
    | fail_if_no_progress with_reducible refine Holds.mk_of ?_ rfl rfl rfl rfl rfl rfl
    | split
    | (intro)

theorem State.setRegion_keeps {w : Watch} {s : State} {a1 a2} (h : Holds w s) : Holds w (State.setRegion s a1 a2) := by
  unfold State.setRegion
  try dsimp only
  repeat' first
    | with_reducible assumption
    | fail_if_no_progress with_reducible refine Holds.mk_of ?_ rfl rfl rfl rfl rfl rfl

theorem effTchSetRegion_keeps {w : Watch} {s : State} {a1 a2} (h : Holds w s) : Holds w (effTchSetRegion a1 a2 s) := by
  unfold effTchSetRegion
  try dsimp only
  repeat' first
    | with_reducible assumption
    | with_reducible apply State.setRegion_keeps
    | fail_if_no_progress with_reducible refine Holds.mk_of ?_ rfl rfl rfl rfl rfl rfl
    | split

theorem execTchSetRegion_keeps {w : Watch} {s : State} {a1} (h : Holds w s) : NextHolds w (execTchSetRegion a1 s) := by
  unfold execTchSetRegion
  try dsimp only
  repeat' first
    | with_reducible assumption
    | with_reducible apply nextHolds_next
    | with_reducible exact nextHolds_fault
    | with_reducible exact nextHolds_refused
    | with_reducible apply effTchSetRegion_keeps
    | with_reducible apply runPkt_keeps
    | fail_if_no_progress with_reducible refine Holds.mk_of ?_ rfl rfl rfl rfl rfl rfl
    | split
    | (intro)

theorem State.orphanContacts_keeps {w : Watch} {s : State} {a1 a2 a3} (h : Holds w s) : Holds w (State.orphanContacts s a1 a2 a3) := by
  unfold State.orphanContacts
  try dsimp only
  repeat' first
    | with_reducible assumption
    | with_reducible apply State.setTctl_keeps

theorem State.freeRegion_keeps {w : Watch} {s : State} {a1} (h : Holds w s) : Holds w (State.freeRegion s a1) := by
  unfold State.freeRegion
  try dsimp only
  repeat' first
    | with_reducible assumption
    | with_reducible apply State.orphanContacts_keeps
    | with_reducible apply State.setReg_keeps
    | with_reducible apply State.setRegion_keeps
    | fail_if_no_progress with_reducible refine Holds.mk_of ?_ rfl rfl rfl rfl rfl rfl
    | split

theorem State.applyRegion_keeps {w : Watch} {s : State} {a1 a2} (h : Holds w s) : Holds w (State.applyRegion s a1 a2) := by
  unfold State.applyRegion
  try dsimp only
  repeat' first
    | with_reducible assumption
    | with_reducible apply State.complete_keeps
    | with_reducible apply State.freeRegion_keeps
    | with_reducible apply State.setF_keeps
    | with_reducible apply State.setReg_keeps
    | with_reducible apply State.setRegion_keeps
    | fail_if_no_progress with_reducible refine Holds.mk_of ?_ rfl rfl rfl rfl rfl rfl
    | split

theorem State.applyRegions_keeps {w : Watch} {s : State} {a1} (h : Holds w s) : Holds w (State.applyRegions s a1) := by
  unfold State.applyRegions
  try dsimp only
  repeat' first
    | with_reducible assumption
    | with_reducible apply State.applyRegion_keeps
    | fail_if_no_progress with_reducible refine Holds.mk_of ?_ rfl rfl rfl rfl rfl rfl
    | with_reducible refine foldl_keeps ?_ ?_
    | split
    | (intro)

theorem State.dropRegions_keeps {w : Watch} {s : State} {a1} (h : Holds w s) : Holds w (State.dropRegions s a1) := by
  unfold State.dropRegions
  try dsimp only
  repeat' first
    | with_reducible assumption
    | with_reducible apply State.freeRegion_keeps
    | fail_if_no_progress with_reducible refine Holds.mk_of ?_ rfl rfl rfl rfl rfl rfl
    | with_reducible refine foldl_keeps ?_ ?_

theorem execTouchFrameStart_keeps {w : Watch} {s : State} {a1} (h : Holds w s) : NextHolds w (execTouchFrameStart a1 s) := by
  unfold execTouchFrameStart
  try dsimp only
  repeat' first
    | with_reducible assumption
    | with_reducible apply nextHolds_next
    | with_reducible exact nextHolds_fault
    | with_reducible exact nextHolds_refused
    | with_reducible apply State.applyRegions_keeps
    | with_reducible apply State.setTctl_keeps
    | fail_if_no_progress with_reducible refine Holds.mk_of ?_ rfl rfl rfl rfl rfl rfl
    | split

theorem State.reportRegion_keeps {w : Watch} {s : State} {a1 a2 a3 a4} (h : Holds w s) : Holds w (State.reportRegion s a1 a2 a3 a4) := by
  unfold State.reportRegion
  try dsimp only
  repeat' first
    | with_reducible assumption
    | with_reducible apply State.count_keeps
    | with_reducible apply State.countF_keeps
    | with_reducible apply State.emit_keeps
    | with_reducible apply State.setF_keeps
    | with_reducible apply State.setReg_keeps
    | with_reducible apply State.setRegion_keeps
    | fail_if_no_progress with_reducible refine Holds.mk_of ?_ rfl rfl rfl rfl rfl rfl
    | split

theorem State.fireReflex_keeps {w : Watch} {s : State} {a1 a2 a3} (h : Holds w s) : Holds w (State.fireReflex s a1 a2 a3) := by
  unfold State.fireReflex
  try dsimp only
  repeat' first
    | with_reducible assumption
    | with_reducible apply State.hapTrigger_keeps
    | fail_if_no_progress with_reducible refine Holds.mk_of ?_ rfl rfl rfl rfl rfl rfl
    | split

theorem State.noiseStep_keeps {w : Watch} {s : State} {a1 a2 a3} (h : Holds w s) : Holds w (State.noiseStep s a1 a2 a3) := by
  unfold State.noiseStep
  try dsimp only
  repeat' first
    | with_reducible assumption
    | with_reducible apply State.count_keeps
    | with_reducible apply State.postMgr_keeps
    | with_reducible apply State.setF_keeps
    | with_reducible apply State.setTctl_keeps
    | fail_if_no_progress with_reducible refine Holds.mk_of ?_ rfl rfl rfl rfl rfl rfl
    | split

theorem State.endTouchWait_keeps {w : Watch} {s : State} {a1 a2 a3 a4 a5} (h : Holds w s) : Holds w (State.endTouchWait s a1 a2 a3 a4 a5) := by
  unfold State.endTouchWait
  try dsimp only
  repeat' first
    | with_reducible assumption
    | with_reducible apply State.complete_keeps
    | with_reducible apply State.store_keeps
    | fail_if_no_progress with_reducible refine Holds.mk_of ?_ rfl rfl rfl rfl rfl rfl
    | split

theorem State.countTouchFrame_keeps {w : Watch} {s : State} {a1 a2 a3} (h : Holds w s) : Holds w (State.countTouchFrame s a1 a2 a3) := by
  unfold State.countTouchFrame
  try dsimp only
  repeat' first
    | with_reducible assumption
    | with_reducible apply State.setReg_keeps

theorem State.noteFresh_keeps {w : Watch} {s : State} {a1 a2 a3} (h : Holds w s) : Holds w (State.noteFresh s a1 a2 a3) := by
  unfold State.noteFresh
  try dsimp only
  repeat' first
    | with_reducible assumption
    | with_reducible apply State.setF_keeps
    | fail_if_no_progress with_reducible refine Holds.mk_of ?_ rfl rfl rfl rfl rfl rfl
    | split

theorem State.noteSaturation_keeps {w : Watch} {s : State} {a1 a2 a3 a4} (h : Holds w s) : Holds w (State.noteSaturation s a1 a2 a3 a4) := by
  unfold State.noteSaturation
  try dsimp only
  repeat' first
    | with_reducible assumption
    | with_reducible apply State.postMgr_keeps
    | fail_if_no_progress with_reducible refine Holds.mk_of ?_ rfl rfl rfl rfl rfl rfl
    | with_reducible refine foldl_keeps ?_ ?_
    | split
    | (intro)

theorem State.tellLifted_keeps {w : Watch} {s : State} {a1 a2 a3} (h : Holds w s) : Holds w (State.tellLifted s a1 a2 a3) := by
  unfold State.tellLifted
  try dsimp only
  repeat' first
    | with_reducible assumption
    | with_reducible apply State.postMgr_keeps
    | fail_if_no_progress with_reducible refine Holds.mk_of ?_ rfl rfl rfl rfl rfl rfl
    | split

theorem State.fireReflexes_keeps {w : Watch} {s : State} {a1 a2} (h : Holds w s) : Holds w (State.fireReflexes s a1 a2) := by
  unfold State.fireReflexes
  try dsimp only
  repeat' first
    | with_reducible assumption
    | with_reducible apply State.count_keeps
    | with_reducible apply State.fireReflex_keeps
    | fail_if_no_progress with_reducible refine Holds.mk_of ?_ rfl rfl rfl rfl rfl rfl
    | with_reducible refine foldl_keeps ?_ ?_
    | split
    | (intro)

theorem State.endTouchFrame_keeps {w : Watch} {s : State} {a1 a2 a3 a4 a5 a6 a7 a8} (h : Holds w s) : Holds w (State.endTouchFrame s a1 a2 a3 a4 a5 a6 a7 a8) := by
  unfold State.endTouchFrame
  try dsimp only
  repeat' first
    | with_reducible assumption
    | with_reducible apply State.endTouchWait_keeps
    | with_reducible apply State.reportRegion_keeps
    | fail_if_no_progress with_reducible refine Holds.mk_of ?_ rfl rfl rfl rfl rfl rfl
    | with_reducible refine foldl_keeps ?_ ?_
    | split
    | (intro)

theorem State.touchFrame_keeps {w : Watch} {s : State} {a1 a2 a3 a4 a5 a6} (h : Holds w s) : Holds w (State.touchFrame s a1 a2 a3 a4 a5 a6) := by
  unfold State.touchFrame
  try dsimp only
  repeat' first
    | with_reducible assumption
    | with_reducible apply State.countTouchFrame_keeps
    | with_reducible apply State.endTouchFrame_keeps
    | with_reducible apply State.fireReflexes_keeps
    | with_reducible apply State.noiseStep_keeps
    | with_reducible apply State.noteFresh_keeps
    | with_reducible apply State.noteSaturation_keeps
    | with_reducible apply State.setTctl_keeps
    | with_reducible apply State.tellLifted_keeps

theorem execTouchFrameEnd_keeps {w : Watch} {s : State} {a1 a2 a3 a4} (h : Holds w s) : NextHolds w (execTouchFrameEnd a1 a2 a3 a4 s) := by
  unfold execTouchFrameEnd
  try dsimp only
  repeat' first
    | with_reducible assumption
    | with_reducible apply nextHolds_next
    | with_reducible exact nextHolds_fault
    | with_reducible exact nextHolds_refused
    | with_reducible apply State.touchFrame_keeps
    | fail_if_no_progress with_reducible refine Holds.mk_of ?_ rfl rfl rfl rfl rfl rfl
    | split

theorem execSuspectStableTimeout_keeps {w : Watch} {s : State} {a1 a2} (h : Holds w s) : NextHolds w (execSuspectStableTimeout a1 a2 s) := by
  unfold execSuspectStableTimeout
  try dsimp only
  repeat' first
    | with_reducible assumption
    | with_reducible apply nextHolds_next
    | with_reducible exact nextHolds_fault
    | with_reducible exact nextHolds_refused
    | with_reducible apply State.postMgr_keeps
    | with_reducible apply State.setTctl_keeps
    | fail_if_no_progress with_reducible refine Holds.mk_of ?_ rfl rfl rfl rfl rfl rfl
    | split

theorem execContactStuck_keeps {w : Watch} {s : State} {a1 a2} (h : Holds w s) : NextHolds w (execContactStuck a1 a2 s) := by
  unfold execContactStuck
  try dsimp only
  repeat' first
    | with_reducible assumption
    | with_reducible apply nextHolds_next
    | with_reducible exact nextHolds_fault
    | with_reducible exact nextHolds_refused
    | with_reducible apply State.postOwner_keeps
    | with_reducible apply State.setTctl_keeps
    | fail_if_no_progress with_reducible refine Holds.mk_of ?_ rfl rfl rfl rfl rfl rfl
    | with_reducible apply id_keeps
    | split

theorem State.saveBaselines_keeps {w : Watch} {s : State} {a1} (h : Holds w s) : Holds w (State.saveBaselines s a1) := by
  unfold State.saveBaselines
  try dsimp only
  repeat' first
    | with_reducible assumption
    | with_reducible apply State.ledgAppend_keeps
    | with_reducible apply State.setF_keeps
    | with_reducible apply State.setTctl_keeps
    | fail_if_no_progress with_reducible refine Holds.mk_of ?_ rfl rfl rfl rfl rfl rfl
    | split

theorem execTouchBaselineSave_keeps {w : Watch} {s : State} {a1 a2} (h : Holds w s) : NextHolds w (execTouchBaselineSave a1 a2 s) := by
  unfold execTouchBaselineSave
  try dsimp only
  repeat' first
    | with_reducible assumption
    | with_reducible apply nextHolds_next
    | with_reducible exact nextHolds_fault
    | with_reducible exact nextHolds_refused
    | with_reducible apply State.saveBaselines_keeps
    | fail_if_no_progress with_reducible refine Holds.mk_of ?_ rfl rfl rfl rfl rfl rfl
    | split

theorem State.touchWait_keeps {w : Watch} {s : State} {a1 a2} (h : Holds w s) : Holds w (State.touchWait s a1 a2) := by
  unfold State.touchWait
  try dsimp only
  repeat' first
    | with_reducible assumption
    | with_reducible apply State.setTctl_keeps
    | fail_if_no_progress with_reducible refine Holds.mk_of ?_ rfl rfl rfl rfl rfl rfl
    | split

theorem effTchRecalibrate_keeps {w : Watch} {s : State} {a1 a2} (h : Holds w s) : Holds w (effTchRecalibrate a1 a2 s) := by
  unfold effTchRecalibrate
  try dsimp only
  repeat' first
    | with_reducible assumption
    | with_reducible apply State.touchWait_keeps

theorem execTchRecalibrate_keeps {w : Watch} {s : State} {a1} (h : Holds w s) : NextHolds w (execTchRecalibrate a1 s) := by
  unfold execTchRecalibrate
  try dsimp only
  repeat' first
    | with_reducible assumption
    | with_reducible apply nextHolds_next
    | with_reducible exact nextHolds_fault
    | with_reducible exact nextHolds_refused
    | with_reducible apply effTchRecalibrate_keeps
    | with_reducible apply runPkt_keeps
    | fail_if_no_progress with_reducible refine Holds.mk_of ?_ rfl rfl rfl rfl rfl rfl
    | split
    | (intro)

theorem effTchCapture_keeps {w : Watch} {s : State} {a1 a2} (h : Holds w s) : Holds w (effTchCapture a1 a2 s) := by
  unfold effTchCapture
  try dsimp only
  repeat' first
    | with_reducible assumption
    | with_reducible apply State.touchWait_keeps

theorem execTchCapture_keeps {w : Watch} {s : State} {a1} (h : Holds w s) : NextHolds w (execTchCapture a1 s) := by
  unfold execTchCapture
  try dsimp only
  repeat' first
    | with_reducible assumption
    | with_reducible apply nextHolds_next
    | with_reducible exact nextHolds_fault
    | with_reducible exact nextHolds_refused
    | with_reducible apply effTchCapture_keeps
    | with_reducible apply runPkt_keeps
    | fail_if_no_progress with_reducible refine Holds.mk_of ?_ rfl rfl rfl rfl rfl rfl
    | split
    | (intro)

theorem State.forgetTouch_keeps {w : Watch} {s : State} {a1} (h : Holds w s) : Holds w (State.forgetTouch s a1) := by
  unfold State.forgetTouch
  try dsimp only
  repeat' first
    | with_reducible assumption
    | fail_if_no_progress with_reducible refine Holds.mk_of ?_ rfl rfl rfl rfl rfl rfl

theorem State.loseContacts_keeps {w : Watch} {s : State} {a1} (h : Holds w s) : Holds w (State.loseContacts s a1) := by
  unfold State.loseContacts
  try dsimp only
  repeat' first
    | with_reducible assumption
    | with_reducible apply State.reportRegion_keeps
    | with_reducible apply State.setTctl_keeps
    | fail_if_no_progress with_reducible refine Holds.mk_of ?_ rfl rfl rfl rfl rfl rfl
    | with_reducible refine foldl_keeps ?_ ?_
    | split
    | (intro)

theorem State.dropTouch_keeps {w : Watch} {s : State} (h : Holds w s) : Holds w (State.dropTouch s) := by
  unfold State.dropTouch
  try dsimp only
  repeat' first
    | with_reducible assumption
    | with_reducible apply State.loseContacts_keeps
    | with_reducible apply State.saveBaselines_keeps
    | with_reducible apply State.setTctl_keeps
    | fail_if_no_progress with_reducible refine Holds.mk_of ?_ rfl rfl rfl rfl rfl rfl
    | with_reducible refine foldl_keeps ?_ ?_
    | split
    | (intro)

theorem effTchSetWake_keeps {w : Watch} {s : State} {a1 a2} (h : Holds w s) : Holds w (effTchSetWake a1 a2 s) := by
  unfold effTchSetWake
  try dsimp only
  repeat' first
    | with_reducible assumption
    | with_reducible apply State.complete_keeps
    | with_reducible apply State.setTctl_keeps

theorem execTchSetWake_keeps {w : Watch} {s : State} {a1} (h : Holds w s) : NextHolds w (execTchSetWake a1 s) := by
  unfold execTchSetWake
  try dsimp only
  repeat' first
    | with_reducible assumption
    | with_reducible apply nextHolds_next
    | with_reducible exact nextHolds_fault
    | with_reducible exact nextHolds_refused
    | with_reducible apply effTchSetWake_keeps
    | with_reducible apply runPkt_keeps
    | fail_if_no_progress with_reducible refine Holds.mk_of ?_ rfl rfl rfl rfl rfl rfl
    | split
    | (intro)

theorem State.tellWake_keeps {w : Watch} {s : State} (h : Holds w s) : Holds w (State.tellWake s) := by
  unfold State.tellWake
  try dsimp only
  repeat' first
    | with_reducible assumption
    | with_reducible apply State.postMgr_keeps
    | fail_if_no_progress with_reducible refine Holds.mk_of ?_ rfl rfl rfl rfl rfl rfl
    | split

theorem State.wakeGesture_keeps {w : Watch} {s : State} {a1 a2 a3} (h : Holds w s) : Holds w (State.wakeGesture s a1 a2 a3) := by
  unfold State.wakeGesture
  try dsimp only
  repeat' first
    | with_reducible assumption
    | with_reducible apply State.hapTrigger_keeps
    | with_reducible apply State.setReg_keeps
    | with_reducible apply State.tellWake_keeps
    | with_reducible apply State.wakePlay_keeps
    | fail_if_no_progress with_reducible refine Holds.mk_of ?_ rfl rfl rfl rfl rfl rfl
    | split

theorem execWakeScan_keeps {w : Watch} {s : State} {a1 a2 a3} (h : Holds w s) : NextHolds w (execWakeScan a1 a2 a3 s) := by
  unfold execWakeScan
  try dsimp only
  repeat' first
    | with_reducible assumption
    | with_reducible apply nextHolds_next
    | with_reducible exact nextHolds_fault
    | with_reducible exact nextHolds_refused
    | with_reducible apply State.setTctl_keeps
    | with_reducible apply State.wakeGesture_keeps
    | fail_if_no_progress with_reducible refine Holds.mk_of ?_ rfl rfl rfl rfl rfl rfl
    | with_reducible refine foldl_keeps ?_ ?_
    | split
    | (intro)

theorem execWakePendingClear_keeps {w : Watch} {s : State} {a1} (h : Holds w s) : NextHolds w (execWakePendingClear a1 s) := by
  unfold execWakePendingClear
  try dsimp only
  repeat' first
    | with_reducible assumption
    | with_reducible apply nextHolds_next
    | with_reducible exact nextHolds_fault
    | with_reducible exact nextHolds_refused
    | with_reducible apply State.regWrite_keeps
    | with_reducible apply State.setF_keeps
    | fail_if_no_progress with_reducible refine Holds.mk_of ?_ rfl rfl rfl rfl rfl rfl
    | split
    | (intro)

end Sys2Proof.Machine
end

