-- ==== Sys2Proof/Laws/KeepsAudio.lean ====
section
/-! SUPPORT. What Machine/Audio.lean does keeps what is watched. -/

namespace Sys2Proof.Machine

theorem State.showEp_keeps {w : Watch} {s : State} {a1} (h : Holds w s) : Holds w (State.showEp s a1) := by
  unfold State.showEp
  try dsimp only
  repeat' first
    | with_reducible assumption
    | with_reducible apply State.setReg_keeps
    | fail_if_no_progress with_reducible refine Holds.mk_of ?_ rfl rfl rfl rfl rfl rfl
    | split

theorem State.setEp_keeps {w : Watch} {s : State} {a1 a2} (h : Holds w s) : Holds w (State.setEp s a1 a2) := by
  unfold State.setEp
  try dsimp only
  repeat' first
    | with_reducible assumption
    | fail_if_no_progress with_reducible refine Holds.mk_of ?_ rfl rfl rfl rfl rfl rfl

theorem State.showPort_keeps {w : Watch} {s : State} {a1} (h : Holds w s) : Holds w (State.showPort s a1) := by
  unfold State.showPort
  try dsimp only
  repeat' first
    | with_reducible assumption
    | with_reducible apply State.setF_keeps

theorem State.setPort_keeps {w : Watch} {s : State} {a1 a2} (h : Holds w s) : Holds w (State.setPort s a1 a2) := by
  unfold State.setPort
  try dsimp only
  repeat' first
    | with_reducible assumption
    | with_reducible apply State.showPort_keeps
    | fail_if_no_progress with_reducible refine Holds.mk_of ?_ rfl rfl rfl rfl rfl rfl

theorem State.showNode_keeps {w : Watch} {s : State} {a1 a2} (h : Holds w s) : Holds w (State.showNode s a1 a2) := by
  unfold State.showNode
  try dsimp only
  repeat' first
    | with_reducible assumption
    | with_reducible apply State.setReg_keeps

theorem State.showAud_keeps {w : Watch} {s : State} (h : Holds w s) : Holds w (State.showAud s) := by
  unfold State.showAud
  try dsimp only
  repeat' first
    | with_reducible assumption
    | with_reducible apply State.setF_keeps

theorem State.putNode_keeps {w : Watch} {s : State} {a1 a2} (h : Holds w s) : Holds w (State.putNode s a1 a2) := by
  unfold State.putNode
  try dsimp only
  repeat' first
    | with_reducible assumption
    | with_reducible apply State.showAud_keeps
    | with_reducible apply State.showNode_keeps
    | fail_if_no_progress with_reducible refine Holds.mk_of ?_ rfl rfl rfl rfl rfl rfl

theorem State.freeNode_keeps {w : Watch} {s : State} {a1} (h : Holds w s) : Holds w (State.freeNode s a1) := by
  unfold State.freeNode
  try dsimp only
  repeat' first
    | with_reducible assumption
    | with_reducible apply State.setReg_keeps
    | with_reducible apply State.showAud_keeps
    | fail_if_no_progress with_reducible refine Holds.mk_of ?_ rfl rfl rfl rfl rfl rfl
    | split

theorem State.putRoute_keeps {w : Watch} {s : State} {a1 a2} (h : Holds w s) : Holds w (State.putRoute s a1 a2) := by
  unfold State.putRoute
  try dsimp only
  repeat' first
    | with_reducible assumption
    | with_reducible apply State.showAud_keeps
    | fail_if_no_progress with_reducible refine Holds.mk_of ?_ rfl rfl rfl rfl rfl rfl

theorem effAudSetPort_keeps {w : Watch} {s : State} {a1 a2} (h : Holds w s) : Holds w (effAudSetPort a1 a2 s) := by
  unfold effAudSetPort
  try dsimp only
  repeat' first
    | with_reducible assumption
    | with_reducible apply State.complete_keeps
    | with_reducible apply State.setF_keeps
    | with_reducible apply State.setPort_keeps

theorem execAudSetPort_keeps {w : Watch} {s : State} {a1} (h : Holds w s) : NextHolds w (execAudSetPort a1 s) := by
  unfold execAudSetPort
  try dsimp only
  repeat' first
    | with_reducible assumption
    | with_reducible apply nextHolds_next
    | with_reducible exact nextHolds_fault
    | with_reducible exact nextHolds_refused
    | with_reducible apply effAudSetPort_keeps
    | with_reducible apply runPkt_keeps
    | fail_if_no_progress with_reducible refine Holds.mk_of ?_ rfl rfl rfl rfl rfl rfl
    | split
    | (intro)

theorem execTdmFsEdge_keeps {w : Watch} {s : State} {a1 a2} (h : Holds w s) : NextHolds w (execTdmFsEdge a1 a2 s) := by
  unfold execTdmFsEdge
  try dsimp only
  repeat' first
    | with_reducible assumption
    | with_reducible apply nextHolds_next
    | with_reducible exact nextHolds_fault
    | with_reducible exact nextHolds_refused
    | with_reducible apply State.countF_keeps
    | with_reducible apply State.setF_keeps
    | with_reducible apply State.setPort_keeps
    | fail_if_no_progress with_reducible refine Holds.mk_of ?_ rfl rfl rfl rfl rfl rfl
    | split

theorem execTdmPortLost_keeps {w : Watch} {s : State} {a1} (h : Holds w s) : NextHolds w (execTdmPortLost a1 s) := by
  unfold execTdmPortLost
  try dsimp only
  repeat' first
    | with_reducible assumption
    | with_reducible apply nextHolds_next
    | with_reducible exact nextHolds_fault
    | with_reducible exact nextHolds_refused
    | with_reducible apply State.postMgr_keeps
    | with_reducible apply State.setF_keeps
    | with_reducible apply State.setPort_keeps
    | fail_if_no_progress with_reducible refine Holds.mk_of ?_ rfl rfl rfl rfl rfl rfl
    | split

theorem execTdmPortRelock_keeps {w : Watch} {s : State} {a1} (h : Holds w s) : NextHolds w (execTdmPortRelock a1 s) := by
  unfold execTdmPortRelock
  try dsimp only
  repeat' first
    | with_reducible assumption
    | with_reducible apply nextHolds_next
    | with_reducible exact nextHolds_fault
    | with_reducible exact nextHolds_refused
    | with_reducible apply State.postMgr_keeps
    | with_reducible apply State.setF_keeps
    | with_reducible apply State.setPort_keeps
    | fail_if_no_progress with_reducible refine Holds.mk_of ?_ rfl rfl rfl rfl rfl rfl
    | split

theorem effAudSetEndpoint_keeps {w : Watch} {s : State} {a1 a2} (h : Holds w s) : Holds w (effAudSetEndpoint a1 a2 s) := by
  unfold effAudSetEndpoint
  try dsimp only
  repeat' first
    | with_reducible assumption
    | with_reducible apply State.setEp_keeps
    | fail_if_no_progress with_reducible refine Holds.mk_of ?_ rfl rfl rfl rfl rfl rfl
    | split

theorem execAudSetEndpoint_keeps {w : Watch} {s : State} {a1} (h : Holds w s) : NextHolds w (execAudSetEndpoint a1 s) := by
  unfold execAudSetEndpoint
  try dsimp only
  repeat' first
    | with_reducible assumption
    | with_reducible apply nextHolds_next
    | with_reducible exact nextHolds_fault
    | with_reducible exact nextHolds_refused
    | with_reducible apply effAudSetEndpoint_keeps
    | with_reducible apply runPkt_keeps
    | fail_if_no_progress with_reducible refine Holds.mk_of ?_ rfl rfl rfl rfl rfl rfl
    | split
    | (intro)

theorem State.newNode_keeps {w : Watch} {s : State} {a1 a2} (h : Holds w s) : Holds w (State.newNode s a1 a2) := by
  unfold State.newNode
  try dsimp only
  repeat' first
    | with_reducible assumption
    | with_reducible apply State.putNode_keeps

theorem State.newRoute_keeps {w : Watch} {s : State} {a1 a2 a3 a4 a5} (h : Holds w s) : Holds w (State.newRoute s a1 a2 a3 a4 a5) := by
  unfold State.newRoute
  try dsimp only
  repeat' first
    | with_reducible assumption
    | with_reducible apply State.putRoute_keeps

theorem State.applyNode_keeps {w : Watch} {s : State} {a1 a2} (h : Holds w s) : Holds w (State.applyNode s a1 a2) := by
  unfold State.applyNode
  try dsimp only
  repeat' first
    | with_reducible assumption
    | with_reducible apply State.newNode_keeps
    | with_reducible apply State.putNode_keeps
    | fail_if_no_progress with_reducible refine Holds.mk_of ?_ rfl rfl rfl rfl rfl rfl
    | split

theorem State.applyRoute_keeps {w : Watch} {s : State} {a1 a2} (h : Holds w s) : Holds w (State.applyRoute s a1 a2) := by
  unfold State.applyRoute
  try dsimp only
  repeat' first
    | with_reducible assumption
    | with_reducible apply State.newRoute_keeps
    | with_reducible apply State.putRoute_keeps
    | fail_if_no_progress with_reducible refine Holds.mk_of ?_ rfl rfl rfl rfl rfl rfl
    | split

theorem State.applyGraph_keeps {w : Watch} {s : State} {a1 a2 a3} (h : Holds w s) : Holds w (State.applyGraph s a1 a2 a3) := by
  unfold State.applyGraph
  try dsimp only
  repeat' first
    | with_reducible assumption
    | with_reducible apply State.applyNode_keeps
    | with_reducible apply State.applyRoute_keeps
    | fail_if_no_progress with_reducible refine Holds.mk_of ?_ rfl rfl rfl rfl rfl rfl
    | split

theorem State.graphComing_keeps {w : Watch} {s : State} (h : Holds w s) : Holds w (State.graphComing s) := by
  unfold State.graphComing
  try dsimp only
  repeat' first
    | with_reducible assumption
    | with_reducible apply State.applyGraph_keeps
    | fail_if_no_progress with_reducible refine Holds.mk_of ?_ rfl rfl rfl rfl rfl rfl
    | with_reducible refine foldl_keeps ?_ ?_
    | split
    | (intro)

theorem State.queueGraph_keeps {w : Watch} {s : State} {a1 a2 a3 a4} (h : Holds w s) : Holds w (State.queueGraph s a1 a2 a3 a4) := by
  unfold State.queueGraph
  try dsimp only
  repeat' first
    | with_reducible assumption
    | with_reducible apply State.complete_keeps
    | fail_if_no_progress with_reducible refine Holds.mk_of ?_ rfl rfl rfl rfl rfl rfl
    | with_reducible refine foldl_keeps ?_ ?_
    | split
    | (intro)

theorem effAudSetNode_keeps {w : Watch} {s : State} {a1 a2} (h : Holds w s) : Holds w (effAudSetNode a1 a2 s) := by
  unfold effAudSetNode
  try dsimp only
  repeat' first
    | with_reducible assumption
    | with_reducible apply State.queueGraph_keeps

theorem execAudSetNode_keeps {w : Watch} {s : State} {a1} (h : Holds w s) : NextHolds w (execAudSetNode a1 s) := by
  unfold execAudSetNode
  try dsimp only
  repeat' first
    | with_reducible assumption
    | with_reducible apply nextHolds_next
    | with_reducible exact nextHolds_fault
    | with_reducible exact nextHolds_refused
    | with_reducible apply effAudSetNode_keeps
    | with_reducible apply runPkt_keeps
    | fail_if_no_progress with_reducible refine Holds.mk_of ?_ rfl rfl rfl rfl rfl rfl
    | split
    | (intro)

theorem effAudSetRoute_keeps {w : Watch} {s : State} {a1 a2} (h : Holds w s) : Holds w (effAudSetRoute a1 a2 s) := by
  unfold effAudSetRoute
  try dsimp only
  repeat' first
    | with_reducible assumption
    | with_reducible apply State.queueGraph_keeps

theorem execAudSetRoute_keeps {w : Watch} {s : State} {a1} (h : Holds w s) : NextHolds w (execAudSetRoute a1 s) := by
  unfold execAudSetRoute
  try dsimp only
  repeat' first
    | with_reducible assumption
    | with_reducible apply nextHolds_next
    | with_reducible exact nextHolds_fault
    | with_reducible exact nextHolds_refused
    | with_reducible apply effAudSetRoute_keeps
    | with_reducible apply runPkt_keeps
    | fail_if_no_progress with_reducible refine Holds.mk_of ?_ rfl rfl rfl rfl rfl rfl
    | split
    | (intro)

theorem effAudCommit_keeps {w : Watch} {s : State} {a1 a2} (h : Holds w s) : Holds w (effAudCommit a1 a2 s) := by
  unfold effAudCommit
  try dsimp only
  repeat' first
    | with_reducible assumption
    | fail_if_no_progress with_reducible refine Holds.mk_of ?_ rfl rfl rfl rfl rfl rfl
    | split

theorem execAudCommit_keeps {w : Watch} {s : State} {a1} (h : Holds w s) : NextHolds w (execAudCommit a1 s) := by
  unfold execAudCommit
  try dsimp only
  repeat' first
    | with_reducible assumption
    | with_reducible apply nextHolds_next
    | with_reducible exact nextHolds_fault
    | with_reducible exact nextHolds_refused
    | with_reducible apply effAudCommit_keeps
    | with_reducible apply runPkt_keeps
    | fail_if_no_progress with_reducible refine Holds.mk_of ?_ rfl rfl rfl rfl rfl rfl
    | split
    | (intro)

theorem State.forgetAudio_keeps {w : Watch} {s : State} {a1} (h : Holds w s) : Holds w (State.forgetAudio s a1) := by
  unfold State.forgetAudio
  try dsimp only
  repeat' first
    | with_reducible assumption
    | fail_if_no_progress with_reducible refine Holds.mk_of ?_ rfl rfl rfl rfl rfl rfl

theorem State.commitGraph_keeps {w : Watch} {s : State} {a1} (h : Holds w s) : Holds w (State.commitGraph s a1) := by
  unfold State.commitGraph
  try dsimp only
  repeat' first
    | with_reducible assumption
    | with_reducible apply State.applyGraph_keeps
    | with_reducible apply State.complete_keeps
    | fail_if_no_progress with_reducible refine Holds.mk_of ?_ rfl rfl rfl rfl rfl rfl
    | with_reducible refine foldl_keeps ?_ ?_
    | split
    | (intro)

theorem State.boundary_keeps {w : Watch} {s : State} {a1} (h : Holds w s) : Holds w (State.boundary s a1) := by
  unfold State.boundary
  try dsimp only
  repeat' first
    | with_reducible assumption
    | with_reducible apply State.applyGraph_keeps
    | with_reducible apply State.commitGraph_keeps
    | with_reducible apply State.complete_keeps
    | fail_if_no_progress with_reducible refine Holds.mk_of ?_ rfl rfl rfl rfl rfl rfl
    | split

theorem State.aimRoutes_keeps {w : Watch} {s : State} (h : Holds w s) : Holds w (State.aimRoutes s) := by
  unfold State.aimRoutes
  try dsimp only
  repeat' first
    | with_reducible assumption
    | fail_if_no_progress with_reducible refine Holds.mk_of ?_ rfl rfl rfl rfl rfl rfl

theorem State.settleEp_keeps {w : Watch} {s : State} {a1} (h : Holds w s) : Holds w (State.settleEp s a1) := by
  unfold State.settleEp
  try dsimp only
  repeat' first
    | with_reducible assumption
    | with_reducible apply State.complete_keeps
    | with_reducible apply State.setEp_keeps
    | with_reducible apply State.setReg_keeps
    | with_reducible apply State.showEp_keeps
    | fail_if_no_progress with_reducible refine Holds.mk_of ?_ rfl rfl rfl rfl rfl rfl
    | with_reducible refine foldl_keeps ?_ ?_
    | split

theorem State.openDelay_keeps {w : Watch} {s : State} {a1} (h : Holds w s) : Holds w (State.openDelay s a1) := by
  unfold State.openDelay
  try dsimp only
  repeat' first
    | with_reducible assumption
    | with_reducible apply State.writeObj_keeps
    | fail_if_no_progress with_reducible refine Holds.mk_of ?_ rfl rfl rfl rfl rfl rfl
    | split

theorem State.runNode_keeps {w : Watch} {s : State} {a1 a2} (h : Holds w s) : Holds w (State.runNode s a1 a2) := by
  unfold State.runNode
  try dsimp only
  repeat' first
    | with_reducible assumption
    | with_reducible apply State.count_keeps
    | with_reducible apply State.openDelay_keeps
    | with_reducible apply State.postOwner_keeps
    | with_reducible apply State.putNode_keeps
    | with_reducible apply State.setF_keeps
    | fail_if_no_progress with_reducible refine Holds.mk_of ?_ rfl rfl rfl rfl rfl rfl
    | split

theorem State.runNodes_keeps {w : Watch} {s : State} {a1 a2 a3} (h : Holds w s) : Holds w (State.runNodes a1 a2 a3 s) := by
  induction a2 generalizing s a1 a3 with
  | zero =>
    unfold State.runNodes
    repeat' first
      | with_reducible assumption
  | succ n ih =>
    unfold State.runNodes
    try dsimp only
    repeat' first
      | with_reducible assumption
      | with_reducible apply ih
      | with_reducible apply State.runNode_keeps
      | fail_if_no_progress with_reducible refine Holds.mk_of ?_ rfl rfl rfl rfl rfl rfl
      | split

theorem State.needPeriod_keeps {w : Watch} {s : State} {a1 a2} (h : Holds w s) : Holds w (State.needPeriod s a1 a2) := by
  unfold State.needPeriod
  try dsimp only
  repeat' first
    | with_reducible assumption
    | with_reducible apply State.count_keeps
    | with_reducible apply State.postOwner_keeps
    | with_reducible apply State.setEp_keeps
    | fail_if_no_progress with_reducible refine Holds.mk_of ?_ rfl rfl rfl rfl rfl rfl
    | split

theorem State.endPeriod_keeps {w : Watch} {s : State} {a1 a2} (h : Holds w s) : Holds w (State.endPeriod s a1 a2) := by
  unfold State.endPeriod
  try dsimp only
  repeat' first
    | with_reducible assumption
    | with_reducible apply State.emit_keeps
    | with_reducible apply State.setEp_keeps
    | with_reducible apply State.setReg_keeps
    | fail_if_no_progress with_reducible refine Holds.mk_of ?_ rfl rfl rfl rfl rfl rfl
    | split

theorem State.runStream_keeps {w : Watch} {s : State} {a1 a2 a3 a4} (h : Holds w s) : Holds w (State.runStream a1 a2 a3 a4 s) := by
  induction a3 generalizing s a1 a2 a4 with
  | zero =>
    unfold State.runStream
    repeat' first
      | with_reducible assumption
  | succ n ih =>
    unfold State.runStream
    try dsimp only
    repeat' first
      | with_reducible assumption
      | with_reducible apply ih
      | with_reducible apply State.endPeriod_keeps
      | with_reducible apply State.needPeriod_keeps
      | with_reducible apply State.setEp_keeps
      | fail_if_no_progress with_reducible refine Holds.mk_of ?_ rfl rfl rfl rfl rfl rfl
      | split

theorem State.runSource_keeps {w : Watch} {s : State} {a1 a2} (h : Holds w s) : Holds w (State.runSource s a1 a2) := by
  unfold State.runSource
  try dsimp only
  repeat' first
    | with_reducible assumption
    | with_reducible apply State.runStream_keeps
    | with_reducible apply State.setEp_keeps
    | with_reducible apply State.setF_keeps
    | fail_if_no_progress with_reducible refine Holds.mk_of ?_ rfl rfl rfl rfl rfl rfl
    | split

theorem State.runSink_keeps {w : Watch} {s : State} {a1 a2} (h : Holds w s) : Holds w (State.runSink s a1 a2) := by
  unfold State.runSink
  try dsimp only
  repeat' first
    | with_reducible assumption
    | with_reducible apply State.runSource_keeps
    | with_reducible apply State.runStream_keeps
    | with_reducible apply State.setEp_keeps
    | with_reducible apply State.setF_keeps
    | fail_if_no_progress with_reducible refine Holds.mk_of ?_ rfl rfl rfl rfl rfl rfl
    | split

theorem State.stepRoutes_keeps {w : Watch} {s : State} (h : Holds w s) : Holds w (State.stepRoutes s) := by
  unfold State.stepRoutes
  try dsimp only
  repeat' first
    | with_reducible assumption
    | with_reducible apply State.showAud_keeps
    | fail_if_no_progress with_reducible refine Holds.mk_of ?_ rfl rfl rfl rfl rfl rfl

theorem State.stepNodes_keeps {w : Watch} {s : State} (h : Holds w s) : Holds w (State.stepNodes s) := by
  unfold State.stepNodes
  try dsimp only
  repeat' first
    | with_reducible assumption
    | with_reducible apply State.freeNode_keeps
    | fail_if_no_progress with_reducible refine Holds.mk_of ?_ rfl rfl rfl rfl rfl rfl
    | with_reducible refine foldl_keeps ?_ ?_

theorem execAudioBlock_keeps {w : Watch} {s : State} {a1 a2 a3} (h : Holds w s) : NextHolds w (execAudioBlock a1 a2 a3 s) := by
  unfold execAudioBlock
  try dsimp only
  repeat' first
    | with_reducible assumption
    | with_reducible apply nextHolds_next
    | with_reducible exact nextHolds_fault
    | with_reducible exact nextHolds_refused
    | with_reducible apply State.aimRoutes_keeps
    | with_reducible apply State.boundary_keeps
    | with_reducible apply State.runNodes_keeps
    | with_reducible apply State.runSink_keeps
    | with_reducible apply State.runSource_keeps
    | with_reducible apply State.setF_keeps
    | with_reducible apply State.settleEp_keeps
    | with_reducible apply State.stepNodes_keeps
    | with_reducible apply State.stepRoutes_keeps
    | fail_if_no_progress with_reducible refine Holds.mk_of ?_ rfl rfl rfl rfl rfl rfl
    | with_reducible refine foldl_keeps ?_ ?_
    | split
    | (intro)

theorem State.closeAudio_keeps {w : Watch} {s : State} {a1 a2} (h : Holds w s) : Holds w (State.closeAudio s a1 a2) := by
  unfold State.closeAudio
  try dsimp only
  repeat' first
    | with_reducible assumption
    | fail_if_no_progress with_reducible refine Holds.mk_of ?_ rfl rfl rfl rfl rfl rfl

theorem State.trimAudio_keeps {w : Watch} {s : State} {a1 a2} (h : Holds w s) : Holds w (State.trimAudio s a1 a2) := by
  unfold State.trimAudio
  try dsimp only
  repeat' first
    | with_reducible assumption
    | fail_if_no_progress with_reducible refine Holds.mk_of ?_ rfl rfl rfl rfl rfl rfl

theorem State.closePort_keeps {w : Watch} {s : State} {a1} (h : Holds w s) : Holds w (State.closePort s a1) := by
  unfold State.closePort
  try dsimp only
  repeat' first
    | with_reducible assumption
    | fail_if_no_progress with_reducible refine Holds.mk_of ?_ rfl rfl rfl rfl rfl rfl

end Sys2Proof.Machine
end

