-- ==== Sys2Proof/Laws/KeepsContain.lean ====
section
/-! SUPPORT. What Machine/Contain.lean does keeps what is watched. -/

namespace Sys2Proof.Machine

theorem State.forgetRegistrar_keeps {w : Watch} {s : State} {a1} (h : Holds w s) : Holds w (State.forgetRegistrar s a1) := by
  unfold State.forgetRegistrar
  try dsimp only
  repeat' first
    | with_reducible assumption
    | fail_if_no_progress with_reducible refine Holds.mk_of ?_ rfl rfl rfl rfl rfl rfl

theorem State.forgetWork_keeps {w : Watch} {s : State} {a1} (h : Holds w s) : Holds w (State.forgetWork s a1) := by
  unfold State.forgetWork
  try dsimp only
  repeat' first
    | with_reducible assumption
    | with_reducible apply State.setReg_keeps
    | fail_if_no_progress with_reducible refine Holds.mk_of ?_ rfl rfl rfl rfl rfl rfl
    | with_reducible refine foldl_keeps ?_ ?_
    | split
    | (intro)

theorem State.forget_keeps {w : Watch} {s : State} {a1} (h : Holds w s) : Holds w (State.forget s a1) := by
  unfold State.forget
  try dsimp only
  repeat' first
    | with_reducible assumption
    | with_reducible apply State.forgetAudio_keeps
    | with_reducible apply State.forgetAux_keeps
    | with_reducible apply State.forgetBindery_keeps
    | with_reducible apply State.forgetHaptics_keeps
    | with_reducible apply State.forgetRegistrar_keeps
    | with_reducible apply State.forgetTelltales_keeps
    | with_reducible apply State.forgetTouch_keeps
    | with_reducible apply State.forgetWindows_keeps
    | with_reducible apply State.forgetWork_keeps
    | fail_if_no_progress with_reducible refine Holds.mk_of ?_ rfl rfl rfl rfl rfl rfl

theorem State.endPkt_keeps {w : Watch} {s : State} {a1 a2 a3} (h : Holds w s) : Holds w (State.endPkt s a1 a2 a3) := by
  unfold State.endPkt
  try dsimp only
  repeat' first
    | with_reducible assumption
    | with_reducible apply State.complete_keeps
    | with_reducible apply State.forget_keeps

theorem State.endAll_keeps {w : Watch} {s : State} {a1 a2 a3} (h : Holds w s) : Holds w (State.endAll s a1 a2 a3) := by
  unfold State.endAll
  try dsimp only
  repeat' first
    | with_reducible assumption
    | with_reducible apply State.endPkt_keeps
    | fail_if_no_progress with_reducible refine Holds.mk_of ?_ rfl rfl rfl rfl rfl rfl
    | with_reducible refine foldl_keeps ?_ ?_
    | split
    | (intro)

theorem State.enterContained_keeps {w : Watch} {s : State} {a1 a2 a3} (h : Holds w s) : Holds w (State.enterContained s a1 a2 a3) := by
  unfold State.enterContained
  try dsimp only
  repeat' first
    | with_reducible assumption
    | with_reducible apply State.breakSlips_keeps
    | with_reducible apply State.complete_keeps
    | with_reducible apply State.endAll_keeps
    | with_reducible apply State.flushHeld_keeps
    | with_reducible apply State.loseController_keeps
    | with_reducible apply State.post_keeps
    | with_reducible apply State.setInst_keeps
    | fail_if_no_progress with_reducible refine Holds.mk_of ?_ rfl rfl rfl rfl rfl rfl
    | with_reducible refine foldl_keeps ?_ ?_
    | split
    | (intro)

theorem State.fault1_keeps {w : Watch} {s : State} {a1 a2 a3 a4 a5 a6} (h : Holds w s) : Holds w (State.fault1 s a1 a2 a3 a4 a5 a6) := by
  unfold State.fault1
  try dsimp only
  repeat' first
    | with_reducible assumption
    | with_reducible apply State.enterContained_keeps
    | with_reducible apply State.record_keeps
    | fail_if_no_progress with_reducible refine Holds.mk_of ?_ rfl rfl rfl rfl rfl rfl
    | split

theorem State.storeReply_keeps {w : Watch} {s : State} {a1 a2 a3 a4 a5 a6} (h : Holds w s) : Holds w (State.storeReply s a1 a2 a3 a4 a5 a6) := by
  unfold State.storeReply
  try dsimp only
  repeat' first
    | with_reducible assumption
    | with_reducible apply State.complete_keeps
    | with_reducible apply State.fault1_keeps
    | with_reducible apply State.postUe_keeps
    | with_reducible apply State.store_keeps
    | fail_if_no_progress with_reducible refine Holds.mk_of ?_ rfl rfl rfl rfl rfl rfl
    | split

end Sys2Proof.Machine
end

