-- ==== Sys2Proof/Laws/KeepsHapLoop.lean ====
section
/-! SUPPORT. What Machine/HapLoop.lean does keeps what is watched. -/

namespace Sys2Proof.Machine

theorem State.hapFault_keeps {w : Watch} {s : State} {a1 a2} (h : Holds w s) : Holds w (State.hapFault s a1 a2) := by
  unfold State.hapFault
  try dsimp only
  repeat' first
    | with_reducible assumption
    | with_reducible apply State.endEffect_keeps
    | with_reducible apply State.endPending_keeps
    | with_reducible apply State.fault1_keeps
    | with_reducible apply State.postMgr_keeps
    | with_reducible apply State.postOwner_keeps
    | with_reducible apply State.record_keeps
    | with_reducible apply State.setF_keeps
    | with_reducible apply State.setHap_keeps
    | fail_if_no_progress with_reducible refine Holds.mk_of ?_ rfl rfl rfl rfl rfl rfl
    | split

theorem State.writeHapRecord_keeps {w : Watch} {s : State} {a1 a2} (h : Holds w s) : Holds w (State.writeHapRecord s a1 a2) := by
  unfold State.writeHapRecord
  try dsimp only
  repeat' first
    | with_reducible assumption
    | with_reducible apply State.ledgAppend_keeps
    | with_reducible apply State.setHap_keeps

theorem execCalibrationComplete_keeps {w : Watch} {s : State} {a1 a2 a3 a4 a5 a6} (h : Holds w s) : NextHolds w (execCalibrationComplete a1 a2 a3 a4 a5 a6 s) := by
  unfold execCalibrationComplete
  try dsimp only
  repeat' first
    | with_reducible assumption
    | with_reducible apply nextHolds_next
    | with_reducible exact nextHolds_fault
    | with_reducible exact nextHolds_refused
    | with_reducible apply State.clearCal_keeps
    | with_reducible apply State.complete_keeps
    | with_reducible apply State.hapFault_keeps
    | with_reducible apply State.setF_keeps
    | with_reducible apply State.setHap_keeps
    | with_reducible apply State.setReg_keeps
    | with_reducible apply State.writeHapRecord_keeps
    | fail_if_no_progress with_reducible refine Holds.mk_of ?_ rfl rfl rfl rfl rfl rfl
    | split

theorem State.sensorPeriod_keeps {w : Watch} {s : State} {a1 a2} (h : Holds w s) : Holds w (State.sensorPeriod s a1 a2) := by
  unfold State.sensorPeriod
  try dsimp only
  repeat' first
    | with_reducible assumption
    | with_reducible apply State.fresh_keeps
    | with_reducible refine State.fresh_keeps' (by assumption) ?_
    | with_reducible apply State.postOwner_keeps
    | with_reducible apply State.setF_keeps
    | with_reducible apply State.setHap_keeps
    | fail_if_no_progress with_reducible refine Holds.mk_of ?_ rfl rfl rfl rfl rfl rfl
    | split

theorem State.startEffect_keeps {w : Watch} {s : State} {a1 a2} (h : Holds w s) : Holds w (State.startEffect s a1 a2) := by
  unfold State.startEffect
  try dsimp only
  repeat' first
    | with_reducible assumption
    | with_reducible apply State.commit_keeps
    | with_reducible apply State.setHap_keeps
    | fail_if_no_progress with_reducible refine Holds.mk_of ?_ rfl rfl rfl rfl rfl rfl
    | split

theorem State.brakePeriod_keeps {w : Watch} {s : State} {a1 a2 a3} (h : Holds w s) : Holds w (State.brakePeriod s a1 a2 a3) := by
  unfold State.brakePeriod
  try dsimp only
  repeat' first
    | with_reducible assumption
    | with_reducible apply State.endEffect_keeps
    | with_reducible apply State.setHap_keeps
    | with_reducible apply State.startEffect_keeps
    | fail_if_no_progress with_reducible refine Holds.mk_of ?_ rfl rfl rfl rfl rfl rfl
    | split

theorem State.drivePeriod_keeps {w : Watch} {s : State} {a1 a2 a3} (h : Holds w s) : Holds w (State.drivePeriod s a1 a2 a3) := by
  unfold State.drivePeriod
  try dsimp only
  repeat' first
    | with_reducible assumption
    | with_reducible apply State.count_keeps
    | with_reducible apply State.endEffect_keeps
    | with_reducible apply State.hapFault_keeps
    | with_reducible apply State.postOwner_keeps
    | with_reducible apply State.setHap_keeps
    | with_reducible apply State.startEffect_keeps
    | fail_if_no_progress with_reducible refine Holds.mk_of ?_ rfl rfl rfl rfl rfl rfl
    | split

theorem execHapLoopPeriod_keeps {w : Watch} {s : State} {a1 a2} (h : Holds w s) : NextHolds w (execHapLoopPeriod a1 a2 s) := by
  unfold execHapLoopPeriod
  try dsimp only
  repeat' first
    | with_reducible assumption
    | with_reducible apply nextHolds_next
    | with_reducible exact nextHolds_fault
    | with_reducible exact nextHolds_refused
    | with_reducible apply State.brakePeriod_keeps
    | with_reducible apply State.drivePeriod_keeps
    | with_reducible apply State.hapFault_keeps
    | with_reducible apply State.sensorPeriod_keeps
    | with_reducible apply State.setHap_keeps
    | with_reducible apply State.setReg64_keeps
    | with_reducible apply State.startEffect_keeps
    | fail_if_no_progress with_reducible refine Holds.mk_of ?_ rfl rfl rfl rfl rfl rfl
    | split

end Sys2Proof.Machine
end

