-- ==== Sys2Proof/Laws/KeepsCompose.lean ====
section
/-! SUPPORT. What Machine/Compose.lean does keeps what is watched. -/

namespace Sys2Proof.Machine

theorem State.reshow_keeps {w : Watch} {s : State} {a1 a2 a3 a4} (h : Holds w s) : Holds w (State.reshow s a1 a2 a3 a4) := by
  unfold State.reshow
  try dsimp only
  repeat' first
    | with_reducible assumption
    | fail_if_no_progress with_reducible refine Holds.mk_of ?_ rfl rfl rfl rfl rfl rfl

theorem State.showNow_keeps {w : Watch} {s : State} {a1 a2} (h : Holds w s) : Holds w (State.showNow s a1 a2) := by
  unfold State.showNow
  try dsimp only
  repeat' first
    | with_reducible assumption
    | fail_if_no_progress with_reducible refine Holds.mk_of ?_ rfl rfl rfl rfl rfl rfl

theorem State.hideLayer_keeps {w : Watch} {s : State} {a1} (h : Holds w s) : Holds w (State.hideLayer s a1) := by
  unfold State.hideLayer
  try dsimp only
  repeat' first
    | with_reducible assumption
    | with_reducible apply State.reshow_keeps
    | with_reducible apply State.showNow_keeps
    | fail_if_no_progress with_reducible refine Holds.mk_of ?_ rfl rfl rfl rfl rfl rfl
    | split

theorem State.layerUnderrun_keeps {w : Watch} {s : State} {a1 a2 a3 a4} (h : Holds w s) : Holds w (State.layerUnderrun s a1 a2 a3 a4) := by
  unfold State.layerUnderrun
  try dsimp only
  repeat' first
    | with_reducible assumption
    | with_reducible apply State.count_keeps
    | with_reducible apply State.countLate_keeps
    | with_reducible apply State.hideLayer_keeps
    | with_reducible apply State.markLate_keeps
    | with_reducible apply State.postOwner_keeps
    | fail_if_no_progress with_reducible refine Holds.mk_of ?_ rfl rfl rfl rfl rfl rfl
    | split

theorem State.layerPoison_keeps {w : Watch} {s : State} {a1 a2 a3 a4} (h : Holds w s) : Holds w (State.layerPoison s a1 a2 a3 a4) := by
  unfold State.layerPoison
  try dsimp only
  repeat' first
    | with_reducible assumption
    | with_reducible apply State.countLate_keeps
    | with_reducible apply State.fault1_keeps
    | with_reducible apply State.markLate_keeps
    | with_reducible apply State.postUe_keeps
    | with_reducible apply State.reshow_keeps
    | with_reducible apply State.setLayer_keeps
    | fail_if_no_progress with_reducible refine Holds.mk_of ?_ rfl rfl rfl rfl rfl rfl
    | split

theorem State.noteBlock_keeps {w : Watch} {s : State} {a1 a2} (h : Holds w s) : Holds w (State.noteBlock s a1 a2) := by
  unfold State.noteBlock
  try dsimp only
  repeat' first
    | with_reducible assumption
    | with_reducible apply State.count_keeps
    | with_reducible apply State.post_keeps
    | with_reducible apply State.setLayer_keeps
    | fail_if_no_progress with_reducible refine Holds.mk_of ?_ rfl rfl rfl rfl rfl rfl
    | split

theorem State.fetchLine_keeps {w : Watch} {s : State} {a1 a2 a3 a4 a5 a6 a7 a8 a9} (h : Holds w s) : Holds w (State.fetchLine s a1 a2 a3 a4 a5 a6 a7 a8 a9) := by
  unfold State.fetchLine
  try dsimp only
  repeat' first
    | with_reducible assumption
    | with_reducible apply State.count_keeps
    | with_reducible apply State.layerPoison_keeps
    | with_reducible apply State.noteBlock_keeps
    | with_reducible apply State.noteRead_keeps
    | fail_if_no_progress with_reducible refine Holds.mk_of ?_ rfl rfl rfl rfl rfl rfl
    | with_reducible refine foldl_keeps ?_ ?_
    | split
    | (intro)

theorem State.reportFill_keeps {w : Watch} {s : State} {a1 a2 a3} (h : Holds w s) : Holds w (State.reportFill s a1 a2 a3) := by
  unfold State.reportFill
  try dsimp only
  repeat' first
    | with_reducible assumption
    | with_reducible apply State.count_keeps
    | with_reducible apply State.occur_keeps
    | with_reducible apply State.postOwner_keeps
    | with_reducible apply State.setLayer_keeps
    | fail_if_no_progress with_reducible refine Holds.mk_of ?_ rfl rfl rfl rfl rfl rfl
    | split

theorem State.startBand_keeps {w : Watch} {s : State} {a1 a2 a3 a4 a5 a6} (h : Holds w s) : Holds w (State.startBand s a1 a2 a3 a4 a5 a6) := by
  unfold State.startBand
  try dsimp only
  repeat' first
    | with_reducible assumption
    | with_reducible apply State.count_keeps
    | with_reducible apply State.postOwner_keeps
    | with_reducible apply State.setF_keeps
    | with_reducible apply State.setLayer_keeps
    | fail_if_no_progress with_reducible refine Holds.mk_of ?_ rfl rfl rfl rfl rfl rfl
    | split

theorem State.putLine_keeps {w : Watch} {s : State} {a1 a2 a3 a4 a5 a6} (h : Holds w s) : Holds w (State.putLine s a1 a2 a3 a4 a5 a6) := by
  unfold State.putLine
  try dsimp only
  repeat' first
    | with_reducible assumption
    | with_reducible apply State.feedChecker_keeps
    | with_reducible apply State.feedWindows_keeps
    | with_reducible apply State.setOutp_keeps
    | with_reducible apply State.setPipe_keeps
    | fail_if_no_progress with_reducible refine Holds.mk_of ?_ rfl rfl rfl rfl rfl rfl
    | split

theorem State.composeLine_keeps {w : Watch} {s : State} {a1 a2} (h : Holds w s) : Holds w (State.composeLine s a1 a2) := by
  unfold State.composeLine
  try dsimp only
  repeat' first
    | with_reducible assumption
    | with_reducible apply State.fetchLine_keeps
    | with_reducible apply State.layerUnderrun_keeps
    | with_reducible apply State.occur_keeps
    | with_reducible apply State.putLine_keeps
    | with_reducible apply State.startBand_keeps
    | fail_if_no_progress with_reducible refine Holds.mk_of ?_ rfl rfl rfl rfl rfl rfl
    | with_reducible refine foldl_keeps ?_ ?_
    | split
    | (intro)

theorem State.takeScene_keeps {w : Watch} {s : State} {a1} (h : Holds w s) : Holds w (State.takeScene s a1) := by
  unfold State.takeScene
  try dsimp only
  repeat' first
    | with_reducible assumption
    | with_reducible apply State.setPipe_keeps
    | fail_if_no_progress with_reducible refine Holds.mk_of ?_ rfl rfl rfl rfl rfl rfl
    | split

theorem execBndComposeLine_keeps {w : Watch} {s : State} {a1 a2} (h : Holds w s) : NextHolds w (execBndComposeLine a1 a2 s) := by
  unfold execBndComposeLine
  try dsimp only
  repeat' first
    | with_reducible assumption
    | with_reducible apply nextHolds_next
    | with_reducible exact nextHolds_fault
    | with_reducible exact nextHolds_refused
    | with_reducible apply State.composeLine_keeps
    | with_reducible apply State.reportFill_keeps
    | with_reducible apply State.takeScene_keeps
    | fail_if_no_progress with_reducible refine Holds.mk_of ?_ rfl rfl rfl rfl rfl rfl
    | with_reducible refine foldl_keeps ?_ ?_
    | split
    | (intro)

end Sys2Proof.Machine
end

