-- ==== Sys2Proof/Laws/KeepsLatch.lean ====
section
/-! SUPPORT. What Machine/Latch.lean does keeps what is watched. -/

namespace Sys2Proof.Machine

theorem State.recharge_keeps {w : Watch} {s : State} {a1} (h : Holds w s) : Holds w (State.recharge s a1) := by
  unfold State.recharge
  try dsimp only
  repeat' first
    | with_reducible assumption
    | fail_if_no_progress with_reducible refine Holds.mk_of ?_ rfl rfl rfl rfl rfl rfl

theorem State.latchPlane_keeps {w : Watch} {s : State} {a1 a2} (h : Holds w s) : Holds w (State.latchPlane s a1 a2) := by
  unfold State.latchPlane
  try dsimp only
  repeat' first
    | with_reducible assumption
    | with_reducible apply State.setPipe_keeps

theorem State.noteLatch_keeps {w : Watch} {s : State} {a1 a2} (h : Holds w s) : Holds w (State.noteLatch s a1 a2) := by
  unfold State.noteLatch
  try dsimp only
  repeat' first
    | with_reducible assumption
    | with_reducible apply State.postOut_keeps
    | with_reducible apply State.setReg64_keeps
    | fail_if_no_progress with_reducible refine Holds.mk_of ?_ rfl rfl rfl rfl rfl rfl
    | split

theorem State.latch_keeps {w : Watch} {s : State} {a1} (h : Holds w s) : Holds w (State.latch s a1) := by
  unfold State.latch
  try dsimp only
  repeat' first
    | with_reducible assumption
    | with_reducible apply State.latchBindery_keeps
    | with_reducible apply State.latchCheckers_keeps
    | with_reducible apply State.latchPlane_keeps
    | with_reducible apply State.latchRuns_keeps
    | with_reducible apply State.latchTelltales_keeps
    | with_reducible apply State.latchWindows_keeps
    | with_reducible apply State.noteLatch_keeps
    | with_reducible apply State.settleEscalation_keeps
    | fail_if_no_progress with_reducible refine Holds.mk_of ?_ rfl rfl rfl rfl rfl rfl
    | with_reducible refine foldl_keeps ?_ ?_
    | split
    | (intro)

theorem execOutLatch_keeps {w : Watch} {s : State} {a1} (h : Holds w s) : NextHolds w (execOutLatch a1 s) := by
  unfold execOutLatch
  try dsimp only
  repeat' first
    | with_reducible assumption
    | with_reducible apply nextHolds_next
    | with_reducible exact nextHolds_fault
    | with_reducible exact nextHolds_refused
    | with_reducible apply State.latch_keeps
    | with_reducible apply State.setOutp_keeps
    | with_reducible apply step_keeps
    | fail_if_no_progress with_reducible refine Holds.mk_of ?_ rfl rfl rfl rfl rfl rfl
    | split

theorem execOutTimingStarted_keeps {w : Watch} {s : State} {a1} (h : Holds w s) : NextHolds w (execOutTimingStarted a1 s) := by
  unfold execOutTimingStarted
  try dsimp only
  repeat' first
    | with_reducible assumption
    | with_reducible apply nextHolds_next
    | with_reducible exact nextHolds_fault
    | with_reducible exact nextHolds_refused
    | with_reducible apply State.fitWindows_keeps
    | with_reducible apply State.latch_keeps
    | with_reducible apply State.recharge_keeps
    | with_reducible apply State.setPipe_keeps
    | with_reducible apply State.startChecking_keeps
    | with_reducible apply State.startTiming_keeps
    | with_reducible apply State.stateTolerance_keeps
    | with_reducible apply step_keeps
    | fail_if_no_progress with_reducible refine Holds.mk_of ?_ rfl rfl rfl rfl rfl rfl
    | with_reducible refine foldl_keeps ?_ ?_
    | split
    | (intro)

theorem State.carryFrame_keeps {w : Watch} {s : State} {a1 a2} (h : Holds w s) : Holds w (State.carryFrame s a1 a2) := by
  unfold State.carryFrame
  try dsimp only
  repeat' first
    | with_reducible assumption
    | with_reducible apply State.latchCheckers_keeps
    | with_reducible apply State.latchRuns_keeps
    | with_reducible apply State.setPipe_keeps
    | fail_if_no_progress with_reducible refine Holds.mk_of ?_ rfl rfl rfl rfl rfl rfl
    | split

theorem State.frameStart_keeps {w : Watch} {s : State} {a1} (h : Holds w s) : Holds w (State.frameStart s a1) := by
  unfold State.frameStart
  try dsimp only
  repeat' first
    | with_reducible assumption
    | with_reducible apply State.carryFrame_keeps
    | with_reducible apply State.setF_keeps
    | with_reducible apply State.setOutp_keeps
    | with_reducible apply State.setReg64_keeps
    | with_reducible apply State.settleWear_keeps

theorem execOutFrameStart_keeps {w : Watch} {s : State} {a1} (h : Holds w s) : NextHolds w (execOutFrameStart a1 s) := by
  unfold execOutFrameStart
  try dsimp only
  repeat' first
    | with_reducible assumption
    | with_reducible apply nextHolds_next
    | with_reducible exact nextHolds_fault
    | with_reducible exact nextHolds_refused
    | with_reducible apply State.endChange_keeps
    | with_reducible apply State.frameStart_keeps
    | with_reducible apply step_keeps
    | fail_if_no_progress with_reducible refine Holds.mk_of ?_ rfl rfl rfl rfl rfl rfl
    | with_reducible refine foldl_keeps ?_ ?_
    | split

end Sys2Proof.Machine
end

