-- ==== Sys2Proof/Laws/KeepsRegistrar.lean ====
section
/-! SUPPORT. What Machine/Registrar.lean does keeps what is watched. -/

namespace Sys2Proof.Machine

theorem State.wipe_keeps {w : Watch} {s : State} {a1 a2 a3} (h : Holds w s) : Holds w (State.wipe s a1 a2 a3) := by
  unfold State.wipe
  try dsimp only
  repeat' first
    | with_reducible assumption
    | with_reducible apply State.putBytes_keeps
    | exact Holds.mk_data h rfl (tabWf_dropRange _ _ h.inv.2) rfl rfl rfl rfl
    | fail_if_no_progress with_reducible refine Holds.mk_of ?_ rfl rfl rfl rfl rfl rfl
    | split

theorem State.startMove_keeps {w : Watch} {s : State} {a1 a2 a3 a4} (h : Holds w s) : Holds w (State.startMove s a1 a2 a3 a4) := by
  unfold State.startMove
  try dsimp only
  repeat' first
    | with_reducible assumption
    | fail_if_no_progress with_reducible refine Holds.mk_of ?_ rfl rfl rfl rfl rfl rfl
    | split

theorem State.cancelMove_keeps {w : Watch} {s : State} {a1 a2} (h : Holds w s) : Holds w (State.cancelMove s a1 a2) := by
  unfold State.cancelMove
  try dsimp only
  repeat' first
    | with_reducible assumption
    | with_reducible apply State.count_keeps
    | with_reducible apply State.occur_keeps
    | with_reducible apply State.postMgr_keeps
    | with_reducible apply State.setObj_keeps
    | fail_if_no_progress with_reducible refine Holds.mk_of ?_ rfl rfl rfl rfl rfl rfl
    | split

theorem State.cancelMoves_keeps {w : Watch} {s : State} {a1 a2} (h : Holds w s) : Holds w (State.cancelMoves s a1 a2) := by
  unfold State.cancelMoves
  try dsimp only
  repeat' first
    | with_reducible assumption
    | with_reducible apply State.cancelMove_keeps
    | fail_if_no_progress with_reducible refine Holds.mk_of ?_ rfl rfl rfl rfl rfl rfl
    | with_reducible refine foldl_keeps ?_ ?_
    | split
    | (intro)

theorem execGranuleCopyPassDone_keeps {w : Watch} {s : State} {a1 a2} (h : Holds w s) : NextHolds w (execGranuleCopyPassDone a1 a2 s) := by
  unfold execGranuleCopyPassDone
  try dsimp only
  repeat' first
    | with_reducible assumption
    | with_reducible apply nextHolds_next
    | with_reducible exact nextHolds_fault
    | with_reducible exact nextHolds_refused
    | with_reducible apply State.cancelMove_keeps
    | with_reducible apply State.noteRead_keeps
    | fail_if_no_progress with_reducible refine Holds.mk_of ?_ rfl rfl rfl rfl rfl rfl
    | split

theorem execGranuleFlip_keeps {w : Watch} {s : State} {a1 a2} (h : Holds w s) : NextHolds w (execGranuleFlip a1 a2 s) := by
  unfold execGranuleFlip
  try dsimp only
  repeat' first
    | with_reducible assumption
    | with_reducible apply nextHolds_next
    | with_reducible exact nextHolds_fault
    | with_reducible exact nextHolds_refused
    | with_reducible apply State.cancelMove_keeps
    | with_reducible apply State.count_keeps
    | with_reducible apply State.occur_keeps
    | with_reducible apply State.setObj_keeps
    | with_reducible apply State.settleBeat_keeps
    | fail_if_no_progress with_reducible refine Holds.mk_of ?_ rfl rfl rfl rfl rfl rfl
    | with_reducible refine foldl_keeps ?_ ?_
    | split
    | (intro)

theorem execMoveReadDrain_keeps {w : Watch} {s : State} {a1 a2} (h : Holds w s) : NextHolds w (execMoveReadDrain a1 a2 s) := by
  unfold execMoveReadDrain
  try dsimp only
  repeat' first
    | with_reducible assumption
    | with_reducible apply nextHolds_next
    | with_reducible exact nextHolds_fault
    | with_reducible exact nextHolds_refused
    | fail_if_no_progress with_reducible refine Holds.mk_of ?_ rfl rfl rfl rfl rfl rfl
    | split

theorem execMoveTimeLimit_keeps {w : Watch} {s : State} {a1 a2} (h : Holds w s) : NextHolds w (execMoveTimeLimit a1 a2 s) := by
  unfold execMoveTimeLimit
  try dsimp only
  repeat' first
    | with_reducible assumption
    | with_reducible apply nextHolds_next
    | with_reducible exact nextHolds_fault
    | with_reducible exact nextHolds_refused
    | with_reducible apply State.cancelMove_keeps
    | fail_if_no_progress with_reducible refine Holds.mk_of ?_ rfl rfl rfl rfl rfl rfl
    | split

theorem execStorageDrainComplete_keeps {w : Watch} {s : State} {a1} (h : Holds w s) : NextHolds w (execStorageDrainComplete a1 s) := by
  unfold execStorageDrainComplete
  try dsimp only
  repeat' first
    | with_reducible assumption
    | with_reducible apply nextHolds_next
    | with_reducible exact nextHolds_fault
    | with_reducible exact nextHolds_refused
    | with_reducible apply State.wipe_keeps
    | fail_if_no_progress with_reducible refine Holds.mk_of ?_ rfl rfl rfl rfl rfl rfl
    | split

theorem execPlacementEpoch_keeps {w : Watch} {s : State} (h : Holds w s) : NextHolds w (execPlacementEpoch s) := by
  unfold execPlacementEpoch
  try dsimp only
  repeat' first
    | with_reducible assumption
    | with_reducible apply nextHolds_next
    | with_reducible exact nextHolds_fault
    | with_reducible exact nextHolds_refused
    | with_reducible apply State.post_keeps
    | with_reducible apply State.setF_keeps
    | fail_if_no_progress with_reducible refine Holds.mk_of ?_ rfl rfl rfl rfl rfl rfl
    | with_reducible refine foldl_keeps ?_ ?_
    | split
    | (intro)

theorem execEpochDecisionsPublished_keeps {w : Watch} {s : State} {a1 a2 a3 a4} (h : Holds w s) : NextHolds w (execEpochDecisionsPublished a1 a2 a3 a4 s) := by
  unfold execEpochDecisionsPublished
  try dsimp only
  repeat' first
    | with_reducible assumption
    | with_reducible apply nextHolds_next
    | with_reducible exact nextHolds_fault
    | with_reducible exact nextHolds_refused
    | with_reducible apply State.occur_keeps
    | with_reducible apply State.setObj_keeps
    | with_reducible apply State.setReg64_keeps
    | with_reducible apply State.startMove_keeps
    | fail_if_no_progress with_reducible refine Holds.mk_of ?_ rfl rfl rfl rfl rfl rfl
    | with_reducible refine foldl_keeps ?_ ?_
    | split
    | (intro)

theorem execEpochOverrun_keeps {w : Watch} {s : State} (h : Holds w s) : NextHolds w (execEpochOverrun s) := by
  unfold execEpochOverrun
  try dsimp only
  repeat' first
    | with_reducible assumption
    | with_reducible apply nextHolds_next
    | with_reducible exact nextHolds_fault
    | with_reducible exact nextHolds_refused
    | with_reducible apply State.count_keeps
    | with_reducible apply State.postMgr_keeps
    | fail_if_no_progress with_reducible refine Holds.mk_of ?_ rfl rfl rfl rfl rfl rfl
    | split

theorem execXdevWaitExpiry_keeps {w : Watch} {s : State} {a1} (h : Holds w s) : NextHolds w (execXdevWaitExpiry a1 s) := by
  unfold execXdevWaitExpiry
  try dsimp only
  repeat' first
    | with_reducible assumption
    | with_reducible apply nextHolds_next
    | with_reducible exact nextHolds_fault
    | with_reducible exact nextHolds_refused
    | with_reducible apply State.complete_keeps
    | fail_if_no_progress with_reducible refine Holds.mk_of ?_ rfl rfl rfl rfl rfl rfl
    | split

theorem State.chooseDva_keeps {w : Watch} {s : State} {a1 a2 a3} (h : Holds w s) : Holds w (State.chooseDva s a1 a2 a3).2 := by
  unfold State.chooseDva
  try dsimp only
  repeat' first
    | with_reducible assumption
    | with_reducible apply State.fresh_keeps
    | with_reducible refine State.fresh_keeps' (by assumption) ?_
    | fail_if_no_progress with_reducible refine Holds.mk_of ?_ rfl rfl rfl rfl rfl rfl
    | fail_if_no_progress dsimp only
    | split

theorem State.chooseDva_keeps' {u v} {w : Watch} {s : State} {a1 a2 a3} (e : State.chooseDva s a1 a2 a3 = (v, u)) (h : Holds w s) : Holds w u := by
  have h2 := @State.chooseDva_keeps w s a1 a2 a3 h
  rw [e] at h2
  exact h2

theorem State.newObject_keeps {w : Watch} {s : State} {a1 a2 a3 a4 a5 a6 a7 a8 a9} (h : Holds w s) : Holds w (State.newObject s a1 a2 a3 a4 a5 a6 a7 a8 a9) := by
  unfold State.newObject
  try dsimp only
  repeat' first
    | with_reducible assumption
    | with_reducible apply State.setShelf_keeps
    | with_reducible apply State.wipe_keeps
    | fail_if_no_progress with_reducible refine Holds.mk_of ?_ rfl rfl rfl rfl rfl rfl

theorem effShmAlloc_keeps {w : Watch} {s : State} {a1 a2} (h : Holds w s) : Holds w (effShmAlloc a1 a2 s) := by
  unfold effShmAlloc
  try dsimp only
  repeat' first
    | with_reducible assumption
    | with_reducible apply State.chooseDva_keeps
    | with_reducible refine State.chooseDva_keeps' (by assumption) ?_
    | with_reducible apply State.complete_keeps
    | with_reducible apply State.newObject_keeps
    | fail_if_no_progress with_reducible refine Holds.mk_of ?_ rfl rfl rfl rfl rfl rfl
    | split

theorem execShmAlloc_keeps {w : Watch} {s : State} {a1} (h : Holds w s) : NextHolds w (execShmAlloc a1 s) := by
  unfold execShmAlloc
  try dsimp only
  repeat' first
    | with_reducible assumption
    | with_reducible apply nextHolds_next
    | with_reducible exact nextHolds_fault
    | with_reducible exact nextHolds_refused
    | with_reducible apply effShmAlloc_keeps
    | with_reducible apply runPkt_keeps
    | fail_if_no_progress with_reducible refine Holds.mk_of ?_ rfl rfl rfl rfl rfl rfl
    | split
    | (intro)

theorem State.freeObject_keeps {w : Watch} {s : State} {a1} (h : Holds w s) : Holds w (State.freeObject s a1) := by
  unfold State.freeObject
  try dsimp only
  repeat' first
    | with_reducible assumption
    | with_reducible apply State.cancelMoves_keeps
    | with_reducible apply State.setShelf_keeps
    | fail_if_no_progress with_reducible refine Holds.mk_of ?_ rfl rfl rfl rfl rfl rfl
    | split

theorem State.waitPeer_keeps {w : Watch} {s : State} {a1} (h : Holds w s) : Holds w (State.waitPeer s a1) := by
  unfold State.waitPeer
  try dsimp only
  repeat' first
    | with_reducible assumption
    | fail_if_no_progress with_reducible refine Holds.mk_of ?_ rfl rfl rfl rfl rfl rfl
    | split

theorem State.finish_keeps {w : Watch} {s : State} {a1 a2 a3 a4 a5} (h : Holds w s) : Holds w (State.finish s a1 a2 a3 a4 a5) := by
  unfold State.finish
  try dsimp only
  repeat' first
    | with_reducible assumption
    | with_reducible apply State.complete_keeps
    | with_reducible apply State.forgetRegistrar_keeps

theorem effShmFree_keeps {w : Watch} {s : State} {a1 a2} (h : Holds w s) : Holds w (effShmFree a1 a2 s) := by
  unfold effShmFree
  try dsimp only
  repeat' first
    | with_reducible assumption
    | with_reducible apply State.finish_keeps
    | with_reducible apply State.freeObject_keeps
    | with_reducible apply State.waitPeer_keeps
    | fail_if_no_progress with_reducible refine Holds.mk_of ?_ rfl rfl rfl rfl rfl rfl
    | split

theorem execShmFree_keeps {w : Watch} {s : State} {a1} (h : Holds w s) : NextHolds w (execShmFree a1 s) := by
  unfold execShmFree
  try dsimp only
  repeat' first
    | with_reducible assumption
    | with_reducible apply nextHolds_next
    | with_reducible exact nextHolds_fault
    | with_reducible exact nextHolds_refused
    | with_reducible apply effShmFree_keeps
    | with_reducible apply runPkt_keeps
    | fail_if_no_progress with_reducible refine Holds.mk_of ?_ rfl rfl rfl rfl rfl rfl
    | split
    | (intro)

theorem effShmAllocSparse_keeps {w : Watch} {s : State} {a1 a2} (h : Holds w s) : Holds w (effShmAllocSparse a1 a2 s) := by
  unfold effShmAllocSparse
  try dsimp only
  repeat' first
    | with_reducible assumption
    | with_reducible apply State.chooseDva_keeps
    | with_reducible refine State.chooseDva_keeps' (by assumption) ?_
    | with_reducible apply State.complete_keeps
    | with_reducible apply State.newObject_keeps
    | fail_if_no_progress with_reducible refine Holds.mk_of ?_ rfl rfl rfl rfl rfl rfl
    | split

theorem execShmAllocSparse_keeps {w : Watch} {s : State} {a1} (h : Holds w s) : NextHolds w (execShmAllocSparse a1 s) := by
  unfold execShmAllocSparse
  try dsimp only
  repeat' first
    | with_reducible assumption
    | with_reducible apply nextHolds_next
    | with_reducible exact nextHolds_fault
    | with_reducible exact nextHolds_refused
    | with_reducible apply effShmAllocSparse_keeps
    | with_reducible apply runPkt_keeps
    | fail_if_no_progress with_reducible refine Holds.mk_of ?_ rfl rfl rfl rfl rfl rfl
    | split
    | (intro)

theorem effShmSetResidency_keeps {w : Watch} {s : State} {a1 a2} (h : Holds w s) : Holds w (effShmSetResidency a1 a2 s) := by
  unfold effShmSetResidency
  try dsimp only
  repeat' first
    | with_reducible assumption
    | with_reducible apply State.cancelMoves_keeps
    | with_reducible apply State.complete_keeps
    | with_reducible apply State.setObj_keeps
    | with_reducible apply State.wipe_keeps
    | fail_if_no_progress with_reducible refine Holds.mk_of ?_ rfl rfl rfl rfl rfl rfl
    | with_reducible apply id_keeps
    | with_reducible refine foldl_keeps ?_ ?_
    | split
    | (intro)

theorem execShmSetResidency_keeps {w : Watch} {s : State} {a1} (h : Holds w s) : NextHolds w (execShmSetResidency a1 s) := by
  unfold execShmSetResidency
  try dsimp only
  repeat' first
    | with_reducible assumption
    | with_reducible apply nextHolds_next
    | with_reducible exact nextHolds_fault
    | with_reducible exact nextHolds_refused
    | with_reducible apply effShmSetResidency_keeps
    | with_reducible apply runPkt_keeps
    | fail_if_no_progress with_reducible refine Holds.mk_of ?_ rfl rfl rfl rfl rfl rfl
    | split
    | (intro)

theorem State.clearOut_keeps {w : Watch} {s : State} {a1 a2 a3} (h : Holds w s) : Holds w (State.clearOut s a1 a2 a3).1 := by
  unfold State.clearOut
  try dsimp only
  repeat' first
    | with_reducible assumption
    | with_reducible apply State.startMove_keeps
    | with_reducible refine foldl_keeps_fst ?_ ?_
    | fail_if_no_progress dsimp only
    | fail_if_no_progress with_reducible refine Holds.mk_of ?_ rfl rfl rfl rfl rfl rfl
    | with_reducible refine foldl_keeps ?_ ?_
    | fail_if_no_progress dsimp only
    | with_reducible refine foldl_keeps_fst ?_ ?_
    | split
    | (intro)

theorem State.clearOut_keeps' {u v} {w : Watch} {s : State} {a1 a2 a3} (e : State.clearOut s a1 a2 a3 = (u, v)) (h : Holds w s) : Holds w u := by
  have h2 := @State.clearOut_keeps w s a1 a2 a3 h
  rw [e] at h2
  exact h2

theorem State.applyHint_keeps {w : Watch} {s : State} {a1 a2} (h : Holds w s) : Holds w (State.applyHint s a1 a2) := by
  unfold State.applyHint
  try dsimp only
  repeat' first
    | with_reducible assumption
    | with_reducible apply State.cancelMoves_keeps
    | with_reducible apply State.setObj_keeps
    | fail_if_no_progress with_reducible refine Holds.mk_of ?_ rfl rfl rfl rfl rfl rfl
    | split

theorem effShmHint_keeps {w : Watch} {s : State} {a1 a2} (h : Holds w s) : Holds w (effShmHint a1 a2 s) := by
  unfold effShmHint
  try dsimp only
  repeat' first
    | with_reducible assumption
    | with_reducible apply State.applyHint_keeps
    | with_reducible apply State.cancelMoves_keeps
    | with_reducible apply State.clearOut_keeps
    | with_reducible refine State.clearOut_keeps' (by assumption) ?_
    | with_reducible apply State.finish_keeps
    | with_reducible apply State.waitPeer_keeps
    | fail_if_no_progress with_reducible refine Holds.mk_of ?_ rfl rfl rfl rfl rfl rfl
    | split

theorem execShmHint_keeps {w : Watch} {s : State} {a1} (h : Holds w s) : NextHolds w (execShmHint a1 s) := by
  unfold execShmHint
  try dsimp only
  repeat' first
    | with_reducible assumption
    | with_reducible apply nextHolds_next
    | with_reducible exact nextHolds_fault
    | with_reducible exact nextHolds_refused
    | with_reducible apply effShmHint_keeps
    | with_reducible apply runPkt_keeps
    | fail_if_no_progress with_reducible refine Holds.mk_of ?_ rfl rfl rfl rfl rfl rfl
    | split
    | (intro)

theorem effShmUpload_keeps {w : Watch} {s : State} {a1 a2 a3} (h : Holds w s) : Holds w (effShmUpload a1 a2 a3 s) := by
  unfold effShmUpload
  try dsimp only
  repeat' first
    | with_reducible assumption
    | with_reducible apply State.complete_keeps
    | with_reducible apply State.fault1_keeps
    | with_reducible apply State.postUe_keeps
    | with_reducible apply State.setObj_keeps
    | with_reducible apply State.store_keeps
    | fail_if_no_progress with_reducible refine Holds.mk_of ?_ rfl rfl rfl rfl rfl rfl
    | with_reducible refine foldl_keeps ?_ ?_
    | split

theorem execShmUpload_keeps {w : Watch} {s : State} {a1 a2} (h : Holds w s) : NextHolds w (execShmUpload a1 a2 s) := by
  unfold execShmUpload
  try dsimp only
  repeat' first
    | with_reducible assumption
    | with_reducible apply nextHolds_next
    | with_reducible exact nextHolds_fault
    | with_reducible exact nextHolds_refused
    | with_reducible apply effShmUpload_keeps
    | with_reducible apply runPkt_keeps
    | fail_if_no_progress with_reducible refine Holds.mk_of ?_ rfl rfl rfl rfl rfl rfl
    | split
    | (intro)

theorem effShmDownload_keeps {w : Watch} {s : State} {a1 a2 a3} (h : Holds w s) : Holds w (effShmDownload a1 a2 a3 s) := by
  unfold effShmDownload
  try dsimp only
  repeat' first
    | with_reducible assumption
    | with_reducible apply State.complete_keeps
    | with_reducible apply State.emit_keeps
    | with_reducible apply State.fault1_keeps
    | with_reducible apply State.noteRead_keeps
    | with_reducible apply State.postUe_keeps
    | fail_if_no_progress with_reducible refine Holds.mk_of ?_ rfl rfl rfl rfl rfl rfl
    | split

theorem execShmDownload_keeps {w : Watch} {s : State} {a1 a2} (h : Holds w s) : NextHolds w (execShmDownload a1 a2 s) := by
  unfold execShmDownload
  try dsimp only
  repeat' first
    | with_reducible assumption
    | with_reducible apply nextHolds_next
    | with_reducible exact nextHolds_fault
    | with_reducible exact nextHolds_refused
    | with_reducible apply effShmDownload_keeps
    | with_reducible apply runPkt_keeps
    | fail_if_no_progress with_reducible refine Holds.mk_of ?_ rfl rfl rfl rfl rfl rfl
    | split
    | (intro)

theorem effShmQuery_keeps {w : Watch} {s : State} {a1 a2} (h : Holds w s) : Holds w (effShmQuery a1 a2 s) := by
  unfold effShmQuery
  try dsimp only
  repeat' first
    | with_reducible assumption
    | with_reducible apply State.complete_keeps
    | fail_if_no_progress with_reducible refine Holds.mk_of ?_ rfl rfl rfl rfl rfl rfl
    | split

theorem execShmQuery_keeps {w : Watch} {s : State} {a1} (h : Holds w s) : NextHolds w (execShmQuery a1 s) := by
  unfold execShmQuery
  try dsimp only
  repeat' first
    | with_reducible assumption
    | with_reducible apply nextHolds_next
    | with_reducible exact nextHolds_fault
    | with_reducible exact nextHolds_refused
    | with_reducible apply effShmQuery_keeps
    | with_reducible apply runPkt_keeps
    | fail_if_no_progress with_reducible refine Holds.mk_of ?_ rfl rfl rfl rfl rfl rfl
    | split
    | (intro)

theorem State.putRegion_keeps {w : Watch} {s : State} {a1 a2 a3 a4 a5 a6} (h : Holds w s) : Holds w (State.putRegion s a1 a2 a3 a4 a5 a6) := by
  unfold State.putRegion
  try dsimp only
  repeat' first
    | with_reducible assumption
    | with_reducible apply State.setReg_keeps

theorem State.withdrawRegion_keeps {w : Watch} {s : State} {a1 a2} (h : Holds w s) : Holds w (State.withdrawRegion s a1 a2) := by
  unfold State.withdrawRegion
  try dsimp only
  repeat' first
    | with_reducible assumption
    | with_reducible apply State.cancelMoves_keeps
    | with_reducible apply State.clearOut_keeps
    | with_reducible refine State.clearOut_keeps' (by assumption) ?_
    | with_reducible apply State.finish_keeps
    | with_reducible apply State.putRegion_keeps
    | fail_if_no_progress with_reducible refine Holds.mk_of ?_ rfl rfl rfl rfl rfl rfl
    | with_reducible refine foldl_keeps ?_ ?_
    | split

theorem effMemSetRegion_keeps {w : Watch} {s : State} {a1 a2} (h : Holds w s) : Holds w (effMemSetRegion a1 a2 s) := by
  unfold effMemSetRegion
  try dsimp only
  repeat' first
    | with_reducible assumption
    | with_reducible apply State.complete_keeps
    | with_reducible apply State.putRegion_keeps
    | with_reducible apply State.withdrawRegion_keeps
    | fail_if_no_progress with_reducible refine Holds.mk_of ?_ rfl rfl rfl rfl rfl rfl
    | split

theorem execMemSetRegion_keeps {w : Watch} {s : State} {a1} (h : Holds w s) : NextHolds w (execMemSetRegion a1 s) := by
  unfold execMemSetRegion
  try dsimp only
  repeat' first
    | with_reducible assumption
    | with_reducible apply nextHolds_next
    | with_reducible exact nextHolds_fault
    | with_reducible exact nextHolds_refused
    | with_reducible apply effMemSetRegion_keeps
    | with_reducible apply runPkt_keeps
    | fail_if_no_progress with_reducible refine Holds.mk_of ?_ rfl rfl rfl rfl rfl rfl
    | split
    | (intro)

theorem effMemSetReserve_keeps {w : Watch} {s : State} {a1 a2} (h : Holds w s) : Holds w (effMemSetReserve a1 a2 s) := by
  unfold effMemSetReserve
  try dsimp only
  repeat' first
    | with_reducible assumption
    | with_reducible apply State.complete_keeps
    | fail_if_no_progress with_reducible refine Holds.mk_of ?_ rfl rfl rfl rfl rfl rfl

theorem execMemSetReserve_keeps {w : Watch} {s : State} {a1} (h : Holds w s) : NextHolds w (execMemSetReserve a1 s) := by
  unfold execMemSetReserve
  try dsimp only
  repeat' first
    | with_reducible assumption
    | with_reducible apply nextHolds_next
    | with_reducible exact nextHolds_fault
    | with_reducible exact nextHolds_refused
    | with_reducible apply effMemSetReserve_keeps
    | with_reducible apply runPkt_keeps
    | fail_if_no_progress with_reducible refine Holds.mk_of ?_ rfl rfl rfl rfl rfl rfl
    | split
    | (intro)

theorem State.dropShadows_keeps {w : Watch} {s : State} {a1} (h : Holds w s) : Holds w (State.dropShadows s a1) := by
  unfold State.dropShadows
  try dsimp only
  repeat' first
    | with_reducible assumption
    | fail_if_no_progress with_reducible refine Holds.mk_of ?_ rfl rfl rfl rfl rfl rfl

theorem effMemLockBank_keeps {w : Watch} {s : State} {a1 a2} (h : Holds w s) : Holds w (effMemLockBank a1 a2 s) := by
  unfold effMemLockBank
  try dsimp only
  repeat' first
    | with_reducible assumption
    | with_reducible apply State.cancelMoves_keeps
    | with_reducible apply State.clearOut_keeps
    | with_reducible refine State.clearOut_keeps' (by assumption) ?_
    | with_reducible apply State.complete_keeps
    | with_reducible apply State.dropShadows_keeps
    | with_reducible apply State.finish_keeps
    | with_reducible apply State.setBit_keeps
    | fail_if_no_progress with_reducible refine Holds.mk_of ?_ rfl rfl rfl rfl rfl rfl
    | split

theorem execMemLockBank_keeps {w : Watch} {s : State} {a1} (h : Holds w s) : NextHolds w (execMemLockBank a1 s) := by
  unfold execMemLockBank
  try dsimp only
  repeat' first
    | with_reducible assumption
    | with_reducible apply nextHolds_next
    | with_reducible exact nextHolds_fault
    | with_reducible exact nextHolds_refused
    | with_reducible apply effMemLockBank_keeps
    | with_reducible apply runPkt_keeps
    | fail_if_no_progress with_reducible refine Holds.mk_of ?_ rfl rfl rfl rfl rfl rfl
    | split
    | (intro)

theorem effMemUnlockBank_keeps {w : Watch} {s : State} {a1 a2} (h : Holds w s) : Holds w (effMemUnlockBank a1 a2 s) := by
  unfold effMemUnlockBank
  try dsimp only
  repeat' first
    | with_reducible assumption
    | with_reducible apply State.complete_keeps
    | with_reducible apply State.setBit_keeps

theorem execMemUnlockBank_keeps {w : Watch} {s : State} {a1} (h : Holds w s) : NextHolds w (execMemUnlockBank a1 s) := by
  unfold execMemUnlockBank
  try dsimp only
  repeat' first
    | with_reducible assumption
    | with_reducible apply nextHolds_next
    | with_reducible exact nextHolds_fault
    | with_reducible exact nextHolds_refused
    | with_reducible apply effMemUnlockBank_keeps
    | with_reducible apply runPkt_keeps
    | fail_if_no_progress with_reducible refine Holds.mk_of ?_ rfl rfl rfl rfl rfl rfl
    | split
    | (intro)

end Sys2Proof.Machine
end

