-- ==== Sys2Proof/Laws/KeepsMemory.lean ====
section
/-! SUPPORT. What Machine/Memory.lean does keeps what is watched. -/

namespace Sys2Proof.Machine

theorem State.settlePermit_keeps {w : Watch} {s : State} (h : Holds w s) : Holds w (State.settlePermit s) := by
  unfold State.settlePermit
  try dsimp only
  repeat' first
    | with_reducible assumption
    | with_reducible apply State.complete_keeps
    | fail_if_no_progress with_reducible refine Holds.mk_of ?_ rfl rfl rfl rfl rfl rfl
    | with_reducible refine foldl_keeps ?_ ?_
    | split
    | (intro)

theorem State.leaveRefresh_keeps {w : Watch} {s : State} {a1 a2} (h : Holds w s) : Holds w (State.leaveRefresh s a1 a2) := by
  unfold State.leaveRefresh
  try dsimp only
  repeat' first
    | with_reducible assumption
    | with_reducible apply State.setBit_keeps
    | with_reducible apply State.setF_keeps
    | with_reducible apply State.settlePermit_keeps
    | fail_if_no_progress with_reducible refine Holds.mk_of ?_ rfl rfl rfl rfl rfl rfl
    | split

theorem State.abandonStep_keeps {w : Watch} {s : State} (h : Holds w s) : Holds w (State.abandonStep s) := by
  unfold State.abandonStep
  try dsimp only
  repeat' first
    | with_reducible assumption
    | with_reducible apply State.setF_keeps
    | fail_if_no_progress with_reducible refine Holds.mk_of ?_ rfl rfl rfl rfl rfl rfl
    | split

theorem execTolMessage_keeps {w : Watch} {s : State} {a1} (h : Holds w s) : NextHolds w (execTolMessage a1 s) := by
  unfold execTolMessage
  try dsimp only
  repeat' first
    | with_reducible assumption
    | with_reducible apply nextHolds_next
    | with_reducible exact nextHolds_fault
    | with_reducible exact nextHolds_refused
    | with_reducible apply State.setF_keeps
    | with_reducible apply State.stateTolerance_keeps
    | fail_if_no_progress with_reducible refine Holds.mk_of ?_ rfl rfl rfl rfl rfl rfl
    | split

theorem execTolLost_keeps {w : Watch} {s : State} {a1} (h : Holds w s) : NextHolds w (execTolLost a1 s) := by
  unfold execTolLost
  try dsimp only
  repeat' first
    | with_reducible assumption
    | with_reducible apply nextHolds_next
    | with_reducible exact nextHolds_fault
    | with_reducible exact nextHolds_refused
    | with_reducible apply State.abandonStep_keeps
    | with_reducible apply State.leaveRefresh_keeps
    | with_reducible apply State.postMgr_keeps
    | with_reducible apply State.setBit_keeps
    | fail_if_no_progress with_reducible refine Holds.mk_of ?_ rfl rfl rfl rfl rfl rfl
    | with_reducible refine foldl_keeps ?_ ?_
    | split
    | (intro)

theorem execSelfRefreshEntry_keeps {w : Watch} {s : State} {a1} (h : Holds w s) : NextHolds w (execSelfRefreshEntry a1 s) := by
  unfold execSelfRefreshEntry
  try dsimp only
  repeat' first
    | with_reducible assumption
    | with_reducible apply nextHolds_next
    | with_reducible exact nextHolds_fault
    | with_reducible exact nextHolds_refused
    | with_reducible apply State.count_keeps
    | with_reducible apply State.setBit_keeps
    | with_reducible apply State.setF_keeps
    | fail_if_no_progress with_reducible refine Holds.mk_of ?_ rfl rfl rfl rfl rfl rfl
    | split

theorem execSelfRefreshExit_keeps {w : Watch} {s : State} {a1 a2 a3} (h : Holds w s) : NextHolds w (execSelfRefreshExit a1 a2 a3 s) := by
  unfold execSelfRefreshExit
  try dsimp only
  repeat' first
    | with_reducible assumption
    | with_reducible apply nextHolds_next
    | with_reducible exact nextHolds_fault
    | with_reducible exact nextHolds_refused
    | with_reducible apply State.leaveRefresh_keeps
    | fail_if_no_progress with_reducible refine Holds.mk_of ?_ rfl rfl rfl rfl rfl rfl
    | split

theorem execMr4Poll_keeps {w : Watch} {s : State} {a1 a2 a3} (h : Holds w s) : NextHolds w (execMr4Poll a1 a2 a3 s) := by
  unfold execMr4Poll
  try dsimp only
  repeat' first
    | with_reducible assumption
    | with_reducible apply nextHolds_next
    | with_reducible exact nextHolds_fault
    | with_reducible exact nextHolds_refused
    | with_reducible apply State.postMgr_keeps
    | with_reducible apply State.setF_keeps
    | fail_if_no_progress with_reducible refine Holds.mk_of ?_ rfl rfl rfl rfl rfl rfl
    | split

theorem State.setLane_keeps {w : Watch} {s : State} {a1 a2} (h : Holds w s) : Holds w (State.setLane s a1 a2) := by
  unfold State.setLane
  try dsimp only
  repeat' first
    | with_reducible assumption
    | fail_if_no_progress with_reducible refine Holds.mk_of ?_ rfl rfl rfl rfl rfl rfl

theorem State.endStep_keeps {w : Watch} {s : State} {a1 a2} (h : Holds w s) : Holds w (State.endStep s a1 a2) := by
  unfold State.endStep
  try dsimp only
  repeat' first
    | with_reducible assumption
    | with_reducible apply State.abandonStep_keeps
    | with_reducible apply State.postMgr_keeps
    | with_reducible apply State.setF_keeps
    | with_reducible apply State.setLane_keeps
    | fail_if_no_progress with_reducible refine Holds.mk_of ?_ rfl rfl rfl rfl rfl rfl
    | split

theorem execRetrainStep_keeps {w : Watch} {s : State} {a1 a2} (h : Holds w s) : NextHolds w (execRetrainStep a1 a2 s) := by
  unfold execRetrainStep
  try dsimp only
  repeat' first
    | with_reducible assumption
    | with_reducible apply nextHolds_next
    | with_reducible exact nextHolds_fault
    | with_reducible exact nextHolds_refused
    | with_reducible apply State.endStep_keeps
    | with_reducible apply State.setF_keeps
    | fail_if_no_progress with_reducible refine Holds.mk_of ?_ rfl rfl rfl rfl rfl rfl
    | split

theorem execRetrainStarved_keeps {w : Watch} {s : State} {a1} (h : Holds w s) : NextHolds w (execRetrainStarved a1 s) := by
  unfold execRetrainStarved
  try dsimp only
  repeat' first
    | with_reducible assumption
    | with_reducible apply nextHolds_next
    | with_reducible exact nextHolds_fault
    | with_reducible exact nextHolds_refused
    | with_reducible apply State.postMgr_keeps
    | with_reducible apply State.setLane_keeps
    | fail_if_no_progress with_reducible refine Holds.mk_of ?_ rfl rfl rfl rfl rfl rfl
    | split

theorem State.trainDram_keeps {w : Watch} {s : State} {a1 a2 a3} (h : Holds w s) : Holds w (State.trainDram s a1 a2 a3) := by
  unfold State.trainDram
  try dsimp only
  repeat' first
    | with_reducible assumption
    | with_reducible apply State.postMgr_keeps
    | with_reducible apply State.powerEvent_keeps
    | with_reducible apply State.setF_keeps
    | with_reducible apply State.setReg_keeps
    | fail_if_no_progress with_reducible refine Holds.mk_of ?_ rfl rfl rfl rfl rfl rfl
    | with_reducible refine foldl_keeps ?_ ?_
    | split
    | (intro)

theorem State.beginScrub_keeps {w : Watch} {s : State} (h : Holds w s) : Holds w (State.beginScrub s) := by
  unfold State.beginScrub
  try dsimp only
  repeat' first
    | with_reducible assumption
    | fail_if_no_progress with_reducible refine Holds.mk_of ?_ rfl rfl rfl rfl rfl rfl

theorem execScrubPeriodEnd_keeps {w : Watch} {s : State} (h : Holds w s) : NextHolds w (execScrubPeriodEnd s) := by
  unfold execScrubPeriodEnd
  repeat' first
    | with_reducible assumption
    | with_reducible apply nextHolds_next
    | with_reducible exact nextHolds_fault
    | with_reducible exact nextHolds_refused
    | with_reducible apply State.beginScrub_keeps
    | with_reducible apply State.postMgr_keeps
    | with_reducible apply State.setF_keeps
    | fail_if_no_progress with_reducible refine Holds.mk_of ?_ rfl rfl rfl rfl rfl rfl
    | split

theorem State.writeInject_keeps {w : Watch} {s : State} {a1 a2} (h : Holds w s) : Holds w (State.writeInject s a1 a2) := by
  unfold State.writeInject
  try dsimp only
  repeat' first
    | with_reducible assumption
    | with_reducible apply State.badWrite_keeps
    | with_reducible apply State.regWrite_keeps
    | with_reducible apply State.setReg_keeps
    | fail_if_no_progress with_reducible refine Holds.mk_of ?_ rfl rfl rfl rfl rfl rfl
    | split
    | (intro)

theorem execFolioInjectArm_keeps {w : Watch} {s : State} {a1 a2} (h : Holds w s) : NextHolds w (execFolioInjectArm a1 a2 s) := by
  unfold execFolioInjectArm
  try dsimp only
  repeat' first
    | with_reducible assumption
    | with_reducible apply nextHolds_next
    | with_reducible exact nextHolds_fault
    | with_reducible exact nextHolds_refused
    | with_reducible apply State.writeInject_keeps

theorem execDramTraining_keeps {w : Watch} {s : State} {a1 a2 a3} (h : Holds w s) : NextHolds w (execDramTraining a1 a2 a3 s) := by
  unfold execDramTraining
  try dsimp only
  repeat' first
    | with_reducible assumption
    | with_reducible apply nextHolds_next
    | with_reducible exact nextHolds_fault
    | with_reducible exact nextHolds_refused
    | with_reducible apply State.trainDram_keeps
    | fail_if_no_progress with_reducible refine Holds.mk_of ?_ rfl rfl rfl rfl rfl rfl
    | split

end Sys2Proof.Machine
end

