-- ==== Sys2Proof/Laws/KeepsRender.lean ====
section
/-! SUPPORT. What Machine/Render.lean does keeps what is watched. -/

namespace Sys2Proof.Machine

theorem State.resolveBlock_keeps {w : Watch} {s : State} {a1 a2 a3 a4 a5 a6} (h : Holds w s) : Holds w (State.resolveBlock s a1 a2 a3 a4 a5 a6) := by
  unfold State.resolveBlock
  try dsimp only
  repeat' first
    | with_reducible assumption
    | with_reducible apply State.count_keeps
    | with_reducible apply State.store_keeps
    | fail_if_no_progress with_reducible refine Holds.mk_of ?_ rfl rfl rfl rfl rfl rfl
    | split

theorem State.noteCode_keeps {w : Watch} {s : State} (h : Holds w s) : Holds w (State.noteCode s) := by
  unfold State.noteCode
  try dsimp only
  repeat' first
    | with_reducible assumption
    | with_reducible apply State.setF_keeps

theorem State.evictOne_keeps {w : Watch} {s : State} {a1} (h : Holds w s) : SomeHolds w (State.evictOne s a1) := by
  unfold State.evictOne
  try dsimp only
  repeat' first
    | with_reducible assumption
    | with_reducible apply someHolds_some
    | with_reducible exact someHolds_none
    | with_reducible apply someHolds_map
    | with_reducible apply someHolds_bind
    | with_reducible apply State.count_keeps
    | with_reducible apply State.noteCode_keeps
    | fail_if_no_progress with_reducible refine Holds.mk_of ?_ rfl rfl rfl rfl rfl rfl
    | split
    | (intro)

theorem State.evictFor_keeps {w : Watch} {s : State} {a1 a2 a3} (h : Holds w s) : SomeHolds w (State.evictFor a1 a2 a3 s) := by
  induction a3 generalizing s with
  | zero => exact someHolds_none
  | succ n ih =>
    unfold State.evictFor
    split
    · exact someHolds_bind (State.evictOne_keeps h) fun t ht => ih ht
    · split
      · exact someHolds_bind (State.evictOne_keeps h) fun t ht => ih ht
      · exact someHolds_some h

theorem State.trimCode_keeps {w : Watch} {s : State} {a1} (h : Holds w s) : Holds w (State.trimCode a1 s) := by
  induction a1 generalizing s  with
  | zero =>
    unfold State.trimCode
    repeat' first
      | with_reducible assumption
  | succ n ih =>
    unfold State.trimCode
    try dsimp only
    repeat' first
      | with_reducible assumption
      | with_reducible apply ih
      | with_reducible refine SomeHolds.of (State.evictOne_keeps ?_) (by assumption)
      | with_reducible apply State.evictOne_keeps
      | fail_if_no_progress with_reducible refine Holds.mk_of ?_ rfl rfl rfl rfl rfl rfl
      | split

theorem State.program_keeps {w : Watch} {s : State} {a1 a2 a3} (h : Holds w s) : Holds w (State.program s a1 a2 a3).1 := by
  unfold State.program
  try dsimp only
  repeat' first
    | with_reducible assumption
    | with_reducible apply State.count_keeps
    | with_reducible refine SomeHolds.of (State.evictFor_keeps ?_) (by assumption)
    | with_reducible apply State.evictFor_keeps
    | with_reducible apply State.noteCode_keeps
    | with_reducible apply State.postMgr_keeps
    | fail_if_no_progress with_reducible refine Holds.mk_of ?_ rfl rfl rfl rfl rfl rfl
    | fail_if_no_progress dsimp only
    | split

theorem State.program_keeps' {u v} {w : Watch} {s : State} {a1 a2 a3} (e : State.program s a1 a2 a3 = (u, v)) (h : Holds w s) : Holds w u := by
  have h2 := @State.program_keeps w s a1 a2 a3 h
  rw [e] at h2
  exact h2

theorem effRndCompile_keeps {w : Watch} {s : State} {a1 a2} (h : Holds w s) : Holds w (effRndCompile a1 a2 s) := by
  unfold effRndCompile
  try dsimp only
  repeat' first
    | with_reducible assumption
    | with_reducible apply State.complete_keeps
    | with_reducible apply State.noteRead_keeps
    | with_reducible apply State.program_keeps
    | with_reducible refine State.program_keeps' (by assumption) ?_
    | fail_if_no_progress with_reducible refine Holds.mk_of ?_ rfl rfl rfl rfl rfl rfl
    | split

theorem execRndCompile_keeps {w : Watch} {s : State} {a1} (h : Holds w s) : NextHolds w (execRndCompile a1 s) := by
  unfold execRndCompile
  try dsimp only
  repeat' first
    | with_reducible assumption
    | with_reducible apply nextHolds_next
    | with_reducible exact nextHolds_fault
    | with_reducible exact nextHolds_refused
    | with_reducible apply effRndCompile_keeps
    | with_reducible apply runPkt_keeps
    | fail_if_no_progress with_reducible refine Holds.mk_of ?_ rfl rfl rfl rfl rfl rfl
    | split
    | (intro)

theorem State.expandBlock_keeps {w : Watch} {s : State} {a1 a2 a3 a4 a5 a6 a7} (h : Holds w s) : Holds w (State.expandBlock s a1 a2 a3 a4 a5 a6 a7) := by
  unfold State.expandBlock
  try dsimp only
  repeat' first
    | with_reducible assumption
    | with_reducible apply State.count_keeps
    | with_reducible apply State.store_keeps
    | fail_if_no_progress with_reducible refine Holds.mk_of ?_ rfl rfl rfl rfl rfl rfl
    | split

theorem State.expandImages_keeps {w : Watch} {s : State} {a1 a2} (h : Holds w s) : Holds w (State.expandImages s a1 a2) := by
  unfold State.expandImages
  try dsimp only
  repeat' first
    | with_reducible assumption
    | with_reducible apply State.expandBlock_keeps
    | fail_if_no_progress with_reducible refine Holds.mk_of ?_ rfl rfl rfl rfl rfl rfl
    | with_reducible refine foldl_keeps ?_ ?_
    | split
    | (intro)

theorem State.noteArena_keeps {w : Watch} {s : State} (h : Holds w s) : Holds w (State.noteArena s) := by
  unfold State.noteArena
  try dsimp only
  repeat' first
    | with_reducible assumption
    | with_reducible apply State.setF_keeps

theorem State.noteWork_keeps {w : Watch} {s : State} (h : Holds w s) : Holds w (State.noteWork s) := by
  unfold State.noteWork
  try dsimp only
  repeat' first
    | with_reducible assumption
    | with_reducible apply State.setReg_keeps

theorem State.trimArena_keeps {w : Watch} {s : State} (h : Holds w s) : Holds w (State.trimArena s) := by
  unfold State.trimArena
  try dsimp only
  repeat' first
    | with_reducible assumption
    | with_reducible apply State.noteArena_keeps
    | fail_if_no_progress with_reducible refine Holds.mk_of ?_ rfl rfl rfl rfl rfl rfl

theorem State.setWork_keeps {w : Watch} {s : State} {a1 a2} (h : Holds w s) : Holds w (State.setWork s a1 a2) := by
  unfold State.setWork
  try dsimp only
  repeat' first
    | with_reducible assumption
    | fail_if_no_progress with_reducible refine Holds.mk_of ?_ rfl rfl rfl rfl rfl rfl

theorem State.noteCluster_keeps {w : Watch} {s : State} (h : Holds w s) : Holds w (State.noteCluster s) := by
  unfold State.noteCluster
  try dsimp only
  repeat' first
    | with_reducible assumption
    | with_reducible apply State.postMgr_keeps
    | fail_if_no_progress with_reducible refine Holds.mk_of ?_ rfl rfl rfl rfl rfl rfl
    | split

theorem State.beginWork_keeps {w : Watch} {s : State} {a1} (h : Holds w s) : Holds w (State.beginWork s a1) := by
  unfold State.beginWork
  try dsimp only
  repeat' first
    | with_reducible assumption
    | with_reducible apply State.commit_keeps
    | with_reducible apply State.expandImages_keeps
    | with_reducible apply State.noteCluster_keeps
    | with_reducible apply State.noteWork_keeps
    | with_reducible apply State.setWork_keeps
    | fail_if_no_progress with_reducible refine Holds.mk_of ?_ rfl rfl rfl rfl rfl rfl
    | split

theorem State.firstChunk_keeps {w : Watch} {s : State} {a1} (h : Holds w s) : Holds w (State.firstChunk s a1) := by
  unfold State.firstChunk
  try dsimp only
  repeat' first
    | with_reducible assumption
    | with_reducible apply State.beginWork_keeps
    | with_reducible apply State.count_keeps
    | with_reducible apply State.noteArena_keeps
    | with_reducible apply State.setWork_keeps
    | fail_if_no_progress with_reducible refine Holds.mk_of ?_ rfl rfl rfl rfl rfl rfl
    | split

theorem execArenaChunkFreed_keeps {w : Watch} {s : State} (h : Holds w s) : NextHolds w (execArenaChunkFreed s) := by
  unfold execArenaChunkFreed
  try dsimp only
  repeat' first
    | with_reducible assumption
    | with_reducible apply nextHolds_next
    | with_reducible exact nextHolds_fault
    | with_reducible exact nextHolds_refused
    | with_reducible apply State.firstChunk_keeps
    | fail_if_no_progress with_reducible refine Holds.mk_of ?_ rfl rfl rfl rfl rfl rfl
    | with_reducible refine foldl_keeps ?_ ?_
    | split
    | (intro)

theorem State.dropWork_keeps {w : Watch} {s : State} {a1} (h : Holds w s) : Holds w (State.dropWork s a1) := by
  unfold State.dropWork
  try dsimp only
  repeat' first
    | with_reducible assumption
    | with_reducible apply State.noteWork_keeps
    | with_reducible apply State.trimArena_keeps
    | with_reducible apply State.trimCode_keeps
    | fail_if_no_progress with_reducible refine Holds.mk_of ?_ rfl rfl rfl rfl rfl rfl

theorem State.failWork_keeps {w : Watch} {s : State} {a1 a2} (h : Holds w s) : Holds w (State.failWork s a1 a2) := by
  unfold State.failWork
  try dsimp only
  repeat' first
    | with_reducible assumption
    | with_reducible apply State.complete_keeps
    | with_reducible apply State.dropWork_keeps
    | with_reducible apply State.spoil_keeps
    | fail_if_no_progress with_reducible refine Holds.mk_of ?_ rfl rfl rfl rfl rfl rfl
    | with_reducible refine foldl_keeps ?_ ?_
    | split
    | (intro)

theorem State.prepare_keeps {w : Watch} {s : State} {a1 a2 a3 a4 a5} (h : Holds w s) : Holds w (State.prepare s a1 a2 a3 a4 a5).1 := by
  induction a5 generalizing s a1 a2 a3 a4 with
  | nil =>
    unfold State.prepare
    repeat' first
      | with_reducible assumption
  | cons x r ih =>
    unfold State.prepare
    try dsimp only
    repeat' first
      | with_reducible assumption
      | with_reducible apply ih
      | with_reducible apply State.program_keeps
      | with_reducible refine State.program_keeps' (by assumption) ?_
      | with_reducible refine holds_fst_of (by assumption) ?_
      | fail_if_no_progress with_reducible refine Holds.mk_of ?_ rfl rfl rfl rfl rfl rfl
      | fail_if_no_progress dsimp only
      | split

theorem State.prepare_keeps' {u v} {w : Watch} {s : State} {a1 a2 a3 a4 a5} (e : State.prepare s a1 a2 a3 a4 a5 = (u, v)) (h : Holds w s) : Holds w u := by
  have h2 := @State.prepare_keeps w s a1 a2 a3 a4 a5 h
  rw [e] at h2
  exact h2

theorem State.addWork_keeps {w : Watch} {s : State} {a1 a2 a3 a4 a5 a6} (h : Holds w s) : Holds w (State.addWork s a1 a2 a3 a4 a5 a6) := by
  unfold State.addWork
  try dsimp only
  repeat' first
    | with_reducible assumption
    | fail_if_no_progress with_reducible refine Holds.mk_of ?_ rfl rfl rfl rfl rfl rfl

theorem effRndPass_keeps {w : Watch} {s : State} {a1 a2} (h : Holds w s) : Holds w (effRndPass a1 a2 s) := by
  unfold effRndPass
  try dsimp only
  repeat' first
    | with_reducible assumption
    | with_reducible apply State.addWork_keeps
    | with_reducible apply State.complete_keeps
    | with_reducible apply State.firstChunk_keeps
    | with_reducible apply State.prepare_keeps
    | with_reducible refine State.prepare_keeps' (by assumption) ?_
    | fail_if_no_progress with_reducible refine Holds.mk_of ?_ rfl rfl rfl rfl rfl rfl
    | split

theorem execRndPass_keeps {w : Watch} {s : State} {a1} (h : Holds w s) : NextHolds w (execRndPass a1 s) := by
  unfold execRndPass
  try dsimp only
  repeat' first
    | with_reducible assumption
    | with_reducible apply nextHolds_next
    | with_reducible exact nextHolds_fault
    | with_reducible exact nextHolds_refused
    | with_reducible apply effRndPass_keeps
    | with_reducible apply runPkt_keeps
    | fail_if_no_progress with_reducible refine Holds.mk_of ?_ rfl rfl rfl rfl rfl rfl
    | split
    | (intro)

theorem State.applyBlocks_keeps {w : Watch} {s : State} {a1 a2 a3} (h : Holds w s) : Holds w (State.applyBlocks s a1 a2 a3) := by
  unfold State.applyBlocks
  try dsimp only
  repeat' first
    | with_reducible assumption
    | with_reducible apply State.resolveBlock_keeps
    | fail_if_no_progress with_reducible refine Holds.mk_of ?_ rfl rfl rfl rfl rfl rfl
    | with_reducible refine foldl_keeps ?_ ?_
    | split
    | (intro)

theorem execPartialRender_keeps {w : Watch} {s : State} {a1 a2 a3} (h : Holds w s) : NextHolds w (execPartialRender a1 a2 a3 s) := by
  unfold execPartialRender
  try dsimp only
  repeat' first
    | with_reducible assumption
    | with_reducible apply nextHolds_next
    | with_reducible exact nextHolds_fault
    | with_reducible exact nextHolds_refused
    | with_reducible apply State.applyBlocks_keeps
    | with_reducible apply State.count_keeps
    | with_reducible apply State.firstChunk_keeps
    | with_reducible apply State.post_keeps
    | with_reducible apply State.setWork_keeps
    | with_reducible apply State.trimArena_keeps
    | fail_if_no_progress with_reducible refine Holds.mk_of ?_ rfl rfl rfl rfl rfl rfl
    | split

theorem State.feedbackBit_keeps {w : Watch} {s : State} {a1} (h : Holds w s) : Holds w (State.feedbackBit s a1) := by
  unfold State.feedbackBit
  try dsimp only
  repeat' first
    | with_reducible assumption
    | with_reducible apply State.count_keeps
    | with_reducible apply State.store_keeps
    | fail_if_no_progress with_reducible refine Holds.mk_of ?_ rfl rfl rfl rfl rfl rfl
    | split

theorem State.bvhReport_keeps {w : Watch} {s : State} {a1 a2} (h : Holds w s) : Holds w (State.bvhReport s a1 a2) := by
  unfold State.bvhReport
  try dsimp only
  repeat' first
    | with_reducible assumption
    | with_reducible apply State.count_keeps
    | with_reducible apply State.postOwner_keeps
    | with_reducible refine foldl_keeps_fst ?_ ?_
    | fail_if_no_progress dsimp only
    | fail_if_no_progress with_reducible refine Holds.mk_of ?_ rfl rfl rfl rfl rfl rfl
    | with_reducible refine foldl_keeps ?_ ?_
    | split
    | (intro)

theorem State.noteUnits_keeps {w : Watch} {s : State} {a1 a2} (h : Holds w s) : Holds w (State.noteUnits s a1 a2) := by
  unfold State.noteUnits
  try dsimp only
  repeat' first
    | with_reducible assumption
    | with_reducible apply State.bvhReport_keeps
    | with_reducible apply State.count_keeps
    | with_reducible apply State.feedbackBit_keeps
    | with_reducible apply State.post_keeps
    | fail_if_no_progress with_reducible refine Holds.mk_of ?_ rfl rfl rfl rfl rfl rfl
    | with_reducible refine foldl_keeps ?_ ?_
    | split

theorem execPassComplete_keeps {w : Watch} {s : State} {a1 a2 a3} (h : Holds w s) : NextHolds w (execPassComplete a1 a2 a3 s) := by
  unfold execPassComplete
  try dsimp only
  repeat' first
    | with_reducible assumption
    | with_reducible apply nextHolds_next
    | with_reducible exact nextHolds_fault
    | with_reducible exact nextHolds_refused
    | with_reducible apply State.applyBlocks_keeps
    | with_reducible apply State.complete_keeps
    | with_reducible apply State.count_keeps
    | with_reducible apply State.dropWork_keeps
    | with_reducible apply State.noteUnits_keeps
    | with_reducible apply State.post_keeps
    | fail_if_no_progress with_reducible refine Holds.mk_of ?_ rfl rfl rfl rfl rfl rfl
    | split

theorem effRndDispatch_keeps {w : Watch} {s : State} {a1 a2} (h : Holds w s) : Holds w (effRndDispatch a1 a2 s) := by
  unfold effRndDispatch
  try dsimp only
  repeat' first
    | with_reducible assumption
    | with_reducible apply State.addWork_keeps
    | with_reducible apply State.beginWork_keeps
    | with_reducible apply State.complete_keeps
    | with_reducible apply State.prepare_keeps
    | with_reducible refine State.prepare_keeps' (by assumption) ?_
    | fail_if_no_progress with_reducible refine Holds.mk_of ?_ rfl rfl rfl rfl rfl rfl
    | split

theorem execRndDispatch_keeps {w : Watch} {s : State} {a1} (h : Holds w s) : NextHolds w (execRndDispatch a1 s) := by
  unfold execRndDispatch
  try dsimp only
  repeat' first
    | with_reducible assumption
    | with_reducible apply nextHolds_next
    | with_reducible exact nextHolds_fault
    | with_reducible exact nextHolds_refused
    | with_reducible apply effRndDispatch_keeps
    | with_reducible apply runPkt_keeps
    | fail_if_no_progress with_reducible refine Holds.mk_of ?_ rfl rfl rfl rfl rfl rfl
    | split
    | (intro)

theorem execDispatchComplete_keeps {w : Watch} {s : State} {a1 a2} (h : Holds w s) : NextHolds w (execDispatchComplete a1 a2 s) := by
  unfold execDispatchComplete
  try dsimp only
  repeat' first
    | with_reducible assumption
    | with_reducible apply nextHolds_next
    | with_reducible exact nextHolds_fault
    | with_reducible exact nextHolds_refused
    | with_reducible apply State.complete_keeps
    | with_reducible apply State.dropWork_keeps
    | with_reducible apply State.noteUnits_keeps
    | fail_if_no_progress with_reducible refine Holds.mk_of ?_ rfl rfl rfl rfl rfl rfl
    | split

theorem effRndSetArena_keeps {w : Watch} {s : State} {a1 a2} (h : Holds w s) : Holds w (effRndSetArena a1 a2 s) := by
  unfold effRndSetArena
  try dsimp only
  repeat' first
    | with_reducible assumption
    | with_reducible apply State.complete_keeps
    | with_reducible apply State.setF_keeps
    | with_reducible apply State.setReg_keeps
    | with_reducible apply State.trimArena_keeps
    | with_reducible apply State.trimCode_keeps
    | fail_if_no_progress with_reducible refine Holds.mk_of ?_ rfl rfl rfl rfl rfl rfl

theorem execRndSetArena_keeps {w : Watch} {s : State} {a1} (h : Holds w s) : NextHolds w (execRndSetArena a1 s) := by
  unfold execRndSetArena
  try dsimp only
  repeat' first
    | with_reducible assumption
    | with_reducible apply nextHolds_next
    | with_reducible exact nextHolds_fault
    | with_reducible exact nextHolds_refused
    | with_reducible apply effRndSetArena_keeps
    | with_reducible apply runPkt_keeps
    | fail_if_no_progress with_reducible refine Holds.mk_of ?_ rfl rfl rfl rfl rfl rfl
    | split
    | (intro)

theorem execTileWatchdog_keeps {w : Watch} {s : State} {a1 a2} (h : Holds w s) : NextHolds w (execTileWatchdog a1 a2 s) := by
  unfold execTileWatchdog
  try dsimp only
  repeat' first
    | with_reducible assumption
    | with_reducible apply nextHolds_next
    | with_reducible exact nextHolds_fault
    | with_reducible exact nextHolds_refused
    | with_reducible apply State.failWork_keeps
    | with_reducible apply State.fault1_keeps
    | with_reducible apply State.post_keeps
    | with_reducible apply State.postMgr_keeps
    | fail_if_no_progress with_reducible refine Holds.mk_of ?_ rfl rfl rfl rfl rfl rfl
    | split

theorem execClusterStallTimeout_keeps {w : Watch} {s : State} {a1} (h : Holds w s) : NextHolds w (execClusterStallTimeout a1 s) := by
  unfold execClusterStallTimeout
  try dsimp only
  repeat' first
    | with_reducible assumption
    | with_reducible apply nextHolds_next
    | with_reducible exact nextHolds_fault
    | with_reducible exact nextHolds_refused
    | with_reducible apply State.failWork_keeps
    | fail_if_no_progress with_reducible refine Holds.mk_of ?_ rfl rfl rfl rfl rfl rfl
    | split

theorem execRemoteSegmentLost_keeps {w : Watch} {s : State} {a1 a2} (h : Holds w s) : NextHolds w (execRemoteSegmentLost a1 a2 s) := by
  unfold execRemoteSegmentLost
  try dsimp only
  repeat' first
    | with_reducible assumption
    | with_reducible apply nextHolds_next
    | with_reducible exact nextHolds_fault
    | with_reducible exact nextHolds_refused
    | with_reducible apply State.post_keeps
    | fail_if_no_progress with_reducible refine Holds.mk_of ?_ rfl rfl rfl rfl rfl rfl
    | split

end Sys2Proof.Machine
end

