-- ==== Sys2Proof/Laws/KeepsEscapement.lean ====
section
/-! SUPPORT. What Machine/Escapement.lean does keeps what is watched. -/

namespace Sys2Proof.Machine

theorem State.setTarget_keeps {w : Watch} {s : State} {a1 a2} (h : Holds w s) : Holds w (State.setTarget s a1 a2) := by
  unfold State.setTarget
  try dsimp only
  repeat' first
    | with_reducible assumption
    | fail_if_no_progress with_reducible refine Holds.mk_of ?_ rfl rfl rfl rfl rfl rfl

theorem State.endRound_keeps {w : Watch} {s : State} {a1} (h : Holds w s) : Holds w (State.endRound s a1) := by
  unfold State.endRound
  try dsimp only
  repeat' first
    | with_reducible assumption
    | with_reducible apply State.count_keeps
    | with_reducible apply State.setTarget_keeps

theorem execEscRoundEnd_keeps {w : Watch} {s : State} {a1} (h : Holds w s) : NextHolds w (execEscRoundEnd a1 s) := by
  unfold execEscRoundEnd
  try dsimp only
  repeat' first
    | with_reducible assumption
    | with_reducible apply nextHolds_next
    | with_reducible exact nextHolds_fault
    | with_reducible exact nextHolds_refused
    | with_reducible apply State.endRound_keeps
    | fail_if_no_progress with_reducible refine Holds.mk_of ?_ rfl rfl rfl rfl rfl rfl
    | split

theorem State.accessFault_keeps {w : Watch} {s : State} {a1 a2 a3} (h : Holds w s) : Holds w (State.accessFault s a1 a2 a3) := by
  unfold State.accessFault
  try dsimp only
  repeat' first
    | with_reducible assumption
    | with_reducible apply State.failWork_keeps
    | with_reducible apply State.fault1_keeps
    | fail_if_no_progress with_reducible refine Holds.mk_of ?_ rfl rfl rfl rfl rfl rfl
    | split

theorem State.readBeat_keeps {w : Watch} {s : State} {a1} (h : Holds w s) : Holds w (State.readBeat s a1) := by
  unfold State.readBeat
  try dsimp only
  repeat' first
    | with_reducible assumption
    | with_reducible apply State.accessFault_keeps
    | with_reducible apply State.cancelMove_keeps
    | with_reducible apply State.layerPoison_keeps
    | with_reducible apply State.noteRead_keeps
    | with_reducible apply State.postUe_keeps
    | with_reducible apply State.record_keeps
    | with_reducible apply State.settleBeat_keeps
    | fail_if_no_progress with_reducible refine Holds.mk_of ?_ rfl rfl rfl rfl rfl rfl
    | split

theorem State.writeBeat_keeps {w : Watch} {s : State} {a1 a2} (h : Holds w s) : Holds w (State.writeBeat s a1 a2) := by
  unfold State.writeBeat
  try dsimp only
  repeat' first
    | with_reducible assumption
    | with_reducible apply State.accessFault_keeps
    | with_reducible apply State.postUe_keeps
    | with_reducible apply State.settleBeat_keeps
    | with_reducible apply State.store_keeps
    | with_reducible apply State.writeObj_keeps
    | fail_if_no_progress with_reducible refine Holds.mk_of ?_ rfl rfl rfl rfl rfl rfl
    | split

theorem State.access_keeps {w : Watch} {s : State} {a1} (h : Holds w s) : Holds w (State.access s a1) := by
  unfold State.access
  try dsimp only
  repeat' first
    | with_reducible assumption
    | with_reducible apply State.readBeat_keeps
    | with_reducible apply State.writeBeat_keeps
    | fail_if_no_progress with_reducible refine Holds.mk_of ?_ rfl rfl rfl rfl rfl rfl
    | split

theorem State.noteGrant_keeps {w : Watch} {s : State} {a1 a2 a3 a4} (h : Holds w s) : Holds w (State.noteGrant s a1 a2 a3 a4) := by
  unfold State.noteGrant
  try dsimp only
  repeat' first
    | with_reducible assumption
    | with_reducible apply State.fixedCount_keeps
    | with_reducible apply State.occur_keeps
    | fail_if_no_progress with_reducible refine Holds.mk_of ?_ rfl rfl rfl rfl rfl rfl
    | split

theorem execEscGrant_keeps {w : Watch} {s : State} {a1 a2} (h : Holds w s) : NextHolds w (execEscGrant a1 a2 s) := by
  unfold execEscGrant
  try dsimp only
  repeat' first
    | with_reducible assumption
    | with_reducible apply nextHolds_next
    | with_reducible exact nextHolds_fault
    | with_reducible exact nextHolds_refused
    | with_reducible apply State.access_keeps
    | with_reducible apply State.count_keeps
    | with_reducible apply State.endRound_keeps
    | with_reducible apply State.fault1_keeps
    | with_reducible apply State.noteGrant_keeps
    | with_reducible apply State.record_keeps
    | with_reducible apply State.setTarget_keeps
    | fail_if_no_progress with_reducible refine Holds.mk_of ?_ rfl rfl rfl rfl rfl rfl
    | split

end Sys2Proof.Machine
end

