-- ==== Sys2Proof/Laws/KeepsFabric.lean ====
section
/-! SUPPORT. What Machine/Fabric.lean does keeps what is watched. -/

namespace Sys2Proof.Machine

theorem State.startChange_keeps {w : Watch} {s : State} (h : Holds w s) : Holds w (State.startChange s) := by
  unfold State.startChange
  try dsimp only
  repeat' first
    | with_reducible assumption
    | with_reducible apply State.emit_keeps
    | with_reducible apply State.setF_keeps
    | fail_if_no_progress with_reducible refine Holds.mk_of ?_ rfl rfl rfl rfl rfl rfl
    | with_reducible refine foldl_keeps ?_ ?_
    | split
    | (intro)

theorem State.linkChange_keeps {w : Watch} {s : State} {a1 a2 a3 a4} (h : Holds w s) : Holds w (State.linkChange s a1 a2 a3 a4) := by
  unfold State.linkChange
  try dsimp only
  repeat' first
    | with_reducible assumption
    | with_reducible apply State.postMgr_keeps
    | with_reducible apply State.setReg_keeps
    | with_reducible apply State.startChange_keeps
    | fail_if_no_progress with_reducible refine Holds.mk_of ?_ rfl rfl rfl rfl rfl rfl

theorem execFabLinkUp_keeps {w : Watch} {s : State} {a1 a2 a3} (h : Holds w s) : NextHolds w (execFabLinkUp a1 a2 a3 s) := by
  unfold execFabLinkUp
  try dsimp only
  repeat' first
    | with_reducible assumption
    | with_reducible apply nextHolds_next
    | with_reducible exact nextHolds_fault
    | with_reducible exact nextHolds_refused
    | with_reducible apply State.linkChange_keeps
    | fail_if_no_progress with_reducible refine Holds.mk_of ?_ rfl rfl rfl rfl rfl rfl
    | split

theorem State.downLink_keeps {w : Watch} {s : State} {a1 a2} (h : Holds w s) : Holds w (State.downLink s a1 a2) := by
  unfold State.downLink
  try dsimp only
  repeat' first
    | with_reducible assumption
    | with_reducible apply State.linkChange_keeps
    | fail_if_no_progress with_reducible refine Holds.mk_of ?_ rfl rfl rfl rfl rfl rfl
    | split

theorem execFabLinkLoss_keeps {w : Watch} {s : State} {a1} (h : Holds w s) : NextHolds w (execFabLinkLoss a1 s) := by
  unfold execFabLinkLoss
  try dsimp only
  repeat' first
    | with_reducible assumption
    | with_reducible apply nextHolds_next
    | with_reducible exact nextHolds_fault
    | with_reducible exact nextHolds_refused
    | with_reducible apply State.downLink_keeps
    | fail_if_no_progress with_reducible refine Holds.mk_of ?_ rfl rfl rfl rfl rfl rfl
    | split

theorem State.downAllLinks_keeps {w : Watch} {s : State} (h : Holds w s) : Holds w (State.downAllLinks s) := by
  unfold State.downAllLinks
  try dsimp only
  repeat' first
    | with_reducible assumption
    | with_reducible apply State.downLink_keeps
    | fail_if_no_progress with_reducible refine Holds.mk_of ?_ rfl rfl rfl rfl rfl rfl
    | with_reducible refine foldl_keeps ?_ ?_
    | split
    | (intro)

theorem State.writeFabCtrl_keeps {w : Watch} {s : State} {a1 a2} (h : Holds w s) : Holds w (State.writeFabCtrl s a1 a2) := by
  unfold State.writeFabCtrl
  try dsimp only
  repeat' first
    | with_reducible assumption
    | with_reducible apply State.downLink_keeps
    | with_reducible apply State.regWrite_keeps
    | with_reducible apply State.setReg_keeps
    | fail_if_no_progress with_reducible refine Holds.mk_of ?_ rfl rfl rfl rfl rfl rfl
    | with_reducible refine foldl_keeps ?_ ?_
    | split
    | (intro)

theorem execFlitResend_keeps {w : Watch} {s : State} {a1 a2} (h : Holds w s) : NextHolds w (execFlitResend a1 a2 s) := by
  unfold execFlitResend
  try dsimp only
  repeat' first
    | with_reducible assumption
    | with_reducible apply nextHolds_next
    | with_reducible exact nextHolds_fault
    | with_reducible exact nextHolds_refused
    | with_reducible apply State.count_keeps
    | with_reducible apply State.downLink_keeps
    | with_reducible apply State.occur_keeps
    | fail_if_no_progress with_reducible refine Holds.mk_of ?_ rfl rfl rfl rfl rfl rfl
    | split

theorem execFlitDiscovery_keeps {w : Watch} {s : State} {a1 a2} (h : Holds w s) : NextHolds w (execFlitDiscovery a1 a2 s) := by
  unfold execFlitDiscovery
  try dsimp only
  repeat' first
    | with_reducible assumption
    | with_reducible apply nextHolds_next
    | with_reducible exact nextHolds_fault
    | with_reducible exact nextHolds_refused
    | with_reducible apply State.emit_keeps
    | with_reducible apply State.setF_keeps
    | fail_if_no_progress with_reducible refine Holds.mk_of ?_ rfl rfl rfl rfl rfl rfl
    | with_reducible refine foldl_keeps ?_ ?_
    | split
    | (intro)

theorem State.flushFabric_keeps {w : Watch} {s : State} (h : Holds w s) : Holds w (State.flushFabric s) := by
  unfold State.flushFabric
  try dsimp only
  repeat' first
    | with_reducible assumption
    | with_reducible apply State.emit_keeps
    | fail_if_no_progress with_reducible refine Holds.mk_of ?_ rfl rfl rfl rfl rfl rfl
    | with_reducible refine foldl_keeps ?_ ?_
    | split
    | (intro)

theorem State.dropUnreachable_keeps {w : Watch} {s : State} (h : Holds w s) : Holds w (State.dropUnreachable s) := by
  unfold State.dropUnreachable
  try dsimp only
  repeat' first
    | with_reducible assumption
    | fail_if_no_progress with_reducible refine Holds.mk_of ?_ rfl rfl rfl rfl rfl rfl

theorem State.installMap_keeps {w : Watch} {s : State} {a1 a2} (h : Holds w s) : Holds w (State.installMap s a1 a2) := by
  unfold State.installMap
  try dsimp only
  repeat' first
    | with_reducible assumption
    | fail_if_no_progress with_reducible refine Holds.mk_of ?_ rfl rfl rfl rfl rfl rfl

theorem State.showLink_keeps {w : Watch} {s : State} {a1 a2} (h : Holds w s) : Holds w (State.showLink s a1 a2) := by
  unfold State.showLink
  try dsimp only
  repeat' first
    | with_reducible assumption
    | with_reducible apply State.setF_keeps
    | fail_if_no_progress with_reducible refine Holds.mk_of ?_ rfl rfl rfl rfl rfl rfl
    | split

theorem State.tellMap_keeps {w : Watch} {s : State} {a1 a2 a3} (h : Holds w s) : Holds w (State.tellMap s a1 a2 a3) := by
  unfold State.tellMap
  try dsimp only
  repeat' first
    | with_reducible assumption
    | with_reducible apply State.post_keeps
    | with_reducible apply State.postMgr_keeps
    | fail_if_no_progress with_reducible refine Holds.mk_of ?_ rfl rfl rfl rfl rfl rfl
    | with_reducible refine foldl_keeps ?_ ?_
    | split
    | (intro)

theorem State.endRoleWaits_keeps {w : Watch} {s : State} {a1} (h : Holds w s) : Holds w (State.endRoleWaits s a1) := by
  unfold State.endRoleWaits
  try dsimp only
  repeat' first
    | with_reducible assumption
    | with_reducible apply State.complete_keeps
    | fail_if_no_progress with_reducible refine Holds.mk_of ?_ rfl rfl rfl rfl rfl rfl
    | with_reducible refine foldl_keeps ?_ ?_
    | split
    | (intro)

theorem State.endWakeWaits_keeps {w : Watch} {s : State} (h : Holds w s) : Holds w (State.endWakeWaits s) := by
  unfold State.endWakeWaits
  try dsimp only
  repeat' first
    | with_reducible assumption
    | with_reducible apply State.complete_keeps
    | fail_if_no_progress with_reducible refine Holds.mk_of ?_ rfl rfl rfl rfl rfl rfl
    | with_reducible refine foldl_keeps ?_ ?_
    | split
    | (intro)

theorem State.converge_keeps {w : Watch} {s : State} {a1 a2} (h : Holds w s) : Holds w (State.converge s a1 a2) := by
  unfold State.converge
  try dsimp only
  repeat' first
    | with_reducible assumption
    | with_reducible apply State.dropUnreachable_keeps
    | with_reducible apply State.endRoleWaits_keeps
    | with_reducible apply State.endWakeWaits_keeps
    | with_reducible apply State.flushFabric_keeps
    | with_reducible apply State.installMap_keeps
    | with_reducible apply State.setReg_keeps
    | with_reducible apply State.showLink_keeps
    | with_reducible apply State.tellMap_keeps
    | fail_if_no_progress with_reducible refine Holds.mk_of ?_ rfl rfl rfl rfl rfl rfl
    | with_reducible refine foldl_keeps ?_ ?_
    | split
    | (intro)

theorem execFabricConverged_keeps {w : Watch} {s : State} (h : Holds w s) : NextHolds w (execFabricConverged s) := by
  unfold execFabricConverged
  try dsimp only
  repeat' first
    | with_reducible assumption
    | with_reducible apply nextHolds_next
    | with_reducible exact nextHolds_fault
    | with_reducible exact nextHolds_refused
    | with_reducible apply State.converge_keeps
    | fail_if_no_progress with_reducible refine Holds.mk_of ?_ rfl rfl rfl rfl rfl rfl
    | split

theorem State.sendFlit_keeps {w : Watch} {s : State} {a1 a2} (h : Holds w s) : Holds w (State.sendFlit s a1 a2) := by
  unfold State.sendFlit
  try dsimp only
  repeat' first
    | with_reducible assumption
    | with_reducible apply State.emit_keeps

theorem State.takeFlit_keeps {w : Watch} {s : State} {a1 a2 a3 f} (h : Holds w s) (hf : ∀ p t, Holds w t → Holds w (f p t)) : Holds w (State.takeFlit s a1 a2 a3 f) := by
  unfold State.takeFlit
  try dsimp only
  repeat' first
    | with_reducible assumption
    | with_reducible apply hf
    | with_reducible apply State.count_keeps
    | with_reducible apply State.record_keeps
    | with_reducible apply State.sendFlit_keeps
    | fail_if_no_progress with_reducible refine Holds.mk_of ?_ rfl rfl rfl rfl rfl rfl
    | with_reducible refine foldl_keeps ?_ ?_
    | split
    | (intro)

theorem State.dataFlits_keeps {w : Watch} {s : State} {a1 a2 a3 a4} (h : Holds w s) : Holds w (State.dataFlits s a1 a2 a3 a4) := by
  induction a2 generalizing s a3 a4 with
  | zero => exact h
  | succ n ih =>
    cases a4 with
    | zero => exact h
    | succ m => exact ih (State.sendFlit_keeps (State.noteRead_keeps h))

theorem execFlitObjectRead_keeps {w : Watch} {s : State} {a1 a2} (h : Holds w s) : NextHolds w (execFlitObjectRead a1 a2 s) := by
  unfold execFlitObjectRead
  try dsimp only
  repeat' first
    | with_reducible assumption
    | with_reducible apply nextHolds_next
    | with_reducible exact nextHolds_fault
    | with_reducible exact nextHolds_refused
    | with_reducible apply State.dataFlits_keeps
    | with_reducible apply State.takeFlit_keeps
    | fail_if_no_progress with_reducible refine Holds.mk_of ?_ rfl rfl rfl rfl rfl rfl
    | split
    | (intro)

theorem State.setMirror_keeps {w : Watch} {s : State} {a1} (h : Holds w s) : Holds w (State.setMirror s a1) := by
  unfold State.setMirror
  try dsimp only
  repeat' first
    | with_reducible assumption
    | fail_if_no_progress with_reducible refine Holds.mk_of ?_ rfl rfl rfl rfl rfl rfl

theorem execFlitObjectData_keeps {w : Watch} {s : State} {a1 a2} (h : Holds w s) : NextHolds w (execFlitObjectData a1 a2 s) := by
  unfold execFlitObjectData
  try dsimp only
  repeat' first
    | with_reducible assumption
    | with_reducible apply nextHolds_next
    | with_reducible exact nextHolds_fault
    | with_reducible exact nextHolds_refused
    | with_reducible apply State.sendFlit_keeps
    | with_reducible apply State.setMirror_keeps
    | with_reducible apply State.takeFlit_keeps
    | fail_if_no_progress with_reducible refine Holds.mk_of ?_ rfl rfl rfl rfl rfl rfl
    | split
    | (intro)

theorem execFlitObjectWrite_keeps {w : Watch} {s : State} {a1 a2} (h : Holds w s) : NextHolds w (execFlitObjectWrite a1 a2 s) := by
  unfold execFlitObjectWrite
  try dsimp only
  repeat' first
    | with_reducible assumption
    | with_reducible apply nextHolds_next
    | with_reducible exact nextHolds_fault
    | with_reducible exact nextHolds_refused
    | with_reducible apply State.sendFlit_keeps
    | with_reducible apply State.setMirror_keeps
    | with_reducible apply State.store_keeps
    | with_reducible apply State.takeFlit_keeps
    | fail_if_no_progress with_reducible refine Holds.mk_of ?_ rfl rfl rfl rfl rfl rfl
    | with_reducible refine foldl_keeps ?_ ?_
    | split
    | (intro)

theorem execFlitWriteAck_keeps {w : Watch} {s : State} {a1 a2} (h : Holds w s) : NextHolds w (execFlitWriteAck a1 a2 s) := by
  unfold execFlitWriteAck
  try dsimp only
  repeat' first
    | with_reducible assumption
    | with_reducible apply nextHolds_next
    | with_reducible exact nextHolds_fault
    | with_reducible exact nextHolds_refused
    | with_reducible apply State.setObj_keeps
    | with_reducible apply State.takeFlit_keeps
    | fail_if_no_progress with_reducible refine Holds.mk_of ?_ rfl rfl rfl rfl rfl rfl
    | split
    | (intro)

theorem State.setCalendar_keeps {w : Watch} {s : State} {a1 a2} (h : Holds w s) : Holds w (State.setCalendar s a1 a2) := by
  unfold State.setCalendar
  try dsimp only
  repeat' first
    | with_reducible assumption
    | with_reducible apply State.ledgAppend_keeps
    | with_reducible apply State.setF_keeps
    | fail_if_no_progress with_reducible refine Holds.mk_of ?_ rfl rfl rfl rfl rfl rfl

theorem execFlitTime_keeps {w : Watch} {s : State} {a1 a2} (h : Holds w s) : NextHolds w (execFlitTime a1 a2 s) := by
  unfold execFlitTime
  try dsimp only
  repeat' first
    | with_reducible assumption
    | with_reducible apply nextHolds_next
    | with_reducible exact nextHolds_fault
    | with_reducible exact nextHolds_refused
    | with_reducible apply State.postMgr_keeps
    | with_reducible apply State.setCalendar_keeps
    | with_reducible apply State.setF_keeps
    | fail_if_no_progress with_reducible refine Holds.mk_of ?_ rfl rfl rfl rfl rfl rfl
    | split

theorem execFabricTimeHold_keeps {w : Watch} {s : State} (h : Holds w s) : NextHolds w (execFabricTimeHold s) := by
  unfold execFabricTimeHold
  try dsimp only
  repeat' first
    | with_reducible assumption
    | with_reducible apply nextHolds_next
    | with_reducible exact nextHolds_fault
    | with_reducible exact nextHolds_refused
    | with_reducible apply State.postMgr_keeps
    | with_reducible apply State.setF_keeps
    | fail_if_no_progress with_reducible refine Holds.mk_of ?_ rfl rfl rfl rfl rfl rfl
    | split

theorem effFabSetRole_keeps {w : Watch} {s : State} {a1 a2} (h : Holds w s) : Holds w (effFabSetRole a1 a2 s) := by
  unfold effFabSetRole
  try dsimp only
  repeat' first
    | with_reducible assumption
    | with_reducible apply State.commit_keeps
    | with_reducible apply State.setF_keeps
    | with_reducible apply State.startChange_keeps
    | fail_if_no_progress with_reducible refine Holds.mk_of ?_ rfl rfl rfl rfl rfl rfl

theorem execFabSetRole_keeps {w : Watch} {s : State} {a1} (h : Holds w s) : NextHolds w (execFabSetRole a1 s) := by
  unfold execFabSetRole
  try dsimp only
  repeat' first
    | with_reducible assumption
    | with_reducible apply nextHolds_next
    | with_reducible exact nextHolds_fault
    | with_reducible exact nextHolds_refused
    | with_reducible apply effFabSetRole_keeps
    | with_reducible apply runPkt_keeps
    | fail_if_no_progress with_reducible refine Holds.mk_of ?_ rfl rfl rfl rfl rfl rfl
    | split
    | (intro)

theorem effFabSetRelay_keeps {w : Watch} {s : State} {a1 a2} (h : Holds w s) : Holds w (effFabSetRelay a1 a2 s) := by
  unfold effFabSetRelay
  try dsimp only
  repeat' first
    | with_reducible assumption
    | with_reducible apply State.complete_keeps
    | with_reducible apply State.setReg_keeps
    | fail_if_no_progress with_reducible refine Holds.mk_of ?_ rfl rfl rfl rfl rfl rfl

theorem execFabSetRelay_keeps {w : Watch} {s : State} {a1} (h : Holds w s) : NextHolds w (execFabSetRelay a1 s) := by
  unfold execFabSetRelay
  try dsimp only
  repeat' first
    | with_reducible assumption
    | with_reducible apply nextHolds_next
    | with_reducible exact nextHolds_fault
    | with_reducible exact nextHolds_refused
    | with_reducible apply effFabSetRelay_keeps
    | with_reducible apply runPkt_keeps
    | fail_if_no_progress with_reducible refine Holds.mk_of ?_ rfl rfl rfl rfl rfl rfl
    | split
    | (intro)

theorem State.writeRelayHead_keeps {w : Watch} {s : State} {a1 a2} (h : Holds w s) : Holds w (State.writeRelayHead s a1 a2) := by
  unfold State.writeRelayHead
  try dsimp only
  repeat' first
    | with_reducible assumption
    | with_reducible apply State.badWrite_keeps
    | with_reducible apply State.regWrite_keeps
    | with_reducible apply State.setReg_keeps
    | fail_if_no_progress with_reducible refine Holds.mk_of ?_ rfl rfl rfl rfl rfl rfl
    | split
    | (intro)

theorem execFlitMgmtReply_keeps {w : Watch} {s : State} {a1 a2 a3 a4 a5} (h : Holds w s) : NextHolds w (execFlitMgmtReply a1 a2 a3 a4 a5 s) := by
  unfold execFlitMgmtReply
  try dsimp only
  repeat' first
    | with_reducible assumption
    | with_reducible apply nextHolds_next
    | with_reducible exact nextHolds_fault
    | with_reducible exact nextHolds_refused
    | with_reducible apply State.commit_keeps
    | with_reducible apply State.complete_keeps
    | with_reducible apply State.emit_keeps
    | with_reducible apply State.setReg_keeps
    | fail_if_no_progress with_reducible refine Holds.mk_of ?_ rfl rfl rfl rfl rfl rfl
    | split

theorem effFabWake_keeps {w : Watch} {s : State} {a1 a2} (h : Holds w s) : Holds w (effFabWake a1 a2 s) := by
  unfold effFabWake
  try dsimp only
  repeat' first
    | with_reducible assumption
    | with_reducible apply State.complete_keeps
    | with_reducible apply State.emit_keeps
    | fail_if_no_progress with_reducible refine Holds.mk_of ?_ rfl rfl rfl rfl rfl rfl
    | split

theorem execFabWake_keeps {w : Watch} {s : State} {a1} (h : Holds w s) : NextHolds w (execFabWake a1 s) := by
  unfold execFabWake
  try dsimp only
  repeat' first
    | with_reducible assumption
    | with_reducible apply nextHolds_next
    | with_reducible exact nextHolds_fault
    | with_reducible exact nextHolds_refused
    | with_reducible apply effFabWake_keeps
    | with_reducible apply runPkt_keeps
    | fail_if_no_progress with_reducible refine Holds.mk_of ?_ rfl rfl rfl rfl rfl rfl
    | split
    | (intro)

theorem effFabQuery_keeps {w : Watch} {s : State} {a1 a2} (h : Holds w s) : Holds w (effFabQuery a1 a2 s) := by
  unfold effFabQuery
  try dsimp only
  repeat' first
    | with_reducible assumption
    | with_reducible apply State.storeReply_keeps

theorem execFabQuery_keeps {w : Watch} {s : State} {a1} (h : Holds w s) : NextHolds w (execFabQuery a1 s) := by
  unfold execFabQuery
  try dsimp only
  repeat' first
    | with_reducible assumption
    | with_reducible apply nextHolds_next
    | with_reducible exact nextHolds_fault
    | with_reducible exact nextHolds_refused
    | with_reducible apply effFabQuery_keeps
    | with_reducible apply runPkt_keeps
    | fail_if_no_progress with_reducible refine Holds.mk_of ?_ rfl rfl rfl rfl rfl rfl
    | split
    | (intro)

end Sys2Proof.Machine
end

