-- ==== Sys2Proof/Laws/KeepsPower.lean ====
section
/-! SUPPORT. What Machine/Power.lean does keeps what is watched. -/

namespace Sys2Proof.Machine

theorem State.setMotion_keeps {w : Watch} {s : State} {a1 a2} (h : Holds w s) : Holds w (State.setMotion s a1 a2) := by
  unfold State.setMotion
  try dsimp only
  repeat' first
    | with_reducible assumption
    | with_reducible apply State.setBit_keeps
    | fail_if_no_progress with_reducible refine Holds.mk_of ?_ rfl rfl rfl rfl rfl rfl
    | split

theorem State.setPlls_keeps {w : Watch} {s : State} {a1 a2} (h : Holds w s) : Holds w (State.setPlls s a1 a2) := by
  unfold State.setPlls
  try dsimp only
  repeat' first
    | with_reducible assumption
    | with_reducible apply State.setBit_keeps
    | fail_if_no_progress with_reducible refine Holds.mk_of ?_ rfl rfl rfl rfl rfl rfl
    | with_reducible refine foldl_keeps ?_ ?_
    | split
    | (intro)

theorem State.moveDomain_keeps {w : Watch} {s : State} {a1 a2} (h : Holds w s) : Holds w (State.moveDomain s a1 a2) := by
  unfold State.moveDomain
  try dsimp only
  repeat' first
    | with_reducible assumption
    | with_reducible apply State.setMotion_keeps
    | fail_if_no_progress with_reducible refine Holds.mk_of ?_ rfl rfl rfl rfl rfl rfl
    | split

theorem State.replyWithdrawn_keeps {w : Watch} {s : State} {a1 a2} (h : Holds w s) : Holds w (State.replyWithdrawn s a1 a2) := by
  unfold State.replyWithdrawn
  try dsimp only
  repeat' first
    | with_reducible assumption
    | with_reducible apply State.complete_keeps

theorem State.answerVotes_keeps {w : Watch} {s : State} (h : Holds w s) : Holds w (State.answerVotes s) := by
  unfold State.answerVotes
  try dsimp only
  repeat' first
    | with_reducible assumption
    | with_reducible apply State.commit_keeps
    | with_reducible apply State.complete_keeps
    | with_reducible apply State.replyWithdrawn_keeps
    | fail_if_no_progress with_reducible refine Holds.mk_of ?_ rfl rfl rfl rfl rfl rfl
    | with_reducible refine foldl_keeps ?_ ?_
    | split
    | (intro)

theorem State.settlePower_keeps {w : Watch} {s : State} (h : Holds w s) : Holds w (State.settlePower s) := by
  unfold State.settlePower
  try dsimp only
  repeat' first
    | with_reducible assumption
    | with_reducible apply State.answerVotes_keeps
    | with_reducible apply State.moveDomain_keeps
    | fail_if_no_progress with_reducible refine Holds.mk_of ?_ rfl rfl rfl rfl rfl rfl
    | with_reducible refine foldl_keeps ?_ ?_
    | split
    | (intro)

theorem State.putVotes_keeps {w : Watch} {s : State} {a1 a2} (h : Holds w s) : Holds w (State.putVotes s a1 a2) := by
  unfold State.putVotes
  try dsimp only
  repeat' first
    | with_reducible assumption
    | with_reducible apply State.setReg_keeps
    | with_reducible apply State.settlePower_keeps

theorem State.withdrawVotes_keeps {w : Watch} {s : State} {a1 a2} (h : Holds w s) : Holds w (State.withdrawVotes s a1 a2) := by
  unfold State.withdrawVotes
  try dsimp only
  repeat' first
    | with_reducible assumption
    | with_reducible apply State.putVotes_keeps
    | fail_if_no_progress with_reducible refine Holds.mk_of ?_ rfl rfl rfl rfl rfl rfl
    | split

theorem State.strgVote_keeps {w : Watch} {s : State} (h : Holds w s) : Holds w (State.strgVote s) := by
  unfold State.strgVote
  try dsimp only
  repeat' first
    | with_reducible assumption
    | with_reducible apply State.putVotes_keeps
    | with_reducible apply State.setReg_keeps

theorem State.wakeChannels_keeps {w : Watch} {s : State} {a1} (h : Holds w s) : Holds w (State.wakeChannels s a1) := by
  unfold State.wakeChannels
  try dsimp only
  repeat' first
    | with_reducible assumption
    | with_reducible apply State.fresh_keeps
    | with_reducible refine State.fresh_keeps' (by assumption) ?_
    | with_reducible apply State.leaveRefresh_keeps
    | fail_if_no_progress with_reducible refine Holds.mk_of ?_ rfl rfl rfl rfl rfl rfl
    | with_reducible refine foldl_keeps ?_ ?_
    | split
    | (intro)

theorem State.onRise_keeps {w : Watch} {s : State} {a1} (h : Holds w s) : Holds w (State.onRise s a1) := by
  unfold State.onRise
  try dsimp only
  repeat' first
    | with_reducible assumption
    | with_reducible apply State.noteCluster_keeps
    | with_reducible apply State.settleBoost_keeps
    | with_reducible apply State.wakeChannels_keeps
    | fail_if_no_progress with_reducible refine Holds.mk_of ?_ rfl rfl rfl rfl rfl rfl
    | split

theorem State.dropOutputs_keeps {w : Watch} {s : State} {a1} (h : Holds w s) : Holds w (State.dropOutputs s a1) := by
  unfold State.dropOutputs
  try dsimp only
  repeat' first
    | with_reducible assumption
    | with_reducible apply State.setOutp_keeps
    | with_reducible apply State.setPipe_keeps
    | with_reducible apply State.stopForDrop_keeps
    | fail_if_no_progress with_reducible refine Holds.mk_of ?_ rfl rfl rfl rfl rfl rfl
    | with_reducible refine foldl_keeps ?_ ?_
    | split
    | (intro)

theorem State.noteTemps_keeps {w : Watch} {s : State} (h : Holds w s) : Holds w (State.noteTemps s) := by
  unfold State.noteTemps
  try dsimp only
  repeat' first
    | with_reducible assumption
    | with_reducible apply State.setF_keeps
    | with_reducible apply State.setReg_keeps
    | fail_if_no_progress with_reducible refine Holds.mk_of ?_ rfl rfl rfl rfl rfl rfl
    | with_reducible refine foldl_keeps ?_ ?_
    | split
    | (intro)

theorem State.onDrop_keeps {w : Watch} {s : State} {a1} (h : Holds w s) : Holds w (State.onDrop s a1) := by
  unfold State.onDrop
  try dsimp only
  repeat' first
    | with_reducible assumption
    | with_reducible apply State.downAllLinks_keeps
    | with_reducible apply State.dropHaptics_keeps
    | with_reducible apply State.dropOutputs_keeps
    | with_reducible apply State.dropTouch_keeps
    | with_reducible apply State.noteCluster_keeps
    | with_reducible apply State.noteTemps_keeps
    | with_reducible apply State.setBit_keeps
    | with_reducible apply State.setPlls_keeps
    | with_reducible apply State.settleBoost_keeps
    | fail_if_no_progress with_reducible refine Holds.mk_of ?_ rfl rfl rfl rfl rfl rfl
    | split

theorem execDomainDrop_keeps {w : Watch} {s : State} {a1} (h : Holds w s) : NextHolds w (execDomainDrop a1 s) := by
  unfold execDomainDrop
  try dsimp only
  repeat' first
    | with_reducible assumption
    | with_reducible apply nextHolds_next
    | with_reducible exact nextHolds_fault
    | with_reducible exact nextHolds_refused
    | with_reducible apply State.onDrop_keeps
    | with_reducible apply State.setMotion_keeps
    | with_reducible apply State.settlePower_keeps
    | fail_if_no_progress with_reducible refine Holds.mk_of ?_ rfl rfl rfl rfl rfl rfl
    | split

theorem State.onlyKept_keeps {w : Watch} {s : State} (h : Holds w s) (hl : w.Loses) : Holds w (State.onlyKept s) := by
  exact ⟨⟨tabWf_filter _ h.inv.1, rfl⟩, h.queue, h.time, hl.safe, hl.bind⟩

theorem State.loseMain_keeps {w : Watch} {s : State} (h : Holds w s) (hl : w.Loses) : Holds w (State.loseMain s) := by
  unfold State.loseMain
  try dsimp only
  repeat' first
    | with_reducible assumption
    | with_reducible apply State.noteTemps_keeps
    | with_reducible apply State.onlyKept_keeps
    | with_reducible apply State.setF_keeps
    | with_reducible apply State.setReg_keeps
    | fail_if_no_progress with_reducible refine Holds.mk_of ?_ rfl rfl rfl rfl rfl rfl
    | with_reducible refine foldl_keeps ?_ ?_
    | split
    | (intro)

theorem State.atState_keeps {w : Watch} {s : State} {a1} (h : Holds w s) : Holds w (State.atState s a1) := by
  unfold State.atState
  try dsimp only
  repeat' first
    | with_reducible assumption
    | with_reducible apply State.setF_keeps

theorem State.baseFails_keeps {w : Watch} {s : State} (h : Holds w s) (hl : w.Loses) : Holds w (State.baseFails s) := by
  unfold State.baseFails
  try dsimp only
  repeat' first
    | with_reducible assumption
    | with_reducible apply State.atState_keeps
    | with_reducible apply State.loseMain_keeps
    | with_reducible apply State.setF_keeps

theorem State.failVotes_keeps {w : Watch} {s : State} {a1} (h : Holds w s) : Holds w (State.failVotes s a1) := by
  unfold State.failVotes
  try dsimp only
  repeat' first
    | with_reducible assumption
    | with_reducible apply State.complete_keeps
    | with_reducible apply State.setReg_keeps
    | fail_if_no_progress with_reducible refine Holds.mk_of ?_ rfl rfl rfl rfl rfl rfl
    | with_reducible refine foldl_keeps ?_ ?_
    | split
    | (intro)

theorem State.failChannels_keeps {w : Watch} {s : State} {a1} (h : Holds w s) : Holds w (State.failChannels s a1) := by
  unfold State.failChannels
  try dsimp only
  repeat' first
    | with_reducible assumption
    | with_reducible apply State.postMgr_keeps
    | with_reducible apply State.powerEvent_keeps
    | with_reducible apply State.setF_keeps
    | fail_if_no_progress with_reducible refine Holds.mk_of ?_ rfl rfl rfl rfl rfl rfl
    | with_reducible refine foldl_keeps ?_ ?_
    | split
    | (intro)

theorem State.stepFails_keeps {w : Watch} {s : State} {a1 a2} (h : Holds w s) (hl : w.Loses) : Holds w (State.stepFails s a1 a2) := by
  unfold State.stepFails
  try dsimp only
  repeat' first
    | with_reducible assumption
    | with_reducible apply State.baseFails_keeps
    | with_reducible apply State.failChannels_keeps
    | with_reducible apply State.failVotes_keeps
    | with_reducible apply State.postMgr_keeps
    | with_reducible apply State.powerEvent_keeps
    | with_reducible apply State.setBit_keeps
    | with_reducible apply State.setF_keeps
    | with_reducible apply State.setMotion_keeps
    | with_reducible apply State.setReg_keeps
    | with_reducible apply State.settlePower_keeps
    | fail_if_no_progress with_reducible refine Holds.mk_of ?_ rfl rfl rfl rfl rfl rfl
    | split

theorem execDomainStepReady_keeps {w : Watch} {s : State} {a1} (h : Holds w s) : NextHolds w (execDomainStepReady a1 s) := by
  unfold execDomainStepReady
  try dsimp only
  repeat' first
    | with_reducible assumption
    | with_reducible apply nextHolds_next
    | with_reducible exact nextHolds_fault
    | with_reducible exact nextHolds_refused
    | with_reducible apply State.onRise_keeps
    | with_reducible apply State.setBit_keeps
    | with_reducible apply State.setF_keeps
    | with_reducible apply State.setMotion_keeps
    | with_reducible apply State.setPlls_keeps
    | with_reducible apply State.settlePower_keeps
    | with_reducible apply step_keeps
    | fail_if_no_progress with_reducible refine Holds.mk_of ?_ rfl rfl rfl rfl rfl rfl
    | split

theorem execDomainStepTimeout_keeps {w : Watch} {s : State} {a1} (h : Holds w s) (hl : w.Loses) : NextHolds w (execDomainStepTimeout a1 s) := by
  unfold execDomainStepTimeout
  try dsimp only
  repeat' first
    | with_reducible assumption
    | with_reducible apply nextHolds_next
    | with_reducible exact nextHolds_fault
    | with_reducible exact nextHolds_refused
    | with_reducible apply State.count_keeps
    | with_reducible apply State.setMotion_keeps
    | with_reducible apply State.stepFails_keeps
    | with_reducible apply step_keeps
    | fail_if_no_progress with_reducible refine Holds.mk_of ?_ rfl rfl rfl rfl rfl rfl
    | split

theorem State.beginWake_keeps {w : Watch} {s : State} {a1} (h : Holds w s) : Holds w (State.beginWake s a1) := by
  unfold State.beginWake
  try dsimp only
  repeat' first
    | with_reducible assumption
    | with_reducible apply State.setF_keeps
    | with_reducible apply State.setMotion_keeps
    | with_reducible apply State.setReg_keeps
    | with_reducible apply State.settlePower_keeps
    | fail_if_no_progress with_reducible refine Holds.mk_of ?_ rfl rfl rfl rfl rfl rfl
    | split

theorem State.writePcuWake_keeps {w : Watch} {s : State} {a1 a2} (h : Holds w s) : Holds w (State.writePcuWake s a1 a2) := by
  unfold State.writePcuWake
  try dsimp only
  repeat' first
    | with_reducible assumption
    | with_reducible apply State.badWrite_keeps
    | with_reducible apply State.beginWake_keeps
    | with_reducible apply State.regWrite_keeps
    | fail_if_no_progress with_reducible refine Holds.mk_of ?_ rfl rfl rfl rfl rfl rfl
    | split
    | (intro)

theorem execPcuWake_keeps {w : Watch} {s : State} {a1 a2} (h : Holds w s) : NextHolds w (execPcuWake a1 a2 s) := by
  unfold execPcuWake
  try dsimp only
  repeat' first
    | with_reducible assumption
    | with_reducible apply nextHolds_next
    | with_reducible exact nextHolds_fault
    | with_reducible exact nextHolds_refused
    | with_reducible apply State.writePcuWake_keeps

theorem execManagementWake_keeps {w : Watch} {s : State} {a1} (h : Holds w s) : NextHolds w (execManagementWake a1 s) := by
  unfold execManagementWake
  try dsimp only
  repeat' first
    | with_reducible assumption
    | with_reducible apply nextHolds_next
    | with_reducible exact nextHolds_fault
    | with_reducible exact nextHolds_refused
    | with_reducible apply State.beginWake_keeps
    | fail_if_no_progress with_reducible refine Holds.mk_of ?_ rfl rfl rfl rfl rfl rfl
    | split

theorem execDormantWriteDrop_keeps {w : Watch} {s : State} {a1 a2} (h : Holds w s) : NextHolds w (execDormantWriteDrop a1 a2 s) := by
  unfold execDormantWriteDrop
  try dsimp only
  repeat' first
    | with_reducible assumption
    | with_reducible apply nextHolds_next
    | with_reducible exact nextHolds_fault
    | with_reducible exact nextHolds_refused
    | with_reducible apply State.count_keeps
    | fail_if_no_progress with_reducible refine Holds.mk_of ?_ rfl rfl rfl rfl rfl rfl
    | split

theorem State.tellWoken_keeps {w : Watch} {s : State} {a1 a2} (h : Holds w s) : Holds w (State.tellWoken s a1 a2) := by
  unfold State.tellWoken
  try dsimp only
  repeat' first
    | with_reducible assumption
    | with_reducible apply State.post_keeps
    | with_reducible apply State.postMgr_keeps
    | fail_if_no_progress with_reducible refine Holds.mk_of ?_ rfl rfl rfl rfl rfl rfl
    | with_reducible refine foldl_keeps ?_ ?_
    | split
    | (intro)

theorem execWakeFromDormant_keeps {w : Watch} {s : State} (h : Holds w s) : NextHolds w (execWakeFromDormant s) := by
  unfold execWakeFromDormant
  try dsimp only
  repeat' first
    | with_reducible assumption
    | with_reducible apply nextHolds_next
    | with_reducible exact nextHolds_fault
    | with_reducible exact nextHolds_refused
    | with_reducible apply State.atState_keeps
    | with_reducible apply State.putVotes_keeps
    | with_reducible apply State.tellWoken_keeps
    | fail_if_no_progress with_reducible refine Holds.mk_of ?_ rfl rfl rfl rfl rfl rfl
    | split

theorem execWakeFromHairspring_keeps {w : Watch} {s : State} (h : Holds w s) : NextHolds w (execWakeFromHairspring s) := by
  unfold execWakeFromHairspring
  try dsimp only
  repeat' first
    | with_reducible assumption
    | with_reducible apply nextHolds_next
    | with_reducible exact nextHolds_fault
    | with_reducible exact nextHolds_refused
    | with_reducible apply State.settlePower_keeps
    | fail_if_no_progress with_reducible refine Holds.mk_of ?_ rfl rfl rfl rfl rfl rfl
    | split

theorem effPwrVote_keeps {w : Watch} {s : State} {a1 a2} (h : Holds w s) : Holds w (effPwrVote a1 a2 s) := by
  unfold effPwrVote
  try dsimp only
  repeat' first
    | with_reducible assumption
    | with_reducible apply State.commit_keeps
    | with_reducible apply State.putVotes_keeps
    | with_reducible apply State.setReg_keeps
    | with_reducible apply State.settlePower_keeps
    | fail_if_no_progress with_reducible refine Holds.mk_of ?_ rfl rfl rfl rfl rfl rfl
    | split

theorem execPwrVote_keeps {w : Watch} {s : State} {a1} (h : Holds w s) : NextHolds w (execPwrVote a1 s) := by
  unfold execPwrVote
  try dsimp only
  repeat' first
    | with_reducible assumption
    | with_reducible apply nextHolds_next
    | with_reducible exact nextHolds_fault
    | with_reducible exact nextHolds_refused
    | with_reducible apply effPwrVote_keeps
    | with_reducible apply runPkt_keeps
    | fail_if_no_progress with_reducible refine Holds.mk_of ?_ rfl rfl rfl rfl rfl rfl
    | split
    | (intro)

theorem effPwrClearFail_keeps {w : Watch} {s : State} {a1 a2} (h : Holds w s) : Holds w (effPwrClearFail a1 a2 s) := by
  unfold effPwrClearFail
  try dsimp only
  repeat' first
    | with_reducible assumption
    | with_reducible apply State.setReg_keeps
    | with_reducible apply State.settlePower_keeps
    | fail_if_no_progress with_reducible refine Holds.mk_of ?_ rfl rfl rfl rfl rfl rfl
    | split

theorem execPwrClearFail_keeps {w : Watch} {s : State} {a1} (h : Holds w s) : NextHolds w (execPwrClearFail a1 s) := by
  unfold execPwrClearFail
  try dsimp only
  repeat' first
    | with_reducible assumption
    | with_reducible apply nextHolds_next
    | with_reducible exact nextHolds_fault
    | with_reducible exact nextHolds_refused
    | with_reducible apply effPwrClearFail_keeps
    | with_reducible apply runPkt_keeps
    | fail_if_no_progress with_reducible refine Holds.mk_of ?_ rfl rfl rfl rfl rfl rfl
    | split
    | (intro)

theorem effPwrMemIdlePermit_keeps {w : Watch} {s : State} {a1 a2} (h : Holds w s) : Holds w (effPwrMemIdlePermit a1 a2 s) := by
  unfold effPwrMemIdlePermit
  try dsimp only
  repeat' first
    | with_reducible assumption
    | with_reducible apply State.commit_keeps
    | with_reducible apply State.complete_keeps
    | with_reducible apply State.setF_keeps
    | with_reducible apply State.settlePermit_keeps
    | fail_if_no_progress with_reducible refine Holds.mk_of ?_ rfl rfl rfl rfl rfl rfl
    | split

theorem execPwrMemIdlePermit_keeps {w : Watch} {s : State} {a1} (h : Holds w s) : NextHolds w (execPwrMemIdlePermit a1 s) := by
  unfold execPwrMemIdlePermit
  try dsimp only
  repeat' first
    | with_reducible assumption
    | with_reducible apply nextHolds_next
    | with_reducible exact nextHolds_fault
    | with_reducible exact nextHolds_refused
    | with_reducible apply effPwrMemIdlePermit_keeps
    | with_reducible apply runPkt_keeps
    | fail_if_no_progress with_reducible refine Holds.mk_of ?_ rfl rfl rfl rfl rfl rfl
    | split
    | (intro)

theorem effPwrSetState_keeps {w : Watch} {s : State} {a1 a2} (h : Holds w s) : Holds w (effPwrSetState a1 a2 s) := by
  unfold effPwrSetState
  try dsimp only
  repeat' first
    | with_reducible assumption
    | with_reducible apply State.complete_keeps
    | fail_if_no_progress with_reducible refine Holds.mk_of ?_ rfl rfl rfl rfl rfl rfl
    | split

theorem execPwrSetState_keeps {w : Watch} {s : State} {a1} (h : Holds w s) : NextHolds w (execPwrSetState a1 s) := by
  unfold execPwrSetState
  try dsimp only
  repeat' first
    | with_reducible assumption
    | with_reducible apply nextHolds_next
    | with_reducible exact nextHolds_fault
    | with_reducible exact nextHolds_refused
    | with_reducible apply effPwrSetState_keeps
    | with_reducible apply runPkt_keeps
    | fail_if_no_progress with_reducible refine Holds.mk_of ?_ rfl rfl rfl rfl rfl rfl
    | split
    | (intro)

theorem execDrainComplete_keeps {w : Watch} {s : State} (h : Holds w s) : NextHolds w (execDrainComplete s) := by
  unfold execDrainComplete
  try dsimp only
  repeat' first
    | with_reducible assumption
    | with_reducible apply nextHolds_next
    | with_reducible exact nextHolds_fault
    | with_reducible exact nextHolds_refused
    | with_reducible apply State.commit_keeps
    | with_reducible apply State.complete_keeps
    | with_reducible apply State.dropHaptics_keeps
    | with_reducible apply State.dropTouch_keeps
    | with_reducible apply State.setF_keeps
    | with_reducible apply State.setReg_keeps
    | fail_if_no_progress with_reducible refine Holds.mk_of ?_ rfl rfl rfl rfl rfl rfl
    | split

theorem State.sleepChannels_keeps {w : Watch} {s : State} (h : Holds w s) : Holds w (State.sleepChannels s) := by
  unfold State.sleepChannels
  try dsimp only
  repeat' first
    | with_reducible assumption
    | with_reducible apply State.abandonStep_keeps
    | with_reducible apply State.count_keeps
    | with_reducible apply State.setBit_keeps
    | with_reducible apply State.setF_keeps
    | fail_if_no_progress with_reducible refine Holds.mk_of ?_ rfl rfl rfl rfl rfl rfl
    | with_reducible refine foldl_keeps ?_ ?_
    | split
    | (intro)

theorem State.retainAll_keeps {w : Watch} {s : State} (h : Holds w s) : Holds w (State.retainAll s) := by
  unfold State.retainAll
  try dsimp only
  repeat' first
    | with_reducible assumption
    | with_reducible apply State.downAllLinks_keeps
    | with_reducible apply State.dropOutputs_keeps
    | with_reducible apply State.noteTemps_keeps
    | with_reducible apply State.setF_keeps
    | with_reducible apply State.setReg_keeps
    | with_reducible apply State.sleepChannels_keeps
    | fail_if_no_progress with_reducible refine Holds.mk_of ?_ rfl rfl rfl rfl rfl rfl

theorem execStateEntryComplete_keeps {w : Watch} {s : State} (h : Holds w s) (hl : w.Loses) : NextHolds w (execStateEntryComplete s) := by
  unfold execStateEntryComplete
  try dsimp only
  repeat' first
    | with_reducible assumption
    | with_reducible apply nextHolds_next
    | with_reducible exact nextHolds_fault
    | with_reducible exact nextHolds_refused
    | with_reducible apply State.atState_keeps
    | with_reducible apply State.beginWake_keeps
    | with_reducible apply State.loseMain_keeps
    | with_reducible apply State.retainAll_keeps
    | fail_if_no_progress with_reducible refine Holds.mk_of ?_ rfl rfl rfl rfl rfl rfl
    | split

theorem State.tellXtal_keeps {w : Watch} {s : State} (h : Holds w s) : Holds w (State.tellXtal s) := by
  unfold State.tellXtal
  try dsimp only
  repeat' first
    | with_reducible assumption
    | with_reducible apply State.postMgr_keeps
    | fail_if_no_progress with_reducible refine Holds.mk_of ?_ rfl rfl rfl rfl rfl rfl
    | split

theorem execXtal32Qualified_keeps {w : Watch} {s : State} (h : Holds w s) : NextHolds w (execXtal32Qualified s) := by
  unfold execXtal32Qualified
  try dsimp only
  repeat' first
    | with_reducible assumption
    | with_reducible apply nextHolds_next
    | with_reducible exact nextHolds_fault
    | with_reducible exact nextHolds_refused
    | with_reducible apply State.setF_keeps
    | fail_if_no_progress with_reducible refine Holds.mk_of ?_ rfl rfl rfl rfl rfl rfl
    | split

theorem execXtal32QualifyTimeout_keeps {w : Watch} {s : State} (h : Holds w s) : NextHolds w (execXtal32QualifyTimeout s) := by
  unfold execXtal32QualifyTimeout
  try dsimp only
  repeat' first
    | with_reducible assumption
    | with_reducible apply nextHolds_next
    | with_reducible exact nextHolds_fault
    | with_reducible exact nextHolds_refused
    | with_reducible apply State.powerEvent_keeps
    | with_reducible apply State.setF_keeps
    | with_reducible apply State.tellXtal_keeps
    | fail_if_no_progress with_reducible refine Holds.mk_of ?_ rfl rfl rfl rfl rfl rfl
    | split

end Sys2Proof.Machine
end

