-- ==== Sys2Proof/Laws/KeepsHandover.lean ====
section
/-! SUPPORT. What Machine/Handover.lean does keeps what is watched. -/

namespace Sys2Proof.Machine

theorem effStrgHandover_keeps {w : Watch} {s : State} {a1 a2} (h : Holds w s) : Holds w (effStrgHandover a1 a2 s) := by
  unfold effStrgHandover
  try dsimp only
  repeat' first
    | with_reducible assumption
    | with_reducible apply State.closePort_keeps
    | with_reducible apply State.commit_keeps
    | with_reducible apply State.complete_keeps
    | with_reducible apply State.endPending_keeps
    | with_reducible apply State.setHap_keeps
    | fail_if_no_progress with_reducible refine Holds.mk_of ?_ rfl rfl rfl rfl rfl rfl
    | split

theorem execStrgHandover_keeps {w : Watch} {s : State} {a1} (h : Holds w s) : NextHolds w (execStrgHandover a1 s) := by
  unfold execStrgHandover
  try dsimp only
  repeat' first
    | with_reducible assumption
    | with_reducible apply nextHolds_next
    | with_reducible exact nextHolds_fault
    | with_reducible exact nextHolds_refused
    | with_reducible apply effStrgHandover_keeps
    | with_reducible apply strgPkt_keeps
    | fail_if_no_progress with_reducible refine Holds.mk_of ?_ rfl rfl rfl rfl rfl rfl
    | split
    | (intro)

theorem State.resetRegs_keeps {w : Watch} {s : State} {a1} (h : Holds w s) : Holds w (State.resetRegs s a1) := by
  unfold State.resetRegs
  try dsimp only
  repeat' first
    | with_reducible assumption
    | with_reducible apply State.setReg_keeps
    | fail_if_no_progress with_reducible refine Holds.mk_of ?_ rfl rfl rfl rfl rfl rfl
    | with_reducible refine foldl_keeps ?_ ?_
    | split
    | (intro)

theorem State.resetUnit_keeps {w : Watch} {s : State} {a1 a2} (h : Holds w s) : Holds w (State.resetUnit s a1 a2) := by
  unfold State.resetUnit
  try dsimp only
  repeat' first
    | with_reducible assumption
    | with_reducible apply State.cvuReset_keeps
    | with_reducible apply State.endPkt_keeps
    | with_reducible apply State.hapOwnerChange_keeps
    | with_reducible apply State.resetRegs_keeps
    | with_reducible apply State.setCvuHolder_keeps
    | with_reducible apply State.setHap_keeps
    | with_reducible apply State.setTctl_keeps
    | fail_if_no_progress with_reducible refine Holds.mk_of ?_ rfl rfl rfl rfl rfl rfl
    | with_reducible refine foldl_keeps ?_ ?_
    | split
    | (intro)

theorem State.markWorld_keeps {w : Watch} {s : State} {a1 a2 a3} (h : Holds w s) : Holds w (State.markWorld s a1 a2 a3) := by
  unfold State.markWorld
  try dsimp only
  repeat' first
    | with_reducible assumption
    | with_reducible apply State.setBit_keeps
    | fail_if_no_progress with_reducible refine Holds.mk_of ?_ rfl rfl rfl rfl rfl rfl
    | split

theorem State.showUnit_keeps {w : Watch} {s : State} {a1 a2} (h : Holds w s) : Holds w (State.showUnit s a1 a2) := by
  unfold State.showUnit
  try dsimp only
  repeat' first
    | with_reducible assumption
    | with_reducible apply State.setF_keeps
    | with_reducible apply State.showTouch_keeps
    | fail_if_no_progress with_reducible refine Holds.mk_of ?_ rfl rfl rfl rfl rfl rfl
    | split

theorem execHandoverQuiesced_keeps {w : Watch} {s : State} (h : Holds w s) : NextHolds w (execHandoverQuiesced s) := by
  unfold execHandoverQuiesced
  try dsimp only
  repeat' first
    | with_reducible assumption
    | with_reducible apply nextHolds_next
    | with_reducible exact nextHolds_fault
    | with_reducible exact nextHolds_refused
    | with_reducible apply State.capChanged_keeps
    | with_reducible apply State.complete_keeps
    | with_reducible apply State.markWorld_keeps
    | with_reducible apply State.postMgr_keeps
    | with_reducible apply State.resetUnit_keeps
    | with_reducible apply State.showUnit_keeps
    | with_reducible apply State.strgVote_keeps
    | fail_if_no_progress with_reducible refine Holds.mk_of ?_ rfl rfl rfl rfl rfl rfl
    | with_reducible refine foldl_keeps ?_ ?_
    | split

theorem strgRequest_keeps {w : Watch} {op pk} {s u : State} (h : Holds w s) (e : strgRequest op pk s = some (.next u)) : Holds w u := by
  unfold strgRequest at e
  split at e
  · exact execStrgGetInfo_keeps h u (Option.some.inj e)
  split at e
  · exact execStrgSetTelltale_keeps h u (Option.some.inj e)
  split at e
  · exact execStrgChime_keeps h u (Option.some.inj e)
  split at e
  · exact execStrgHandover_keeps h u (Option.some.inj e)
  split at e
  · exact execStrgKeyLoad_keeps h u (Option.some.inj e)
  split at e
  · exact execStrgPermitTiming_keeps h u (Option.some.inj e)
  · cases e

theorem execStrgReqDoorbell_keeps {w : Watch} {s : State} {a1} (h : Holds w s) : NextHolds w (execStrgReqDoorbell a1 s) := by
  unfold execStrgReqDoorbell
  try dsimp only
  repeat' first
    | with_reducible assumption
    | with_reducible apply nextHolds_next
    | with_reducible exact nextHolds_fault
    | with_reducible exact nextHolds_refused
    | with_reducible apply State.badWrite_keeps
    | with_reducible apply State.regWrite_keeps
    | with_reducible apply State.setF_keeps
    | with_reducible apply State.windowReply_keeps
    | with_reducible refine strgRequest_keeps ?_ (by assumption)
    | fail_if_no_progress with_reducible refine Holds.mk_of ?_ rfl rfl rfl rfl rfl rfl
    | split
    | (intro)

end Sys2Proof.Machine
end

