-- ==== Sys2Proof/Laws/KeepsLedger.lean ====
section
/-! SUPPORT. What Machine/Ledger.lean does keeps what is watched. -/

namespace Sys2Proof.Machine

theorem State.tellLedger_keeps {w : Watch} {s : State} (h : Holds w s) : Holds w (State.tellLedger s) := by
  unfold State.tellLedger
  try dsimp only
  repeat' first
    | with_reducible assumption
    | with_reducible apply State.postMgr_keeps
    | fail_if_no_progress with_reducible refine Holds.mk_of ?_ rfl rfl rfl rfl rfl rfl
    | with_reducible refine foldl_keeps ?_ ?_
    | split
    | (intro)

theorem State.ledgerEvent_keeps {w : Watch} {s : State} {a1 a2 a3} (h : Holds w s) : Holds w (State.ledgerEvent s a1 a2 a3) := by
  unfold State.ledgerEvent
  try dsimp only
  repeat' first
    | with_reducible assumption
    | with_reducible apply State.tellLedger_keeps
    | fail_if_no_progress with_reducible refine Holds.mk_of ?_ rfl rfl rfl rfl rfl rfl

theorem State.writeCounters_keeps {w : Watch} {s : State} {a1} (h : Holds w s) : Holds w (State.writeCounters s a1) := by
  unfold State.writeCounters
  try dsimp only
  repeat' first
    | with_reducible assumption
    | with_reducible apply State.ledgAppend_keeps

theorem State.writeHeldErrors_keeps {w : Watch} {s : State} {a1} (h : Holds w s) : Holds w (State.writeHeldErrors s a1) := by
  unfold State.writeHeldErrors
  try dsimp only
  repeat' first
    | with_reducible assumption
    | with_reducible apply State.ledgAppend_keeps
    | fail_if_no_progress with_reducible refine Holds.mk_of ?_ rfl rfl rfl rfl rfl rfl
    | with_reducible refine foldl_keeps ?_ ?_
    | split
    | (intro)

theorem State.writeWearMap_keeps {w : Watch} {s : State} {a1} (h : Holds w s) : Holds w (State.writeWearMap s a1) := by
  unfold State.writeWearMap
  try dsimp only
  repeat' first
    | with_reducible assumption
    | with_reducible apply State.ledgAppend_keeps
    | fail_if_no_progress with_reducible refine Holds.mk_of ?_ rfl rfl rfl rfl rfl rfl
    | with_reducible refine foldl_keeps ?_ ?_
    | split

theorem State.writeWearAcc_keeps {w : Watch} {s : State} {a1} (h : Holds w s) : Holds w (State.writeWearAcc s a1) := by
  unfold State.writeWearAcc
  try dsimp only
  repeat' first
    | with_reducible assumption
    | with_reducible apply State.ledgAppend_keeps

theorem State.writeRetrain_keeps {w : Watch} {s : State} {a1} (h : Holds w s) : Holds w (State.writeRetrain s a1) := by
  unfold State.writeRetrain
  try dsimp only
  repeat' first
    | with_reducible assumption
    | with_reducible apply State.ledgAppend_keeps

theorem State.ledgerUpdate_keeps {w : Watch} {s : State} (h : Holds w s) : Holds w (State.ledgerUpdate s) := by
  unfold State.ledgerUpdate
  try dsimp only
  repeat' first
    | with_reducible assumption
    | with_reducible apply State.writeCounters_keeps
    | with_reducible apply State.writeHapRecord_keeps
    | with_reducible apply State.writeHeldErrors_keeps
    | with_reducible apply State.writeWearMap_keeps
    | fail_if_no_progress with_reducible refine Holds.mk_of ?_ rfl rfl rfl rfl rfl rfl
    | with_reducible refine foldl_keeps ?_ ?_
    | split
    | (intro)

theorem execLedgerPeriodicUpdate_keeps {w : Watch} {s : State} (h : Holds w s) : NextHolds w (execLedgerPeriodicUpdate s) := by
  unfold execLedgerPeriodicUpdate
  try dsimp only
  repeat' first
    | with_reducible assumption
    | with_reducible apply nextHolds_next
    | with_reducible exact nextHolds_fault
    | with_reducible exact nextHolds_refused
    | with_reducible apply State.ledgerUpdate_keeps

theorem execWearSaveBufferAdd_keeps {w : Watch} {s : State} (h : Holds w s) : NextHolds w (execWearSaveBufferAdd s) := by
  unfold execWearSaveBufferAdd
  try dsimp only
  repeat' first
    | with_reducible assumption
    | with_reducible apply nextHolds_next
    | with_reducible exact nextHolds_fault
    | with_reducible exact nextHolds_refused
    | fail_if_no_progress with_reducible refine Holds.mk_of ?_ rfl rfl rfl rfl rfl rfl

theorem execRetrainHourRecord_keeps {w : Watch} {s : State} (h : Holds w s) : NextHolds w (execRetrainHourRecord s) := by
  unfold execRetrainHourRecord
  try dsimp only
  repeat' first
    | with_reducible assumption
    | with_reducible apply nextHolds_next
    | with_reducible exact nextHolds_fault
    | with_reducible exact nextHolds_refused
    | with_reducible apply State.setLane_keeps
    | with_reducible apply State.writeRetrain_keeps
    | fail_if_no_progress with_reducible refine Holds.mk_of ?_ rfl rfl rfl rfl rfl rfl
    | with_reducible refine foldl_keeps ?_ ?_
    | split
    | (intro)

theorem execVsaveArmed_keeps {w : Watch} {s : State} {a1} (h : Holds w s) : NextHolds w (execVsaveArmed a1 s) := by
  unfold execVsaveArmed
  try dsimp only
  repeat' first
    | with_reducible assumption
    | with_reducible apply nextHolds_next
    | with_reducible exact nextHolds_fault
    | with_reducible exact nextHolds_refused
    | with_reducible apply State.ledgerEvent_keeps
    | with_reducible apply State.powerEvent_keeps
    | with_reducible apply State.setF_keeps
    | with_reducible apply State.setReg_keeps
    | fail_if_no_progress with_reducible refine Holds.mk_of ?_ rfl rfl rfl rfl rfl rfl
    | split

theorem execVsaveArmTimeout_keeps {w : Watch} {s : State} (h : Holds w s) : NextHolds w (execVsaveArmTimeout s) := by
  unfold execVsaveArmTimeout
  try dsimp only
  repeat' first
    | with_reducible assumption
    | with_reducible apply nextHolds_next
    | with_reducible exact nextHolds_fault
    | with_reducible exact nextHolds_refused
    | with_reducible apply State.ledgerEvent_keeps
    | with_reducible apply State.powerEvent_keeps
    | with_reducible apply State.setF_keeps
    | fail_if_no_progress with_reducible refine Holds.mk_of ?_ rfl rfl rfl rfl rfl rfl
    | split

theorem execSagDetected_keeps {w : Watch} {s : State} {a1 a2 a3} (h : Holds w s) : NextHolds w (execSagDetected a1 a2 a3 s) := by
  unfold execSagDetected
  try dsimp only
  repeat' first
    | with_reducible assumption
    | with_reducible apply nextHolds_next
    | with_reducible exact nextHolds_fault
    | with_reducible exact nextHolds_refused
    | with_reducible apply State.ledgAppend_keeps
    | with_reducible apply State.setF_keeps
    | with_reducible apply State.setReg_keeps
    | with_reducible apply State.writeCounters_keeps
    | with_reducible apply State.writeHapRecord_keeps
    | with_reducible apply State.writeHeldErrors_keeps
    | with_reducible apply State.writeRetrain_keeps
    | with_reducible apply State.writeWearAcc_keeps
    | fail_if_no_progress with_reducible refine Holds.mk_of ?_ rfl rfl rfl rfl rfl rfl
    | with_reducible refine foldl_keeps ?_ ?_
    | split
    | (intro)

theorem execVddaoRecovered_keeps {w : Watch} {s : State} (h : Holds w s) : NextHolds w (execVddaoRecovered s) := by
  unfold execVddaoRecovered
  try dsimp only
  repeat' first
    | with_reducible assumption
    | with_reducible apply nextHolds_next
    | with_reducible exact nextHolds_fault
    | with_reducible exact nextHolds_refused
    | with_reducible apply State.count_keeps
    | with_reducible apply State.postMgr_keeps
    | with_reducible apply State.setF_keeps
    | fail_if_no_progress with_reducible refine Holds.mk_of ?_ rfl rfl rfl rfl rfl rfl
    | split

theorem effLedgRead_keeps {w : Watch} {s : State} {a1 a2} (h : Holds w s) : Holds w (effLedgRead a1 a2 s) := by
  unfold effLedgRead
  try dsimp only
  repeat' first
    | with_reducible assumption
    | with_reducible apply State.count_keeps
    | with_reducible apply State.storeReply_keeps

theorem execLedgRead_keeps {w : Watch} {s : State} {a1} (h : Holds w s) : NextHolds w (execLedgRead a1 s) := by
  unfold execLedgRead
  try dsimp only
  repeat' first
    | with_reducible assumption
    | with_reducible apply nextHolds_next
    | with_reducible exact nextHolds_fault
    | with_reducible exact nextHolds_refused
    | with_reducible apply effLedgRead_keeps
    | with_reducible apply runPkt_keeps
    | fail_if_no_progress with_reducible refine Holds.mk_of ?_ rfl rfl rfl rfl rfl rfl
    | split
    | (intro)

theorem effLedgSetCalendar_keeps {w : Watch} {s : State} {a1 a2} (h : Holds w s) : Holds w (effLedgSetCalendar a1 a2 s) := by
  unfold effLedgSetCalendar
  try dsimp only
  repeat' first
    | with_reducible assumption
    | with_reducible apply State.complete_keeps
    | with_reducible apply State.emit_keeps
    | with_reducible apply State.setCalendar_keeps
    | fail_if_no_progress with_reducible refine Holds.mk_of ?_ rfl rfl rfl rfl rfl rfl
    | split

theorem execLedgSetCalendar_keeps {w : Watch} {s : State} {a1} (h : Holds w s) : NextHolds w (execLedgSetCalendar a1 s) := by
  unfold execLedgSetCalendar
  try dsimp only
  repeat' first
    | with_reducible assumption
    | with_reducible apply nextHolds_next
    | with_reducible exact nextHolds_fault
    | with_reducible exact nextHolds_refused
    | with_reducible apply effLedgSetCalendar_keeps
    | with_reducible apply runPkt_keeps
    | fail_if_no_progress with_reducible refine Holds.mk_of ?_ rfl rfl rfl rfl rfl rfl
    | split
    | (intro)

theorem effLedgFlush_keeps {w : Watch} {s : State} {a1 a2} (h : Holds w s) : Holds w (effLedgFlush a1 a2 s) := by
  unfold effLedgFlush
  try dsimp only
  repeat' first
    | with_reducible assumption
    | with_reducible apply State.complete_keeps
    | with_reducible apply State.ledgerUpdate_keeps

theorem execLedgFlush_keeps {w : Watch} {s : State} {a1} (h : Holds w s) : NextHolds w (execLedgFlush a1 s) := by
  unfold execLedgFlush
  try dsimp only
  repeat' first
    | with_reducible assumption
    | with_reducible apply nextHolds_next
    | with_reducible exact nextHolds_fault
    | with_reducible exact nextHolds_refused
    | with_reducible apply effLedgFlush_keeps
    | with_reducible apply runPkt_keeps
    | fail_if_no_progress with_reducible refine Holds.mk_of ?_ rfl rfl rfl rfl rfl rfl
    | split
    | (intro)

theorem effLedgGetCalendar_keeps {w : Watch} {s : State} {a1 a2} (h : Holds w s) : Holds w (effLedgGetCalendar a1 a2 s) := by
  unfold effLedgGetCalendar
  try dsimp only
  repeat' first
    | with_reducible assumption
    | with_reducible apply State.complete_keeps

theorem execLedgGetCalendar_keeps {w : Watch} {s : State} {a1} (h : Holds w s) : NextHolds w (execLedgGetCalendar a1 s) := by
  unfold execLedgGetCalendar
  try dsimp only
  repeat' first
    | with_reducible assumption
    | with_reducible apply nextHolds_next
    | with_reducible exact nextHolds_fault
    | with_reducible exact nextHolds_refused
    | with_reducible apply effLedgGetCalendar_keeps
    | with_reducible apply runPkt_keeps
    | fail_if_no_progress with_reducible refine Holds.mk_of ?_ rfl rfl rfl rfl rfl rfl
    | split
    | (intro)

end Sys2Proof.Machine
end

