-- ==== Sys2Proof/Laws/KeepsReclaim.lean ====
section
/-! SUPPORT. What Machine/Reclaim.lean does keeps what is watched. -/

namespace Sys2Proof.Machine

theorem State.endResize_keeps {w : Watch} {s : State} {a1 a2 a3} (h : Holds w s) : Holds w (State.endResize s a1 a2 a3) := by
  unfold State.endResize
  try dsimp only
  repeat' first
    | with_reducible assumption
    | with_reducible apply State.allotCounters_keeps
    | with_reducible apply State.capChanged_keeps
    | with_reducible apply State.complete_keeps
    | with_reducible apply State.setInst_keeps
    | fail_if_no_progress with_reducible refine Holds.mk_of ?_ rfl rfl rfl rfl rfl rfl
    | split

theorem State.settleResizes_keeps {w : Watch} {s : State} (h : Holds w s) : Holds w (State.settleResizes s) := by
  unfold State.settleResizes
  try dsimp only
  repeat' first
    | with_reducible assumption
    | with_reducible apply State.endResize_keeps
    | fail_if_no_progress with_reducible refine Holds.mk_of ?_ rfl rfl rfl rfl rfl rfl
    | with_reducible refine foldl_keeps ?_ ?_
    | split
    | (intro)

theorem State.hideObject_keeps {w : Watch} {s : State} {a1 a2} (h : Holds w s) : Holds w (State.hideObject s a1 a2) := by
  unfold State.hideObject
  try dsimp only
  repeat' first
    | with_reducible assumption
    | with_reducible apply State.dropBuffer_keeps
    | fail_if_no_progress with_reducible refine Holds.mk_of ?_ rfl rfl rfl rfl rfl rfl
    | with_reducible refine foldl_keeps ?_ ?_
    | split
    | (intro)

theorem State.removeLayer_keeps {w : Watch} {s : State} {a1} (h : Holds w s) : Holds w (State.removeLayer s a1) := by
  unfold State.removeLayer
  try dsimp only
  repeat' first
    | with_reducible assumption
    | with_reducible apply State.abort_keeps
    | with_reducible apply State.dropBuffer_keeps
    | with_reducible apply State.setLayer_keeps
    | fail_if_no_progress with_reducible refine Holds.mk_of ?_ rfl rfl rfl rfl rfl rfl
    | with_reducible refine foldl_keeps ?_ ?_
    | split
    | (intro)

theorem Taken.take_keeps {w : Watch} {t : Taken} {n field unit g : Nat} {f : State → State} (h : Holds w t.state) (hf : ∀ s, Holds w s → Holds w (f s)) :
    Holds w (t.take n field unit g f).state := State.post_keeps (hf _ h)

theorem Taken.takeObject_keeps {w : Watch} {t : Taken} {n field i : Nat} (h : Holds w t.state) : Holds w (t.takeObject n field i).state := by
  unfold Taken.takeObject
  split
  · exact Taken.take_keeps h fun s hs => State.freeObject_keeps (State.hideObject_keeps hs)
  · exact h

theorem taken_foldl_keeps {w : Watch} {α : Type} {f : Taken → α → Taken} {l : List α} {t : Taken} (h : Holds w t.state)
    (hf : ∀ t x, Holds w t.state → Holds w (f t x).state) : Holds w (l.foldl f t).state := by
  induction l generalizing t with
  | nil => exact h
  | cons a r ih => exact ih (hf t a h)

theorem takeMemory_keeps {w : Watch} {n k : Nat} {t : Taken} (h : Holds w t.state) : Holds w (takeMemory n k t).state := by
  induction k generalizing t with
  | zero => exact h
  | succ k ih =>
    unfold takeMemory
    split
    · exact h
    · split
      · exact ih (Taken.takeObject_keeps h)
      · exact h

theorem takeLayers_keeps {w : Watch} {n field k : Nat} {units : Layer → List Nat} {t : Taken} (h : Holds w t.state) : Holds w (takeLayers n field units k t).state := by
  induction k generalizing t with
  | zero => exact h
  | succ k ih =>
    unfold takeLayers
    extract_lets g used
    generalize (if field = 11 then g.layers else g.scalers) = m
    split
    · exact h
    · split
      · exact ih (taken_foldl_keeps (State.removeLayer_keeps h) fun t x ht => Taken.take_keeps ht fun s hs => hs)
      · exact h

theorem State.reclaim_keeps {w : Watch} {s : State} {n : Nat} (h : Holds w s) : Holds w (s.reclaim n).state := by
  unfold State.reclaim
  extract_lets x t1 t2 t3 t4 t5 nodes t6 t7 t8 t9
  have h1 : Holds w t1.state := takeMemory_keeps h
  have h2 : Holds w t2.state := taken_foldl_keeps h1 fun t x ht => Taken.takeObject_keeps ht
  have h3 : Holds w t3.state := taken_foldl_keeps h2 fun t x ht => Taken.take_keeps ht fun s hs => State.freeRegion_keeps hs
  have h4 : Holds w t4.state := takeLayers_keeps h3
  have h5 : Holds w t5.state := takeLayers_keeps h4
  have h6 : Holds w t6.state := taken_foldl_keeps (State.trimAudio_keeps h5) fun t x ht => Taken.take_keeps ht fun s hs => hs
  have h7 : Holds w t7.state := taken_foldl_keeps h6 fun t x ht => Taken.take_keeps ht fun s hs => hs
  have h8 : Holds w t8.state := taken_foldl_keeps h7 fun t x ht => by
    split
    · exact ht
    · exact Taken.take_keeps ht fun s hs => hs
  have h9 : Holds w t9.state := taken_foldl_keeps h8 fun t x ht => by
    split
    · exact ht
    · exact Taken.take_keeps ht fun s hs => foldl_keeps hs fun v q hv => State.removeLayer_keeps hv
  exact taken_foldl_keeps h9 fun t x ht => by
    split
    · exact ht
    · exact Taken.take_keeps ht fun s hs => State.hapOwnerChange_keeps hs

theorem execResizeGraceEnd_keeps {w : Watch} {s : State} {a1} (h : Holds w s) : NextHolds w (execResizeGraceEnd a1 s) := by
  unfold execResizeGraceEnd
  try dsimp only
  repeat' first
    | with_reducible assumption
    | with_reducible apply nextHolds_next
    | with_reducible exact nextHolds_fault
    | with_reducible exact nextHolds_refused
    | with_reducible apply State.endResize_keeps
    | with_reducible apply State.reclaim_keeps
    | fail_if_no_progress with_reducible refine Holds.mk_of ?_ rfl rfl rfl rfl rfl rfl
    | split

end Sys2Proof.Machine
end

