-- ==== Sys2Proof/Laws/KeepsImage.lean ====
section
/-! SUPPORT. What Machine/Image.lean does keeps what is watched. -/

namespace Sys2Proof.Machine

theorem State.loadObject_keeps {w : Watch} {s : State} {a1 a2 a3 a4} (h : Holds w s) : SomeHolds w (State.loadObject s a1 a2 a3 a4) := by
  unfold State.loadObject
  try dsimp only
  repeat' first
    | with_reducible assumption
    | with_reducible apply someHolds_some
    | with_reducible exact someHolds_none
    | with_reducible apply someHolds_map
    | with_reducible apply someHolds_bind
    | with_reducible apply State.setShelf_keeps
    | with_reducible apply State.wipe_keeps
    | with_reducible apply State.writeObj_keeps
    | fail_if_no_progress with_reducible refine Holds.mk_of ?_ rfl rfl rfl rfl rfl rfl
    | with_reducible refine foldl_keeps ?_ ?_
    | split
    | (intro)

theorem State.loadObjects_keeps {w : Watch} {s : State} {a1 a2 a3} (h : Holds w s) : SomeHolds w (State.loadObjects a1 a2 a3 s) := by
  induction a3 generalizing s a1 a2 with
  | nil =>
    unfold State.loadObjects
    repeat' first
      | with_reducible assumption
      | with_reducible apply someHolds_some
  | cons x r ih =>
    unfold State.loadObjects
    try dsimp only
    repeat' first
      | with_reducible assumption
      | with_reducible apply ih
      | with_reducible apply someHolds_some
      | with_reducible exact someHolds_none
      | with_reducible apply someHolds_map
      | with_reducible apply someHolds_bind
      | with_reducible refine SomeHolds.of (State.loadObject_keeps ?_) (by assumption)
      | with_reducible apply State.loadObject_keeps
      | fail_if_no_progress with_reducible refine Holds.mk_of ?_ rfl rfl rfl rfl rfl rfl
      | split

theorem State.loadRings_keeps {w : Watch} {s : State} {a1 a2} (h : Holds w s) : Holds w (State.loadRings s a1 a2) := by
  unfold State.loadRings
  try dsimp only
  repeat' first
    | with_reducible assumption
    | with_reducible apply State.count_keeps
    | with_reducible apply State.setFn_keeps
    | with_reducible apply State.setInst_keeps
    | with_reducible apply State.setReg_keeps
    | exact Holds.mk_regs h (tabWf_dropRange _ _ h.inv.1) rfl rfl rfl rfl rfl
    | fail_if_no_progress with_reducible refine Holds.mk_of ?_ rfl rfl rfl rfl rfl rfl
    | with_reducible refine foldl_keeps ?_ ?_
    | split
    | (intro)

theorem State.loadLayers_keeps {w : Watch} {s : State} {a1 a2} (h : Holds w s) : Holds w (State.loadLayers s a1 a2) := by
  unfold State.loadLayers
  try dsimp only
  repeat' first
    | with_reducible assumption
    | with_reducible apply State.setF_keeps
    | with_reducible apply State.setLayer_keeps
    | with_reducible apply State.setPipe_keeps
    | with_reducible apply State.setReg_keeps
    | fail_if_no_progress with_reducible refine Holds.mk_of ?_ rfl rfl rfl rfl rfl rfl
    | with_reducible refine foldl_keeps ?_ ?_
    | split
    | (intro)

theorem State.loadCollation_keeps {w : Watch} {s : State} {a1 a2} (h : Holds w s) : Holds w (State.loadCollation s a1 a2) := by
  unfold State.loadCollation
  try dsimp only
  repeat' first
    | with_reducible assumption
    | with_reducible apply State.setReg_keeps
    | with_reducible apply State.setWin_keeps
    | with_reducible apply State.showWin_keeps
    | fail_if_no_progress with_reducible refine Holds.mk_of ?_ rfl rfl rfl rfl rfl rfl
    | with_reducible refine foldl_keeps ?_ ?_
    | split
    | (intro)

theorem State.loadAudio_keeps {w : Watch} {s : State} {a1 a2} (h : Holds w s) : Holds w (State.loadAudio s a1 a2) := by
  unfold State.loadAudio
  try dsimp only
  repeat' first
    | with_reducible assumption
    | with_reducible apply State.newNode_keeps
    | with_reducible apply State.newRoute_keeps
    | with_reducible apply State.setEp_keeps
    | with_reducible apply State.showEp_keeps
    | fail_if_no_progress with_reducible refine Holds.mk_of ?_ rfl rfl rfl rfl rfl rfl
    | with_reducible refine foldl_keeps ?_ ?_
    | split
    | (intro)

theorem State.loadTouch_keeps {w : Watch} {s : State} {a1 a2} (h : Holds w s) : Holds w (State.loadTouch s a1 a2) := by
  unfold State.loadTouch
  try dsimp only
  repeat' first
    | with_reducible assumption
    | with_reducible apply State.setF_keeps
    | with_reducible apply State.setHap_keeps
    | with_reducible apply State.setReg_keeps
    | with_reducible apply State.setRegion_keeps
    | fail_if_no_progress with_reducible refine Holds.mk_of ?_ rfl rfl rfl rfl rfl rfl
    | with_reducible refine foldl_keeps ?_ ?_
    | split
    | (intro)

theorem State.loadCounters_keeps {w : Watch} {s : State} {a1 a2} (h : Holds w s) : Holds w (State.loadCounters s a1 a2) := by
  unfold State.loadCounters
  try dsimp only
  repeat' first
    | with_reducible assumption
    | with_reducible apply State.setCnt_keeps
    | with_reducible apply State.setCntValue_keeps
    | with_reducible apply State.setReg_keeps
    | fail_if_no_progress with_reducible refine Holds.mk_of ?_ rfl rfl rfl rfl rfl rfl
    | with_reducible refine foldl_keeps ?_ ?_
    | split
    | (intro)

theorem State.loadTimings_keeps {w : Watch} {s : State} {a1} (h : Holds w s) : Holds w (State.loadTimings s a1).2 := by
  unfold State.loadTimings
  try dsimp only
  repeat' first
    | with_reducible assumption
    | with_reducible apply State.setOutp_keeps
    | fail_if_no_progress with_reducible refine Holds.mk_of ?_ rfl rfl rfl rfl rfl rfl
    | with_reducible refine foldl_keeps ?_ ?_
    | fail_if_no_progress dsimp only
    | with_reducible refine foldl_keeps_snd ?_ ?_
    | split
    | (intro)

theorem State.loadTimings_keeps' {u v} {w : Watch} {s : State} {a1} (e : State.loadTimings s a1 = (v, u)) (h : Holds w s) : Holds w u := by
  have h2 := @State.loadTimings_keeps w s a1 h
  rw [e] at h2
  exact h2

theorem State.loadRest_keeps {w : Watch} {s : State} {a1 a2} (h : Holds w s) : Holds w (State.loadRest s a1 a2) := by
  unfold State.loadRest
  try dsimp only
  repeat' first
    | with_reducible assumption
    | with_reducible apply State.loadAudio_keeps
    | with_reducible apply State.loadCollation_keeps
    | with_reducible apply State.loadCounters_keeps
    | with_reducible apply State.loadLayers_keeps
    | with_reducible apply State.loadRings_keeps
    | with_reducible apply State.loadTouch_keeps
    | with_reducible apply State.setInst_keeps

end Sys2Proof.Machine
end

