-- ==== Sys2Proof/Laws/KeepsInstances.lean ====
section
/-! SUPPORT. What Machine/Instances.lean does keeps what is watched. -/

namespace Sys2Proof.Machine

theorem State.resetRings_keeps {w : Watch} {s : State} {a1} (h : Holds w s) : Holds w (State.resetRings s a1) := by
  unfold State.resetRings
  try dsimp only
  repeat' first
    | with_reducible assumption
    | with_reducible apply State.setFn_keeps
    | exact Holds.mk_regs h (tabWf_dropRange _ _ h.inv.1) rfl rfl rfl rfl rfl

theorem State.tellOwners_keeps {w : Watch} {s : State} {a1} (h : Holds w s) : Holds w (State.tellOwners s a1) := by
  unfold State.tellOwners
  try dsimp only
  repeat' first
    | with_reducible assumption
    | with_reducible apply State.capChanged_keeps
    | fail_if_no_progress with_reducible refine Holds.mk_of ?_ rfl rfl rfl rfl rfl rfl
    | split

theorem effInstCreate_keeps {w : Watch} {s : State} {a1 a2} (h : Holds w s) : Holds w (effInstCreate a1 a2 s) := by
  unfold effInstCreate
  try dsimp only
  repeat' first
    | with_reducible assumption
    | with_reducible apply State.allotCounters_keeps
    | with_reducible apply State.capChanged_keeps
    | with_reducible apply State.complete_keeps
    | with_reducible apply State.hapOwnerChange_keeps
    | with_reducible apply State.resetRings_keeps
    | with_reducible apply State.setInst_keeps
    | with_reducible apply State.tellOwners_keeps
    | fail_if_no_progress with_reducible refine Holds.mk_of ?_ rfl rfl rfl rfl rfl rfl
    | with_reducible refine foldl_keeps ?_ ?_

theorem execInstCreate_keeps {w : Watch} {s : State} {a1} (h : Holds w s) : NextHolds w (execInstCreate a1 s) := by
  unfold execInstCreate
  try dsimp only
  repeat' first
    | with_reducible assumption
    | with_reducible apply nextHolds_next
    | with_reducible exact nextHolds_fault
    | with_reducible exact nextHolds_refused
    | with_reducible apply effInstCreate_keeps
    | with_reducible apply runPkt_keeps
    | fail_if_no_progress with_reducible refine Holds.mk_of ?_ rfl rfl rfl rfl rfl rfl
    | split
    | (intro)

theorem State.orphan_keeps {w : Watch} {s : State} {a1} (h : Holds w s) : Holds w (State.orphan s a1) := by
  unfold State.orphan
  try dsimp only
  repeat' first
    | with_reducible assumption
    | fail_if_no_progress with_reducible refine Holds.mk_of ?_ rfl rfl rfl rfl rfl rfl

theorem State.loseRings_keeps {w : Watch} {s : State} {a1 a2} (h : Holds w s) : Holds w (State.loseRings s a1 a2) := by
  unfold State.loseRings
  try dsimp only
  repeat' first
    | with_reducible assumption
    | with_reducible apply State.breakSlips_keeps
    | with_reducible apply State.endAll_keeps
    | with_reducible apply State.orphan_keeps
    | with_reducible apply State.resetRings_keeps

theorem State.endMigrations_keeps {w : Watch} {s : State} {a1} (h : Holds w s) : Holds w (State.endMigrations s a1) := by
  unfold State.endMigrations
  try dsimp only
  repeat' first
    | with_reducible assumption
    | with_reducible apply State.emit_keeps
    | with_reducible apply State.endAll_keeps
    | fail_if_no_progress with_reducible refine Holds.mk_of ?_ rfl rfl rfl rfl rfl rfl
    | with_reducible refine foldl_keeps ?_ ?_
    | split
    | (intro)

theorem State.clearInst_keeps {w : Watch} {s : State} {a1 a2} (h : Holds w s) : Holds w (State.clearInst s a1 a2) := by
  unfold State.clearInst
  try dsimp only
  repeat' first
    | with_reducible assumption
    | with_reducible apply State.brakePassively_keeps
    | with_reducible apply State.clearCounters_keeps
    | with_reducible apply State.closeAudio_keeps
    | with_reducible apply State.dropLayers_keeps
    | with_reducible apply State.dropRegions_keeps
    | with_reducible apply State.endMigrations_keeps
    | with_reducible apply State.endPending_keeps
    | with_reducible apply State.endResize_keeps
    | with_reducible apply State.freeObject_keeps
    | with_reducible apply State.hapOwnerChange_keeps
    | with_reducible apply State.loseController_keeps
    | with_reducible apply State.loseRings_keeps
    | with_reducible apply State.loseSupplier_keeps
    | with_reducible apply State.loseUnits_keeps
    | with_reducible apply State.noteCode_keeps
    | with_reducible apply State.withdrawVotes_keeps
    | fail_if_no_progress with_reducible refine Holds.mk_of ?_ rfl rfl rfl rfl rfl rfl
    | with_reducible refine foldl_keeps ?_ ?_
    | split
    | (intro)

theorem State.resetInst_keeps {w : Watch} {s : State} {a1} (h : Holds w s) : Holds w (State.resetInst s a1) := by
  unfold State.resetInst
  try dsimp only
  repeat' first
    | with_reducible assumption
    | with_reducible apply State.clearInst_keeps
    | with_reducible apply State.postMgr_keeps
    | with_reducible apply State.setInst_keeps

theorem State.resetBound_keeps {w : Watch} {s : State} {a1} (h : Holds w s) : Holds w (State.resetBound s a1) := by
  unfold State.resetBound
  try dsimp only
  repeat' first
    | with_reducible assumption
    | with_reducible apply State.resetInst_keeps
    | with_reducible apply State.setInst_keeps
    | fail_if_no_progress with_reducible refine Holds.mk_of ?_ rfl rfl rfl rfl rfl rfl
    | split

theorem execFunctionLevelReset_keeps {w : Watch} {s : State} {a1 a2} (h : Holds w s) : NextHolds w (execFunctionLevelReset a1 a2 s) := by
  unfold execFunctionLevelReset
  try dsimp only
  repeat' first
    | with_reducible assumption
    | with_reducible apply nextHolds_next
    | with_reducible exact nextHolds_fault
    | with_reducible exact nextHolds_refused
    | with_reducible apply State.resetBound_keeps
    | fail_if_no_progress with_reducible refine Holds.mk_of ?_ rfl rfl rfl rfl rfl rfl
    | split

theorem effInstDestroy_keeps {w : Watch} {s : State} {a1 a2} (h : Holds w s) : Holds w (effInstDestroy a1 a2 s) := by
  unfold effInstDestroy
  try dsimp only
  repeat' first
    | with_reducible assumption
    | with_reducible apply State.clearInst_keeps
    | with_reducible apply State.commit_keeps
    | with_reducible apply State.setInst_keeps
    | with_reducible apply State.tellOwners_keeps

theorem execInstDestroy_keeps {w : Watch} {s : State} {a1} (h : Holds w s) : NextHolds w (execInstDestroy a1 s) := by
  unfold execInstDestroy
  try dsimp only
  repeat' first
    | with_reducible assumption
    | with_reducible apply nextHolds_next
    | with_reducible exact nextHolds_fault
    | with_reducible exact nextHolds_refused
    | with_reducible apply effInstDestroy_keeps
    | with_reducible apply runPkt_keeps
    | fail_if_no_progress with_reducible refine Holds.mk_of ?_ rfl rfl rfl rfl rfl rfl
    | split
    | (intro)

theorem execDestroyComplete_keeps {w : Watch} {s : State} {a1} (h : Holds w s) : NextHolds w (execDestroyComplete a1 s) := by
  unfold execDestroyComplete
  try dsimp only
  repeat' first
    | with_reducible assumption
    | with_reducible apply nextHolds_next
    | with_reducible exact nextHolds_fault
    | with_reducible exact nextHolds_refused
    | with_reducible apply State.allotCounters_keeps
    | with_reducible apply State.complete_keeps
    | with_reducible apply State.resetRings_keeps
    | with_reducible apply State.setInst_keeps
    | fail_if_no_progress with_reducible refine Holds.mk_of ?_ rfl rfl rfl rfl rfl rfl
    | split

theorem State.lowerC1_keeps {w : Watch} {s : State} {a1} (h : Holds w s) : Holds w (State.lowerC1 s a1) := by
  unfold State.lowerC1
  try dsimp only
  repeat' first
    | with_reducible assumption
    | with_reducible apply State.setLayer_keeps
    | with_reducible apply State.setObj_keeps
    | fail_if_no_progress with_reducible refine Holds.mk_of ?_ rfl rfl rfl rfl rfl rfl
    | with_reducible refine foldl_keeps ?_ ?_
    | split
    | (intro)

theorem State.setGrant_keeps {w : Watch} {s : State} {a1 a2 a3 a4} (h : Holds w s) : Holds w (State.setGrant s a1 a2 a3 a4) := by
  unfold State.setGrant
  try dsimp only
  repeat' first
    | with_reducible assumption
    | with_reducible apply State.allotCounters_keeps
    | with_reducible apply State.capChanged_keeps
    | with_reducible apply State.hapOwnerChange_keeps
    | with_reducible apply State.lowerC1_keeps
    | with_reducible apply State.setInst_keeps
    | with_reducible apply State.withdrawVotes_keeps
    | fail_if_no_progress with_reducible refine Holds.mk_of ?_ rfl rfl rfl rfl rfl rfl
    | with_reducible refine foldl_keeps ?_ ?_
    | split

theorem effInstResize_keeps {w : Watch} {s : State} {a1 a2} (h : Holds w s) : Holds w (effInstResize a1 a2 s) := by
  unfold effInstResize
  try dsimp only
  repeat' first
    | with_reducible assumption
    | with_reducible apply State.commit_keeps
    | with_reducible apply State.endResize_keeps
    | with_reducible apply State.post_keeps
    | with_reducible apply State.setGrant_keeps
    | with_reducible apply State.setInst_keeps
    | with_reducible apply State.tellOwners_keeps
    | with_reducible apply State.reclaim_keeps
    | fail_if_no_progress with_reducible refine Holds.mk_of ?_ rfl rfl rfl rfl rfl rfl
    | with_reducible refine foldl_keeps ?_ ?_
    | split
    | (intro)

theorem execInstResize_keeps {w : Watch} {s : State} {a1} (h : Holds w s) : NextHolds w (execInstResize a1 s) := by
  unfold execInstResize
  try dsimp only
  repeat' first
    | with_reducible assumption
    | with_reducible apply nextHolds_next
    | with_reducible exact nextHolds_fault
    | with_reducible exact nextHolds_refused
    | with_reducible apply effInstResize_keeps
    | with_reducible apply runPkt_keeps
    | fail_if_no_progress with_reducible refine Holds.mk_of ?_ rfl rfl rfl rfl rfl rfl
    | split
    | (intro)

theorem State.withdraw_keeps {w : Watch} {s : State} {a1} (h : Holds w s) : Holds w (State.withdraw s a1) := by
  unfold State.withdraw
  try dsimp only
  repeat' first
    | with_reducible assumption
    | with_reducible apply State.forget_keeps
    | with_reducible apply State.setInst_keeps
    | fail_if_no_progress with_reducible refine Holds.mk_of ?_ rfl rfl rfl rfl rfl rfl
    | with_reducible refine foldl_keeps ?_ ?_
    | split
    | (intro)

theorem effInstFreeze_keeps {w : Watch} {s : State} {a1 a2} (h : Holds w s) : Holds w (effInstFreeze a1 a2 s) := by
  unfold effInstFreeze
  try dsimp only
  repeat' first
    | with_reducible assumption
    | with_reducible apply State.breakSlips_keeps
    | with_reducible apply State.commit_keeps
    | with_reducible apply State.complete_keeps
    | with_reducible apply State.setInst_keeps
    | with_reducible apply State.withdraw_keeps
    | fail_if_no_progress with_reducible refine Holds.mk_of ?_ rfl rfl rfl rfl rfl rfl
    | split

theorem execInstFreeze_keeps {w : Watch} {s : State} {a1} (h : Holds w s) : NextHolds w (execInstFreeze a1 s) := by
  unfold execInstFreeze
  try dsimp only
  repeat' first
    | with_reducible assumption
    | with_reducible apply nextHolds_next
    | with_reducible exact nextHolds_fault
    | with_reducible exact nextHolds_refused
    | with_reducible apply effInstFreeze_keeps
    | with_reducible apply runPkt_keeps
    | fail_if_no_progress with_reducible refine Holds.mk_of ?_ rfl rfl rfl rfl rfl rfl
    | split
    | (intro)

theorem execFreezeComplete_keeps {w : Watch} {s : State} {a1} (h : Holds w s) : NextHolds w (execFreezeComplete a1 s) := by
  unfold execFreezeComplete
  try dsimp only
  repeat' first
    | with_reducible assumption
    | with_reducible apply nextHolds_next
    | with_reducible exact nextHolds_fault
    | with_reducible exact nextHolds_refused
    | with_reducible apply State.complete_keeps
    | with_reducible apply State.resetInst_keeps
    | with_reducible apply State.setInst_keeps
    | fail_if_no_progress with_reducible refine Holds.mk_of ?_ rfl rfl rfl rfl rfl rfl
    | split

theorem effInstThaw_keeps {w : Watch} {s : State} {a1 a2} (h : Holds w s) : Holds w (effInstThaw a1 a2 s) := by
  unfold effInstThaw
  try dsimp only
  repeat' first
    | with_reducible assumption
    | with_reducible apply State.complete_keeps
    | with_reducible apply State.flushHeld_keeps
    | with_reducible apply State.fresh_keeps
    | with_reducible refine State.fresh_keeps' (by assumption) ?_
    | with_reducible apply State.post_keeps
    | with_reducible apply State.setInst_keeps
    | fail_if_no_progress with_reducible refine Holds.mk_of ?_ rfl rfl rfl rfl rfl rfl
    | split

theorem execInstThaw_keeps {w : Watch} {s : State} {a1} (h : Holds w s) : NextHolds w (execInstThaw a1 s) := by
  unfold execInstThaw
  try dsimp only
  repeat' first
    | with_reducible assumption
    | with_reducible apply nextHolds_next
    | with_reducible exact nextHolds_fault
    | with_reducible exact nextHolds_refused
    | with_reducible apply effInstThaw_keeps
    | with_reducible apply runPkt_keeps
    | fail_if_no_progress with_reducible refine Holds.mk_of ?_ rfl rfl rfl rfl rfl rfl
    | split
    | (intro)

theorem effInstSave_keeps {w : Watch} {s : State} {a1 a2} (h : Holds w s) : Holds w (effInstSave a1 a2 s) := by
  unfold effInstSave
  try dsimp only
  repeat' first
    | with_reducible assumption
    | with_reducible apply State.complete_keeps
    | with_reducible apply State.emit_keeps
    | with_reducible apply State.fault1_keeps
    | with_reducible apply State.fresh_keeps
    | with_reducible refine State.fresh_keeps' (by assumption) ?_
    | with_reducible apply State.noteRead_keeps
    | with_reducible apply State.postUe_keeps
    | fail_if_no_progress with_reducible refine Holds.mk_of ?_ rfl rfl rfl rfl rfl rfl
    | with_reducible refine foldl_keeps ?_ ?_
    | split
    | (intro)

theorem execInstSave_keeps {w : Watch} {s : State} {a1} (h : Holds w s) : NextHolds w (execInstSave a1 s) := by
  unfold execInstSave
  try dsimp only
  repeat' first
    | with_reducible assumption
    | with_reducible apply nextHolds_next
    | with_reducible exact nextHolds_fault
    | with_reducible exact nextHolds_refused
    | with_reducible apply effInstSave_keeps
    | with_reducible apply runPkt_keeps
    | fail_if_no_progress with_reducible refine Holds.mk_of ?_ rfl rfl rfl rfl rfl rfl
    | split
    | (intro)

theorem State.endRestore_keeps {w : Watch} {s : State} (h : Holds w s) : Holds w (State.endRestore s) := by
  unfold State.endRestore
  try dsimp only
  repeat' first
    | with_reducible assumption
    | with_reducible apply State.complete_keeps
    | fail_if_no_progress with_reducible refine Holds.mk_of ?_ rfl rfl rfl rfl rfl rfl
    | split

theorem effInstRestore_keeps {w : Watch} {s : State} {a1 a2 a3} (h : Holds w s) : Holds w (effInstRestore a1 a2 a3 s) := by
  unfold effInstRestore
  try dsimp only
  repeat' first
    | with_reducible assumption
    | with_reducible apply State.commit_keeps
    | with_reducible apply State.endRestore_keeps
    | with_reducible refine SomeHolds.of (State.loadObjects_keeps ?_) (by assumption)
    | with_reducible apply State.loadObjects_keeps
    | with_reducible apply State.loadRest_keeps
    | with_reducible apply State.loadTimings_keeps
    | with_reducible refine State.loadTimings_keeps' (by assumption) ?_
    | fail_if_no_progress with_reducible refine Holds.mk_of ?_ rfl rfl rfl rfl rfl rfl
    | split

theorem execInstRestore_keeps {w : Watch} {s : State} {a1 a2} (h : Holds w s) : NextHolds w (execInstRestore a1 a2 s) := by
  unfold execInstRestore
  try dsimp only
  repeat' first
    | with_reducible assumption
    | with_reducible apply nextHolds_next
    | with_reducible exact nextHolds_fault
    | with_reducible exact nextHolds_refused
    | with_reducible apply State.endRestore_keeps
    | with_reducible apply effInstRestore_keeps
    | with_reducible apply runPkt_keeps
    | fail_if_no_progress with_reducible refine Holds.mk_of ?_ rfl rfl rfl rfl rfl rfl
    | split
    | (intro)

theorem State.ringMbox_keeps {w : Watch} {s : State} {a1 a2} (h : Holds w s) : Holds w (State.ringMbox s a1 a2) := by
  unfold State.ringMbox
  try dsimp only
  repeat' first
    | with_reducible assumption
    | with_reducible apply State.badWrite_keeps
    | with_reducible apply State.emit_keeps
    | with_reducible apply State.gated_keeps
    | with_reducible apply State.setBit_keeps
    | with_reducible apply State.setF_keeps
    | fail_if_no_progress with_reducible refine Holds.mk_of ?_ rfl rfl rfl rfl rfl rfl
    | split
    | (intro)

theorem execDoorbellMbox_keeps {w : Watch} {s : State} {a1 a2} (h : Holds w s) : NextHolds w (execDoorbellMbox a1 a2 s) := by
  unfold execDoorbellMbox
  try dsimp only
  repeat' first
    | with_reducible assumption
    | with_reducible apply nextHolds_next
    | with_reducible exact nextHolds_fault
    | with_reducible exact nextHolds_refused
    | with_reducible apply State.ringMbox_keeps

theorem State.clearFull_keeps {w : Watch} {s : State} {a1 a2} (h : Holds w s) : Holds w (State.clearFull s a1 a2) := by
  unfold State.clearFull
  try dsimp only
  repeat' first
    | with_reducible assumption
    | with_reducible apply State.post_keeps
    | with_reducible apply State.postMgr_keeps
    | with_reducible apply State.setBit_keeps
    | fail_if_no_progress with_reducible refine Holds.mk_of ?_ rfl rfl rfl rfl rfl rfl
    | split

theorem execMboxFullClear_keeps {w : Watch} {s : State} {a1 a2} (h : Holds w s) : NextHolds w (execMboxFullClear a1 a2 s) := by
  unfold execMboxFullClear
  try dsimp only
  repeat' first
    | with_reducible assumption
    | with_reducible apply nextHolds_next
    | with_reducible exact nextHolds_fault
    | with_reducible exact nextHolds_refused
    | with_reducible apply State.badWrite_keeps
    | with_reducible apply State.clearFull_keeps
    | with_reducible apply State.gated_keeps
    | fail_if_no_progress with_reducible refine Holds.mk_of ?_ rfl rfl rfl rfl rfl rfl
    | split
    | (intro)

theorem State.settleLoss_keeps {w : Watch} {s : State} (h : Holds w s) : Holds w (State.settleLoss s) := by
  unfold State.settleLoss
  try dsimp only
  repeat' first
    | with_reducible assumption
    | with_reducible apply State.post_keeps
    | with_reducible apply State.setF_keeps
    | fail_if_no_progress with_reducible refine Holds.mk_of ?_ rfl rfl rfl rfl rfl rfl
    | split

theorem State.restartBeat_keeps {w : Watch} {s : State} (h : Holds w s) : Holds w (State.restartBeat s) := by
  unfold State.restartBeat
  try dsimp only
  repeat' first
    | with_reducible assumption
    | fail_if_no_progress with_reducible refine Holds.mk_of ?_ rfl rfl rfl rfl rfl rfl

theorem State.writeMgrCtrl_keeps {w : Watch} {s : State} {a1 a2} (h : Holds w s) : Holds w (State.writeMgrCtrl s a1 a2) := by
  unfold State.writeMgrCtrl
  try dsimp only
  repeat' first
    | with_reducible assumption
    | with_reducible apply State.badWrite_keeps
    | with_reducible apply State.regWrite_keeps
    | with_reducible apply State.restartBeat_keeps
    | with_reducible apply State.setF_keeps
    | with_reducible apply State.settleLoss_keeps
    | fail_if_no_progress with_reducible refine Holds.mk_of ?_ rfl rfl rfl rfl rfl rfl
    | split
    | (intro)

theorem execMgrBeat_keeps {w : Watch} {s : State} {a1} (h : Holds w s) : NextHolds w (execMgrBeat a1 s) := by
  unfold execMgrBeat
  try dsimp only
  repeat' first
    | with_reducible assumption
    | with_reducible apply nextHolds_next
    | with_reducible exact nextHolds_fault
    | with_reducible exact nextHolds_refused
    | with_reducible apply State.writeMgrCtrl_keeps

theorem execMgrHandover_keeps {w : Watch} {s : State} {a1} (h : Holds w s) : NextHolds w (execMgrHandover a1 s) := by
  unfold execMgrHandover
  try dsimp only
  repeat' first
    | with_reducible assumption
    | with_reducible apply nextHolds_next
    | with_reducible exact nextHolds_fault
    | with_reducible exact nextHolds_refused
    | with_reducible apply State.writeMgrCtrl_keeps

theorem execMgrHbPeriodWrite_keeps {w : Watch} {s : State} {a1 a2} (h : Holds w s) : NextHolds w (execMgrHbPeriodWrite a1 a2 s) := by
  unfold execMgrHbPeriodWrite
  try dsimp only
  repeat' first
    | with_reducible assumption
    | with_reducible apply nextHolds_next
    | with_reducible exact nextHolds_fault
    | with_reducible exact nextHolds_refused
    | with_reducible apply State.writeMgrCtrl_keeps

theorem execManagerLoss_keeps {w : Watch} {s : State} {a1} (h : Holds w s) : NextHolds w (execManagerLoss a1 s) := by
  unfold execManagerLoss
  try dsimp only
  repeat' first
    | with_reducible assumption
    | with_reducible apply nextHolds_next
    | with_reducible exact nextHolds_fault
    | with_reducible exact nextHolds_refused
    | with_reducible apply State.settleLoss_keeps
    | fail_if_no_progress with_reducible refine Holds.mk_of ?_ rfl rfl rfl rfl rfl rfl
    | split

theorem execManagerLossCleared_keeps {w : Watch} {s : State} (h : Holds w s) : NextHolds w (execManagerLossCleared s) := by
  unfold execManagerLossCleared
  try dsimp only
  repeat' first
    | with_reducible assumption
    | with_reducible apply nextHolds_next
    | with_reducible exact nextHolds_fault
    | with_reducible exact nextHolds_refused
    | with_reducible apply State.settleLoss_keeps
    | fail_if_no_progress with_reducible refine Holds.mk_of ?_ rfl rfl rfl rfl rfl rfl

theorem State.showStandby_keeps {w : Watch} {s : State} (h : Holds w s) : Holds w (State.showStandby s) := by
  unfold State.showStandby
  try dsimp only
  repeat' first
    | with_reducible assumption
    | with_reducible apply State.setF_keeps

theorem State.disableRings_keeps {w : Watch} {s : State} {a1} (h : Holds w s) : Holds w (State.disableRings s a1) := by
  unfold State.disableRings
  try dsimp only
  repeat' first
    | with_reducible assumption
    | with_reducible apply State.setF_keeps
    | fail_if_no_progress with_reducible refine Holds.mk_of ?_ rfl rfl rfl rfl rfl rfl
    | with_reducible refine foldl_keeps ?_ ?_
    | split
    | (intro)

theorem effInstTakeover_keeps {w : Watch} {s : State} {a1 a2} (h : Holds w s) : Holds w (effInstTakeover a1 a2 s) := by
  unfold effInstTakeover
  try dsimp only
  repeat' first
    | with_reducible assumption
    | with_reducible apply State.breakSlips_keeps
    | with_reducible apply State.capChangedFn_keeps
    | with_reducible apply State.commit_keeps
    | with_reducible apply State.disableRings_keeps
    | with_reducible apply State.endAll_keeps
    | with_reducible apply State.post_keeps
    | with_reducible apply State.setF_keeps
    | with_reducible apply State.setReg_keeps
    | with_reducible apply State.settleLoss_keeps
    | with_reducible apply State.showStandby_keeps
    | fail_if_no_progress with_reducible refine Holds.mk_of ?_ rfl rfl rfl rfl rfl rfl
    | with_reducible refine foldl_keeps ?_ ?_
    | split
    | (intro)

theorem execInstTakeover_keeps {w : Watch} {s : State} {a1} (h : Holds w s) : NextHolds w (execInstTakeover a1 s) := by
  unfold execInstTakeover
  try dsimp only
  repeat' first
    | with_reducible assumption
    | with_reducible apply nextHolds_next
    | with_reducible exact nextHolds_fault
    | with_reducible exact nextHolds_refused
    | with_reducible apply effInstTakeover_keeps
    | with_reducible apply runPkt_keeps
    | fail_if_no_progress with_reducible refine Holds.mk_of ?_ rfl rfl rfl rfl rfl rfl
    | split
    | (intro)

theorem execTakeoverComplete_keeps {w : Watch} {s : State} (h : Holds w s) : NextHolds w (execTakeoverComplete s) := by
  unfold execTakeoverComplete
  try dsimp only
  repeat' first
    | with_reducible assumption
    | with_reducible apply nextHolds_next
    | with_reducible exact nextHolds_fault
    | with_reducible exact nextHolds_refused
    | with_reducible apply State.complete_keeps
    | fail_if_no_progress with_reducible refine Holds.mk_of ?_ rfl rfl rfl rfl rfl rfl
    | split

end Sys2Proof.Machine
end

