-- ==== Sys2Proof/Laws/KeepsErrors.lean ====
section
/-! SUPPORT. What Machine/Errors.lean does keeps what is watched. -/

namespace Sys2Proof.Machine

theorem State.endCommand_keeps {w : Watch} {s : State} {a1 a2} (h : Holds w s) : Holds w (State.endCommand s a1 a2) := by
  unfold State.endCommand
  try dsimp only
  repeat' first
    | with_reducible assumption
    | with_reducible apply State.endPkt_keeps
    | with_reducible apply State.failWork_keeps
    | fail_if_no_progress with_reducible refine Holds.mk_of ?_ rfl rfl rfl rfl rfl rfl
    | split

theorem State.raiseT3_keeps {w : Watch} {s : State} {a1 a2 a3} (h : Holds w s) : Holds w (State.raiseT3 s a1 a2 a3) := by
  unfold State.raiseT3
  try dsimp only
  repeat' first
    | with_reducible assumption
    | with_reducible apply State.count_keeps
    | with_reducible apply State.ledgAppend_keeps
    | with_reducible apply State.setRec_keeps
    | with_reducible apply State.tellError_keeps
    | fail_if_no_progress with_reducible refine Holds.mk_of ?_ rfl rfl rfl rfl rfl rfl
    | split

theorem State.spoilBuffer_keeps {w : Watch} {s : State} {a1} (h : Holds w s) : Holds w (State.spoilBuffer s a1) := by
  unfold State.spoilBuffer
  try dsimp only
  repeat' first
    | with_reducible assumption
    | with_reducible apply State.emit_keeps
    | fail_if_no_progress with_reducible refine Holds.mk_of ?_ rfl rfl rfl rfl rfl rfl
    | split

theorem State.unitReset_keeps {w : Watch} {s : State} {a1 a2 a3 a4 a5} (h : Holds w s) : Holds w (State.unitReset s a1 a2 a3 a4 a5) := by
  unfold State.unitReset
  try dsimp only
  repeat' first
    | with_reducible assumption
    | with_reducible apply State.cancelMoves_keeps
    | with_reducible apply State.downLink_keeps
    | with_reducible apply State.endCommand_keeps
    | with_reducible apply State.restartOutput_keeps
    | with_reducible apply State.setPipe_keeps
    | with_reducible apply State.spoilBuffer_keeps
    | fail_if_no_progress with_reducible refine Holds.mk_of ?_ rfl rfl rfl rfl rfl rfl
    | split

theorem State.fault2_keeps {w : Watch} {s : State} {a1 a2 a3 a4 a5 a6 a7 a8} (h : Holds w s) : Holds w (State.fault2 s a1 a2 a3 a4 a5 a6 a7 a8) := by
  unfold State.fault2
  try dsimp only
  repeat' first
    | with_reducible assumption
    | with_reducible apply State.record_keeps
    | with_reducible apply State.unitReset_keeps

theorem execErrorRecord_keeps {w : Watch} {s : State} {a1 a2 a3 a4 a5 a6 a7 a8} (h : Holds w s) : NextHolds w (execErrorRecord a1 a2 a3 a4 a5 a6 a7 a8 s) := by
  unfold execErrorRecord
  try dsimp only
  repeat' first
    | with_reducible assumption
    | with_reducible apply nextHolds_next
    | with_reducible exact nextHolds_fault
    | with_reducible exact nextHolds_refused
    | with_reducible apply State.endCommand_keeps
    | with_reducible apply State.fault1_keeps
    | with_reducible apply State.fault2_keeps
    | with_reducible apply State.record_keeps
    | fail_if_no_progress with_reducible refine Holds.mk_of ?_ rfl rfl rfl rfl rfl rfl
    | split

theorem State.layerCut_keeps {w : Watch} {s : State} {a1 a2} (h : Holds w s) : Holds w (State.layerCut s a1 a2) := by
  unfold State.layerCut
  try dsimp only
  repeat' first
    | with_reducible assumption
    | with_reducible apply State.countLate_keeps
    | with_reducible apply State.hideLayer_keeps
    | with_reducible apply State.markLate_keeps
    | with_reducible apply State.showNow_keeps
    | fail_if_no_progress with_reducible refine Holds.mk_of ?_ rfl rfl rfl rfl rfl rfl
    | with_reducible refine foldl_keeps ?_ ?_
    | split
    | (intro)

theorem execEscCutoff_keeps {w : Watch} {s : State} {a1 a2 a3 a4 a5 a6} (h : Holds w s) : NextHolds w (execEscCutoff a1 a2 a3 a4 a5 a6 s) := by
  unfold execEscCutoff
  try dsimp only
  repeat' first
    | with_reducible assumption
    | with_reducible apply nextHolds_next
    | with_reducible exact nextHolds_fault
    | with_reducible exact nextHolds_refused
    | with_reducible apply State.count_keeps
    | with_reducible apply State.fault2_keeps
    | with_reducible apply State.layerCut_keeps
    | with_reducible apply State.postMgr_keeps
    | with_reducible apply State.setBit_keeps
    | fail_if_no_progress with_reducible refine Holds.mk_of ?_ rfl rfl rfl rfl rfl rfl
    | split

theorem execPllLockLoss_keeps {w : Watch} {s : State} {a1 a2} (h : Holds w s) : NextHolds w (execPllLockLoss a1 a2 s) := by
  unfold execPllLockLoss
  try dsimp only
  repeat' first
    | with_reducible assumption
    | with_reducible apply nextHolds_next
    | with_reducible exact nextHolds_fault
    | with_reducible exact nextHolds_refused
    | with_reducible apply State.raiseT3_keeps
    | with_reducible apply State.record_keeps
    | with_reducible apply State.setBit_keeps
    | fail_if_no_progress with_reducible refine Holds.mk_of ?_ rfl rfl rfl rfl rfl rfl
    | split

theorem execRefclkStop_keeps {w : Watch} {s : State} (h : Holds w s) : NextHolds w (execRefclkStop s) := by
  unfold execRefclkStop
  try dsimp only
  repeat' first
    | with_reducible assumption
    | with_reducible apply nextHolds_next
    | with_reducible exact nextHolds_fault
    | with_reducible exact nextHolds_refused
    | with_reducible apply State.postMgr_keeps
    | with_reducible apply State.record_keeps
    | with_reducible apply State.setF_keeps
    | fail_if_no_progress with_reducible refine Holds.mk_of ?_ rfl rfl rfl rfl rfl rfl
    | split

theorem execRefclkHoldoverEnd_keeps {w : Watch} {s : State} (h : Holds w s) : NextHolds w (execRefclkHoldoverEnd s) := by
  unfold execRefclkHoldoverEnd
  try dsimp only
  repeat' first
    | with_reducible assumption
    | with_reducible apply nextHolds_next
    | with_reducible exact nextHolds_fault
    | with_reducible exact nextHolds_refused
    | with_reducible apply State.dropOutputs_keeps
    | with_reducible apply State.setF_keeps
    | with_reducible apply State.setVoices_keeps
    | fail_if_no_progress with_reducible refine Holds.mk_of ?_ rfl rfl rfl rfl rfl rfl
    | split

theorem execD2dLinkRetrain_keeps {w : Watch} {s : State} {a1 a2 a3} (h : Holds w s) : NextHolds w (execD2dLinkRetrain a1 a2 a3 s) := by
  unfold execD2dLinkRetrain
  try dsimp only
  repeat' first
    | with_reducible assumption
    | with_reducible apply nextHolds_next
    | with_reducible exact nextHolds_fault
    | with_reducible exact nextHolds_refused
    | with_reducible apply State.count_keeps
    | with_reducible apply State.raiseT3_keeps
    | with_reducible apply State.record_keeps
    | fail_if_no_progress with_reducible refine Holds.mk_of ?_ rfl rfl rfl rfl rfl rfl
    | split

theorem execSupplyMonitorTrip_keeps {w : Watch} {s : State} {a1 a2 a3} (h : Holds w s) : NextHolds w (execSupplyMonitorTrip a1 a2 a3 s) := by
  unfold execSupplyMonitorTrip
  try dsimp only
  repeat' first
    | with_reducible assumption
    | with_reducible apply nextHolds_next
    | with_reducible exact nextHolds_fault
    | with_reducible exact nextHolds_refused
    | with_reducible apply State.record_keeps
    | fail_if_no_progress with_reducible refine Holds.mk_of ?_ rfl rfl rfl rfl rfl rfl
    | split

theorem execThermalTrip_keeps {w : Watch} {s : State} {a1} (h : Holds w s) : NextHolds w (execThermalTrip a1 s) := by
  unfold execThermalTrip
  try dsimp only
  repeat' first
    | with_reducible assumption
    | with_reducible apply nextHolds_next
    | with_reducible exact nextHolds_fault
    | with_reducible exact nextHolds_refused
    | with_reducible apply State.noteTemps_keeps
    | with_reducible apply State.record_keeps
    | with_reducible apply State.setReg_keeps
    | fail_if_no_progress with_reducible refine Holds.mk_of ?_ rfl rfl rfl rfl rfl rfl
    | with_reducible refine foldl_keeps ?_ ?_
    | split
    | (intro)

theorem execStrgWatchdogExpiry_keeps {w : Watch} {s : State} (h : Holds w s) : NextHolds w (execStrgWatchdogExpiry s) := by
  unfold execStrgWatchdogExpiry
  try dsimp only
  repeat' first
    | with_reducible assumption
    | with_reducible apply nextHolds_next
    | with_reducible exact nextHolds_fault
    | with_reducible exact nextHolds_refused
    | with_reducible apply State.record_keeps
    | with_reducible apply State.setF_keeps
    | fail_if_no_progress with_reducible refine Holds.mk_of ?_ rfl rfl rfl rfl rfl rfl
    | split

theorem State.setPolicy_keeps {w : Watch} {s : State} {a1} (h : Holds w s) : Holds w (State.setPolicy s a1) := by
  unfold State.setPolicy
  try dsimp only
  repeat' first
    | with_reducible assumption
    | with_reducible apply State.setF_keeps
    | fail_if_no_progress with_reducible refine Holds.mk_of ?_ rfl rfl rfl rfl rfl rfl
    | split

theorem State.restartClerk_keeps {w : Watch} {s : State} {a1 a2 a3} (h : Holds w s) : Holds w (State.restartClerk s a1 a2 a3) := by
  unfold State.restartClerk
  try dsimp only
  repeat' first
    | with_reducible assumption
    | with_reducible apply State.endAll_keeps
    | with_reducible apply State.record_keeps
    | with_reducible apply State.setF_keeps
    | with_reducible apply State.setPolicy_keeps
    | fail_if_no_progress with_reducible refine Holds.mk_of ?_ rfl rfl rfl rfl rfl rfl
    | split

theorem State.coreException_keeps {w : Watch} {s : State} {a1 a2 a3} (h : Holds w s) : Holds w (State.coreException s a1 a2 a3) := by
  unfold State.coreException
  try dsimp only
  repeat' first
    | with_reducible assumption
    | with_reducible apply State.endAll_keeps
    | with_reducible apply State.record_keeps
    | with_reducible apply State.restartClerk_keeps
    | fail_if_no_progress with_reducible refine Holds.mk_of ?_ rfl rfl rfl rfl rfl rfl
    | split

theorem execClerkCoreException_keeps {w : Watch} {s : State} {a1 a2 a3} (h : Holds w s) : NextHolds w (execClerkCoreException a1 a2 a3 s) := by
  unfold execClerkCoreException
  try dsimp only
  repeat' first
    | with_reducible assumption
    | with_reducible apply nextHolds_next
    | with_reducible exact nextHolds_fault
    | with_reducible exact nextHolds_refused
    | with_reducible apply State.coreException_keeps
    | fail_if_no_progress with_reducible refine Holds.mk_of ?_ rfl rfl rfl rfl rfl rfl
    | split

theorem execClerkRestart_keeps {w : Watch} {s : State} {a1 a2 a3} (h : Holds w s) : NextHolds w (execClerkRestart a1 a2 a3 s) := by
  unfold execClerkRestart
  try dsimp only
  repeat' first
    | with_reducible assumption
    | with_reducible apply nextHolds_next
    | with_reducible exact nextHolds_fault
    | with_reducible exact nextHolds_refused
    | with_reducible apply State.coreException_keeps
    | with_reducible apply State.restartClerk_keeps
    | fail_if_no_progress with_reducible refine Holds.mk_of ?_ rfl rfl rfl rfl rfl rfl
    | split

theorem execClerkRestartComplete_keeps {w : Watch} {s : State} {a1} (h : Holds w s) : NextHolds w (execClerkRestartComplete a1 s) := by
  unfold execClerkRestartComplete
  try dsimp only
  repeat' first
    | with_reducible assumption
    | with_reducible apply nextHolds_next
    | with_reducible exact nextHolds_fault
    | with_reducible exact nextHolds_refused
    | with_reducible apply State.flushHeld_keeps
    | with_reducible apply State.setPolicy_keeps
    | fail_if_no_progress with_reducible refine Holds.mk_of ?_ rfl rfl rfl rfl rfl rfl
    | with_reducible refine foldl_keeps ?_ ?_
    | split

theorem State.ackRecords_keeps {w : Watch} {s : State} {a1} (h : Holds w s) : Holds w (State.ackRecords s a1) := by
  unfold State.ackRecords
  try dsimp only
  repeat' first
    | with_reducible assumption
    | fail_if_no_progress with_reducible refine Holds.mk_of ?_ rfl rfl rfl rfl rfl rfl

theorem execErrorAck_keeps {w : Watch} {s : State} {a1 a2} (h : Holds w s) : NextHolds w (execErrorAck a1 a2 s) := by
  unfold execErrorAck
  try dsimp only
  repeat' first
    | with_reducible assumption
    | with_reducible apply nextHolds_next
    | with_reducible exact nextHolds_fault
    | with_reducible exact nextHolds_refused
    | with_reducible apply State.ackRecords_keeps
    | with_reducible apply State.regWrite_keeps
    | fail_if_no_progress with_reducible refine Holds.mk_of ?_ rfl rfl rfl rfl rfl rfl
    | split
    | (intro)

theorem execErrorAckAll_keeps {w : Watch} {s : State} {a1} (h : Holds w s) : NextHolds w (execErrorAckAll a1 s) := by
  unfold execErrorAckAll
  try dsimp only
  repeat' first
    | with_reducible assumption
    | with_reducible apply nextHolds_next
    | with_reducible exact nextHolds_fault
    | with_reducible exact nextHolds_refused
    | with_reducible apply State.ackRecords_keeps
    | with_reducible apply State.regWrite_keeps
    | fail_if_no_progress with_reducible refine Holds.mk_of ?_ rfl rfl rfl rfl rfl rfl
    | split
    | (intro)

theorem State.setSafe_keeps {w : Watch} {s : State} (h : Holds w s) (hs : w.safe true) : Holds w (State.setSafe s) := by
  unfold State.setSafe
  try dsimp only
  repeat' first
    | with_reducible assumption
    | exact ⟨⟨h.inv.1, h.inv.2⟩, h.queue, h.time, hs, h.bind⟩

theorem State.startSafeChime_keeps {w : Watch} {s : State} (h : Holds w s) : Holds w (State.startSafeChime s) := by
  unfold State.startSafeChime
  try dsimp only
  repeat' first
    | with_reducible assumption
    | with_reducible apply State.chimeStart_keeps
    | fail_if_no_progress with_reducible refine Holds.mk_of ?_ rfl rfl rfl rfl rfl rfl
    | split

theorem State.enterSafe_keeps {w : Watch} {s : State} {a1} (h : Holds w s) (hs : w.safe true) : Holds w (State.enterSafe s a1) := by
  unfold State.enterSafe
  try dsimp only
  repeat' first
    | with_reducible assumption
    | with_reducible apply State.brakePassively_keeps
    | with_reducible apply State.downAllLinks_keeps
    | with_reducible apply State.endPending_keeps
    | with_reducible apply State.setAlert_keeps
    | with_reducible apply State.setF_keeps
    | with_reducible apply State.setPolicy_keeps
    | with_reducible apply State.setSafe_keeps
    | with_reducible apply State.setTctl_keeps
    | with_reducible apply State.startSafeChime_keeps
    | fail_if_no_progress with_reducible refine Holds.mk_of ?_ rfl rfl rfl rfl rfl rfl
    | with_reducible refine foldl_keeps ?_ ?_
    | split
    | (intro)

theorem State.takeTrigger_keeps {w : Watch} {s : State} (h : Holds w s) : Holds w (State.takeTrigger s) := by
  unfold State.takeTrigger
  try dsimp only
  repeat' first
    | with_reducible assumption
    | fail_if_no_progress with_reducible refine Holds.mk_of ?_ rfl rfl rfl rfl rfl rfl

theorem execSafeStateEntry_keeps {w : Watch} {s : State} (h : Holds w s) (hs : w.safe true) : NextHolds w (execSafeStateEntry s) := by
  unfold execSafeStateEntry
  try dsimp only
  repeat' first
    | with_reducible assumption
    | with_reducible apply nextHolds_next
    | with_reducible exact nextHolds_fault
    | with_reducible exact nextHolds_refused
    | with_reducible apply State.enterSafe_keeps
    | with_reducible apply State.takeTrigger_keeps
    | fail_if_no_progress with_reducible refine Holds.mk_of ?_ rfl rfl rfl rfl rfl rfl
    | split

theorem State.recoveryReset_keeps {w : Watch} {s : State} (h : Holds w s) (hl : w.Loses) : Holds w (State.recoveryReset s) := by
  unfold State.recoveryReset
  try dsimp only
  repeat' first
    | with_reducible assumption
    | with_reducible apply State.atState_keeps
    | with_reducible apply State.beginWake_keeps
    | with_reducible apply State.loseMain_keeps
    | with_reducible apply State.setF_keeps

theorem State.writeSafeCtrl_keeps {w : Watch} {s : State} {a1 a2} (h : Holds w s) (hl : w.Loses) : Holds w (State.writeSafeCtrl s a1 a2) := by
  unfold State.writeSafeCtrl
  try dsimp only
  repeat' first
    | with_reducible assumption
    | with_reducible apply State.badWrite_keeps
    | with_reducible apply State.gated_keeps
    | with_reducible apply State.recoveryReset_keeps
    | fail_if_no_progress with_reducible refine Holds.mk_of ?_ rfl rfl rfl rfl rfl rfl
    | split
    | (intro)

theorem execRecoveryReset_keeps {w : Watch} {s : State} {a1 a2} (h : Holds w s) (hl : w.Loses) : NextHolds w (execRecoveryReset a1 a2 s) := by
  unfold execRecoveryReset
  try dsimp only
  repeat' first
    | with_reducible assumption
    | with_reducible apply nextHolds_next
    | with_reducible exact nextHolds_fault
    | with_reducible exact nextHolds_refused
    | with_reducible apply State.writeSafeCtrl_keeps

end Sys2Proof.Machine
end

