-- ==== Sys2Proof/Laws/KeepsBoot.lean ====
section
/-! SUPPORT. What Machine/Boot.lean does keeps what is watched. -/

namespace Sys2Proof.Machine

theorem State.coldLoss_keeps {w : Watch} {s : State} {a1} (h : Holds w s) (hc : w.Cold) : Holds w (State.coldLoss s a1) := by
  unfold State.coldLoss
  try dsimp only
  repeat' first
    | with_reducible assumption
    | with_reducible apply State.setReg_keeps
    | exact ⟨⟨rfl, rfl⟩, h.queue, hc.time, hc.safe, hc.bind⟩

theorem execPowerOnReset_keeps {w : Watch} {s : State} {a1} (h : Holds w s) (hc : w.Cold) : NextHolds w (execPowerOnReset a1 s) := by
  unfold execPowerOnReset
  try dsimp only
  repeat' first
    | with_reducible assumption
    | with_reducible apply nextHolds_next
    | with_reducible exact nextHolds_fault
    | with_reducible exact nextHolds_refused
    | with_reducible apply State.beginWake_keeps
    | with_reducible apply State.coldLoss_keeps
    | fail_if_no_progress with_reducible refine Holds.mk_of ?_ rfl rfl rfl rfl rfl rfl
    | split

theorem execVsaveExhausted_keeps {w : Watch} {s : State} (h : Holds w s) (hc : w.Cold) : NextHolds w (execVsaveExhausted s) := by
  unfold execVsaveExhausted
  try dsimp only
  repeat' first
    | with_reducible assumption
    | with_reducible apply nextHolds_next
    | with_reducible exact nextHolds_fault
    | with_reducible exact nextHolds_refused
    | with_reducible apply State.coldLoss_keeps
    | fail_if_no_progress with_reducible refine Holds.mk_of ?_ rfl rfl rfl rfl rfl rfl
    | split

theorem State.startTelltales_keeps {w : Watch} {s : State} (h : Holds w s) : Holds w (State.startTelltales s) := by
  unfold State.startTelltales
  try dsimp only
  repeat' first
    | with_reducible assumption
    | with_reducible apply State.setReg_keeps
    | fail_if_no_progress with_reducible refine Holds.mk_of ?_ rfl rfl rfl rfl rfl rfl
    | with_reducible refine foldl_keeps ?_ ?_
    | split
    | (intro)

theorem State.startSafeValues_keeps {w : Watch} {s : State} (h : Holds w s) : Holds w (State.startSafeValues s) := by
  unfold State.startSafeValues
  try dsimp only
  repeat' first
    | with_reducible assumption
    | fail_if_no_progress with_reducible refine Holds.mk_of ?_ rfl rfl rfl rfl rfl rfl
    | with_reducible refine foldl_keeps ?_ ?_
    | split
    | (intro)

theorem State.startSinks_keeps {w : Watch} {s : State} (h : Holds w s) : Holds w (State.startSinks s) := by
  unfold State.startSinks
  try dsimp only
  repeat' first
    | with_reducible assumption
    | with_reducible apply State.access_keeps
    | fail_if_no_progress with_reducible refine Holds.mk_of ?_ rfl rfl rfl rfl rfl rfl
    | with_reducible refine foldl_keeps ?_ ?_
    | split
    | (intro)

theorem State.setBinding_keeps {w : Watch} {s : State} {a1} (h : Holds w s) (hb : ∀ b, w.bind b) : Holds w (State.setBinding s a1) := by
  unfold State.setBinding
  try dsimp only
  repeat' first
    | with_reducible assumption
    | exact ⟨⟨h.inv.1, h.inv.2⟩, h.queue, h.time, h.safe, hb _⟩

theorem State.applyBinding_keeps {w : Watch} {s : State} {a1} (h : Holds w s) (hb : ∀ b, w.bind b) : Holds w (State.applyBinding s a1) := by
  unfold State.applyBinding
  try dsimp only
  repeat' first
    | with_reducible assumption
    | with_reducible apply State.setBinding_keeps
    | with_reducible apply State.setF_keeps
    | with_reducible apply State.setOutp_keeps
    | with_reducible apply State.setReg_keeps
    | with_reducible apply State.startSafeValues_keeps
    | with_reducible apply State.startSinks_keeps
    | with_reducible apply State.startTelltales_keeps
    | with_reducible apply State.strgVote_keeps
    | with_reducible apply State.writeExpected_keeps
    | fail_if_no_progress with_reducible refine Holds.mk_of ?_ rfl rfl rfl rfl rfl rfl
    | with_reducible refine foldl_keeps ?_ ?_
    | split
    | (intro)

theorem State.bootRecords_keeps {w : Watch} {s : State} {a1 a2} (h : Holds w s) : Holds w (State.bootRecords s a1 a2) := by
  unfold State.bootRecords
  try dsimp only
  repeat' first
    | with_reducible assumption
    | with_reducible apply State.ledgAppend_keeps
    | with_reducible apply State.ledgerEvent_keeps
    | fail_if_no_progress with_reducible refine Holds.mk_of ?_ rfl rfl rfl rfl rfl rfl
    | split

theorem State.startStrongroom_keeps {w : Watch} {s : State} {a1} (h : Holds w s) : Holds w (State.startStrongroom s a1) := by
  unfold State.startStrongroom
  try dsimp only
  repeat' first
    | with_reducible assumption
    | with_reducible apply State.setF_keeps
    | with_reducible apply State.setReg_keeps

theorem State.hapFromLedger_keeps {w : Watch} {s : State} (h : Holds w s) : Holds w (State.hapFromLedger s) := by
  unfold State.hapFromLedger
  try dsimp only
  repeat' first
    | with_reducible assumption
    | with_reducible apply State.setHap_keeps
    | with_reducible apply State.setReg64_keeps
    | fail_if_no_progress with_reducible refine Holds.mk_of ?_ rfl rfl rfl rfl rfl rfl
    | with_reducible refine foldl_keeps ?_ ?_
    | split
    | (intro)

theorem State.startRegions_keeps {w : Watch} {s : State} {a1} (h : Holds w s) : Holds w (State.startRegions s a1) := by
  unfold State.startRegions
  try dsimp only
  repeat' first
    | with_reducible assumption
    | with_reducible apply State.putRegion_keeps
    | fail_if_no_progress with_reducible refine Holds.mk_of ?_ rfl rfl rfl rfl rfl rfl
    | with_reducible refine foldl_keeps ?_ ?_
    | split
    | (intro)

theorem State.startArena_keeps {w : Watch} {s : State} {a1} (h : Holds w s) : Holds w (State.startArena s a1) := by
  unfold State.startArena
  try dsimp only
  repeat' first
    | with_reducible assumption
    | with_reducible apply State.setF_keeps
    | fail_if_no_progress with_reducible refine Holds.mk_of ?_ rfl rfl rfl rfl rfl rfl
    | split

theorem State.bootEnds_keeps {w : Watch} {s : State} {a1 a2 a3 a4} (h : Holds w s) : Holds w (State.bootEnds s a1 a2 a3 a4) := by
  unfold State.bootEnds
  try dsimp only
  repeat' first
    | with_reducible assumption
    | with_reducible apply State.atState_keeps
    | with_reducible apply State.hapFromLedger_keeps
    | with_reducible apply State.putVotes_keeps
    | with_reducible apply State.setF_keeps
    | with_reducible apply State.setPolicy_keeps
    | with_reducible apply State.setReg_keeps
    | with_reducible apply State.startArena_keeps
    | with_reducible apply State.startRegions_keeps
    | with_reducible apply State.tellWoken_keeps
    | fail_if_no_progress with_reducible refine Holds.mk_of ?_ rfl rfl rfl rfl rfl rfl
    | split

theorem execBootSequence_keeps {w : Watch} {s : State} {a1 a2} (h : Holds w s) (hb : ∀ b, w.bind b) (hl : w.Loses) : NextHolds w (execBootSequence a1 a2 s) := by
  unfold execBootSequence
  try dsimp only
  repeat' first
    | with_reducible assumption
    | with_reducible apply nextHolds_next
    | with_reducible exact nextHolds_fault
    | with_reducible exact nextHolds_refused
    | with_reducible apply State.applyBinding_keeps
    | with_reducible apply State.atState_keeps
    | with_reducible apply State.bootEnds_keeps
    | with_reducible apply State.bootRecords_keeps
    | with_reducible apply State.putVotes_keeps
    | with_reducible apply State.setF_keeps
    | with_reducible apply State.setReg_keeps
    | with_reducible apply State.startStrongroom_keeps
    | with_reducible apply State.stepFails_keeps
    | fail_if_no_progress with_reducible refine Holds.mk_of ?_ rfl rfl rfl rfl rfl rfl
    | split

theorem execXspiOwnRelease_keeps {w : Watch} {s : State} {a1 a2} (h : Holds w s) : NextHolds w (execXspiOwnRelease a1 a2 s) := by
  unfold execXspiOwnRelease
  try dsimp only
  repeat' first
    | with_reducible assumption
    | with_reducible apply nextHolds_next
    | with_reducible exact nextHolds_fault
    | with_reducible exact nextHolds_refused
    | fail_if_no_progress with_reducible refine Holds.mk_of ?_ rfl rfl rfl rfl rfl rfl
    | split

theorem execRollbackRaise_keeps {w : Watch} {s : State} (h : Holds w s) : NextHolds w (execRollbackRaise s) := by
  unfold execRollbackRaise
  try dsimp only
  repeat' first
    | with_reducible assumption
    | with_reducible apply nextHolds_next
    | with_reducible exact nextHolds_fault
    | with_reducible exact nextHolds_refused
    | fail_if_no_progress with_reducible refine Holds.mk_of ?_ rfl rfl rfl rfl rfl rfl
    | split

theorem State.clock_keeps {w : Watch} {s : State} (h : Holds w s) (ht : ∀ n, w.time n → w.time (n + 1)) : Holds w (State.clock s) := by
  unfold State.clock
  try dsimp only
  repeat' first
    | with_reducible assumption
    | exact ⟨⟨h.inv.1, h.inv.2⟩, h.queue, ht _ h.time, h.safe, h.bind⟩
    | fail_if_no_progress with_reducible refine Holds.mk_of ?_ rfl rfl rfl rfl rfl rfl
    | split

theorem State.tick_keeps {w : Watch} {s : State} (h : Holds w s) (ht : ∀ n, w.time n → w.time (n + 1)) : Holds w (State.tick s) := by
  unfold State.tick
  try dsimp only
  repeat' first
    | with_reducible assumption
    | with_reducible apply State.clock_keeps
    | with_reducible apply State.endRestore_keeps
    | with_reducible apply State.settlePower_keeps
    | with_reducible apply State.settleResizes_keeps
    | fail_if_no_progress with_reducible refine Holds.mk_of ?_ rfl rfl rfl rfl rfl rfl
    | split

end Sys2Proof.Machine
end

