-- ==== Sys2Proof/Laws/KeepsFirmware.lean ====
section
/-! SUPPORT. What Machine/Firmware.lean does keeps what is watched. -/

namespace Sys2Proof.Machine

theorem State.putInactive_keeps {w : Watch} {s : State} {a1} (h : Holds w s) : Holds w (State.putInactive s a1) := by
  unfold State.putInactive
  try dsimp only
  repeat' first
    | with_reducible assumption
    | fail_if_no_progress with_reducible refine Holds.mk_of ?_ rfl rfl rfl rfl rfl rfl
    | split

theorem State.stageFails_keeps {w : Watch} {s : State} {a1 a2 a3} (h : Holds w s) : Holds w (State.stageFails s a1 a2 a3) := by
  unfold State.stageFails
  try dsimp only
  repeat' first
    | with_reducible assumption
    | with_reducible apply State.complete_keeps
    | with_reducible apply State.putInactive_keeps
    | with_reducible apply State.setF_keeps
    | with_reducible apply State.setReg_keeps
    | fail_if_no_progress with_reducible refine Holds.mk_of ?_ rfl rfl rfl rfl rfl rfl

theorem effFwStage_keeps {w : Watch} {s : State} {a1 a2 a3 a4} (h : Holds w s) : Holds w (effFwStage a1 a2 a3 a4 s) := by
  unfold effFwStage
  try dsimp only
  repeat' first
    | with_reducible assumption
    | with_reducible apply State.commit_keeps
    | with_reducible apply State.complete_keeps
    | with_reducible apply State.postMgr_keeps
    | with_reducible apply State.putInactive_keeps
    | with_reducible apply State.setF_keeps
    | with_reducible apply State.setReg_keeps
    | with_reducible apply State.stageFails_keeps
    | fail_if_no_progress with_reducible refine Holds.mk_of ?_ rfl rfl rfl rfl rfl rfl
    | split

theorem execFwStage_keeps {w : Watch} {s : State} {a1 a2 a3} (h : Holds w s) : NextHolds w (execFwStage a1 a2 a3 s) := by
  unfold execFwStage
  try dsimp only
  repeat' first
    | with_reducible assumption
    | with_reducible apply nextHolds_next
    | with_reducible exact nextHolds_fault
    | with_reducible exact nextHolds_refused
    | with_reducible apply effFwStage_keeps
    | with_reducible apply runPkt_keeps
    | fail_if_no_progress with_reducible refine Holds.mk_of ?_ rfl rfl rfl rfl rfl rfl
    | split
    | (intro)

theorem State.beginSwitch_keeps {w : Watch} {s : State} {a1} (h : Holds w s) : Holds w (State.beginSwitch s a1) := by
  unfold State.beginSwitch
  try dsimp only
  repeat' first
    | with_reducible assumption
    | with_reducible apply State.endPending_keeps
    | with_reducible apply State.forget_keeps
    | with_reducible apply State.loseContacts_keeps
    | with_reducible apply State.setF_keeps
    | with_reducible apply State.setHap_keeps
    | with_reducible apply State.setPolicy_keeps
    | with_reducible apply State.setTctl_keeps
    | fail_if_no_progress with_reducible refine Holds.mk_of ?_ rfl rfl rfl rfl rfl rfl
    | with_reducible refine foldl_keeps ?_ ?_
    | split
    | (intro)

theorem effFwSwitch_keeps {w : Watch} {s : State} {a1 a2} (h : Holds w s) : Holds w (effFwSwitch a1 a2 s) := by
  unfold effFwSwitch
  try dsimp only
  repeat' first
    | with_reducible assumption
    | with_reducible apply State.beginSwitch_keeps
    | with_reducible apply State.commit_keeps
    | with_reducible apply State.setF_keeps
    | fail_if_no_progress with_reducible refine Holds.mk_of ?_ rfl rfl rfl rfl rfl rfl

theorem execFwSwitch_keeps {w : Watch} {s : State} {a1} (h : Holds w s) : NextHolds w (execFwSwitch a1 s) := by
  unfold execFwSwitch
  try dsimp only
  repeat' first
    | with_reducible assumption
    | with_reducible apply nextHolds_next
    | with_reducible exact nextHolds_fault
    | with_reducible exact nextHolds_refused
    | with_reducible apply effFwSwitch_keeps
    | with_reducible apply runPkt_keeps
    | fail_if_no_progress with_reducible refine Holds.mk_of ?_ rfl rfl rfl rfl rfl rfl
    | split
    | (intro)

theorem State.endSwitch_keeps {w : Watch} {s : State} {a1 a2} (h : Holds w s) : Holds w (State.endSwitch s a1 a2) := by
  unfold State.endSwitch
  try dsimp only
  repeat' first
    | with_reducible assumption
    | with_reducible apply State.capChangedFn_keeps
    | with_reducible apply State.setPolicy_keeps
    | with_reducible apply State.startStrongroom_keeps
    | fail_if_no_progress with_reducible refine Holds.mk_of ?_ rfl rfl rfl rfl rfl rfl
    | with_reducible refine foldl_keeps ?_ ?_
    | split

theorem execFwSwitchComplete_keeps {w : Watch} {s : State} (h : Holds w s) : NextHolds w (execFwSwitchComplete s) := by
  unfold execFwSwitchComplete
  try dsimp only
  repeat' first
    | with_reducible assumption
    | with_reducible apply nextHolds_next
    | with_reducible exact nextHolds_fault
    | with_reducible exact nextHolds_refused
    | with_reducible apply State.complete_keeps
    | with_reducible apply State.endSwitch_keeps
    | with_reducible apply State.flushHeld_keeps
    | with_reducible apply State.post_keeps
    | with_reducible apply State.postMgr_keeps
    | with_reducible apply State.setF_keeps
    | fail_if_no_progress with_reducible refine Holds.mk_of ?_ rfl rfl rfl rfl rfl rfl
    | with_reducible refine foldl_keeps ?_ ?_
    | split
    | (intro)

theorem execStrongroomSwitchTimeout_keeps {w : Watch} {s : State} (h : Holds w s) : NextHolds w (execStrongroomSwitchTimeout s) := by
  unfold execStrongroomSwitchTimeout
  try dsimp only
  repeat' first
    | with_reducible assumption
    | with_reducible apply nextHolds_next
    | with_reducible exact nextHolds_fault
    | with_reducible exact nextHolds_refused
    | with_reducible apply State.fresh_keeps
    | with_reducible refine State.fresh_keeps' (by assumption) ?_
    | with_reducible apply State.record_keeps
    | with_reducible apply State.setF_keeps
    | fail_if_no_progress with_reducible refine Holds.mk_of ?_ rfl rfl rfl rfl rfl rfl
    | split

end Sys2Proof.Machine
end

