-- ==== Sys2Proof/Laws/KeepsSystem.lean ====
section
/-! SUPPORT. What Machine/System.lean does keeps what is watched. -/

namespace Sys2Proof.Machine

theorem effSysNop_keeps {w : Watch} {s : State} {a1 a2} (h : Holds w s) : Holds w (effSysNop a1 a2 s) := by
  unfold effSysNop
  try dsimp only
  repeat' first
    | with_reducible assumption
    | with_reducible apply State.complete_keeps

theorem execSysNop_keeps {w : Watch} {s : State} {a1} (h : Holds w s) : NextHolds w (execSysNop a1 s) := by
  unfold execSysNop
  try dsimp only
  repeat' first
    | with_reducible assumption
    | with_reducible apply nextHolds_next
    | with_reducible exact nextHolds_fault
    | with_reducible exact nextHolds_refused
    | with_reducible apply effSysNop_keeps
    | with_reducible apply runPkt_keeps
    | fail_if_no_progress with_reducible refine Holds.mk_of ?_ rfl rfl rfl rfl rfl rfl
    | split
    | (intro)

theorem effSysFence_keeps {w : Watch} {s : State} {a1 a2} (h : Holds w s) : Holds w (effSysFence a1 a2 s) := by
  unfold effSysFence
  try dsimp only
  repeat' first
    | with_reducible assumption
    | with_reducible apply State.complete_keeps
    | fail_if_no_progress with_reducible refine Holds.mk_of ?_ rfl rfl rfl rfl rfl rfl
    | split

theorem execSysFence_keeps {w : Watch} {s : State} {a1} (h : Holds w s) : NextHolds w (execSysFence a1 s) := by
  unfold execSysFence
  try dsimp only
  repeat' first
    | with_reducible assumption
    | with_reducible apply nextHolds_next
    | with_reducible exact nextHolds_fault
    | with_reducible exact nextHolds_refused
    | with_reducible apply effSysFence_keeps
    | with_reducible apply runPkt_keeps
    | fail_if_no_progress with_reducible refine Holds.mk_of ?_ rfl rfl rfl rfl rfl rfl
    | split
    | (intro)

theorem acquireSlip_keeps {w : Watch} {s : State} {a1 a2 a3} (h : Holds w s) : Holds w (acquireSlip a1 a2 a3 s) := by
  unfold acquireSlip
  try dsimp only
  repeat' first
    | with_reducible assumption
    | with_reducible apply State.complete_keeps
    | with_reducible apply State.setSlip_keeps
    | fail_if_no_progress with_reducible refine Holds.mk_of ?_ rfl rfl rfl rfl rfl rfl
    | split

theorem effSysSlipAcquire_keeps {w : Watch} {s : State} {a1 a2} (h : Holds w s) : Holds w (effSysSlipAcquire a1 a2 s) := by
  unfold effSysSlipAcquire
  try dsimp only
  repeat' first
    | with_reducible assumption
    | with_reducible apply acquireSlip_keeps

theorem execSysSlipAcquire_keeps {w : Watch} {s : State} {a1} (h : Holds w s) : NextHolds w (execSysSlipAcquire a1 s) := by
  unfold execSysSlipAcquire
  try dsimp only
  repeat' first
    | with_reducible assumption
    | with_reducible apply nextHolds_next
    | with_reducible exact nextHolds_fault
    | with_reducible exact nextHolds_refused
    | with_reducible apply effSysSlipAcquire_keeps
    | with_reducible apply runPkt_keeps
    | fail_if_no_progress with_reducible refine Holds.mk_of ?_ rfl rfl rfl rfl rfl rfl
    | split
    | (intro)

theorem effSysSlipRelease_keeps {w : Watch} {s : State} {a1 a2} (h : Holds w s) : Holds w (effSysSlipRelease a1 a2 s) := by
  unfold effSysSlipRelease
  try dsimp only
  repeat' first
    | with_reducible assumption
    | with_reducible apply State.complete_keeps
    | with_reducible apply State.handSlip_keeps
    | with_reducible apply State.setSlip_keeps

theorem execSysSlipRelease_keeps {w : Watch} {s : State} {a1} (h : Holds w s) : NextHolds w (execSysSlipRelease a1 s) := by
  unfold execSysSlipRelease
  try dsimp only
  repeat' first
    | with_reducible assumption
    | with_reducible apply nextHolds_next
    | with_reducible exact nextHolds_fault
    | with_reducible exact nextHolds_refused
    | with_reducible apply effSysSlipRelease_keeps
    | with_reducible apply runPkt_keeps
    | fail_if_no_progress with_reducible refine Holds.mk_of ?_ rfl rfl rfl rfl rfl rfl
    | split
    | (intro)

theorem effSysSlipClear_keeps {w : Watch} {s : State} {a1 a2} (h : Holds w s) : Holds w (effSysSlipClear a1 a2 s) := by
  unfold effSysSlipClear
  try dsimp only
  repeat' first
    | with_reducible assumption
    | with_reducible apply State.complete_keeps
    | with_reducible apply State.setSlip_keeps

theorem execSysSlipClear_keeps {w : Watch} {s : State} {a1} (h : Holds w s) : NextHolds w (execSysSlipClear a1 s) := by
  unfold execSysSlipClear
  try dsimp only
  repeat' first
    | with_reducible assumption
    | with_reducible apply nextHolds_next
    | with_reducible exact nextHolds_fault
    | with_reducible exact nextHolds_refused
    | with_reducible apply effSysSlipClear_keeps
    | with_reducible apply runPkt_keeps
    | fail_if_no_progress with_reducible refine Holds.mk_of ?_ rfl rfl rfl rfl rfl rfl
    | split
    | (intro)

theorem effSysSlipGrant_keeps {w : Watch} {s : State} {a1 a2} (h : Holds w s) : Holds w (effSysSlipGrant a1 a2 s) := by
  unfold effSysSlipGrant
  try dsimp only
  repeat' first
    | with_reducible assumption
    | with_reducible apply State.complete_keeps
    | with_reducible apply State.setSlip_keeps

theorem execSysSlipGrant_keeps {w : Watch} {s : State} {a1} (h : Holds w s) : NextHolds w (execSysSlipGrant a1 s) := by
  unfold execSysSlipGrant
  try dsimp only
  repeat' first
    | with_reducible assumption
    | with_reducible apply nextHolds_next
    | with_reducible exact nextHolds_fault
    | with_reducible exact nextHolds_refused
    | with_reducible apply effSysSlipGrant_keeps
    | with_reducible apply runPkt_keeps
    | fail_if_no_progress with_reducible refine Holds.mk_of ?_ rfl rfl rfl rfl rfl rfl
    | split
    | (intro)

theorem effSysSlipQuery_keeps {w : Watch} {s : State} {a1 a2} (h : Holds w s) : Holds w (effSysSlipQuery a1 a2 s) := by
  unfold effSysSlipQuery
  try dsimp only
  repeat' first
    | with_reducible assumption
    | with_reducible apply State.complete_keeps

theorem execSysSlipQuery_keeps {w : Watch} {s : State} {a1} (h : Holds w s) : NextHolds w (execSysSlipQuery a1 s) := by
  unfold execSysSlipQuery
  try dsimp only
  repeat' first
    | with_reducible assumption
    | with_reducible apply nextHolds_next
    | with_reducible exact nextHolds_fault
    | with_reducible exact nextHolds_refused
    | with_reducible apply effSysSlipQuery_keeps
    | with_reducible apply runPkt_keeps
    | fail_if_no_progress with_reducible refine Holds.mk_of ?_ rfl rfl rfl rfl rfl rfl
    | split
    | (intro)

end Sys2Proof.Machine
end

