-- ==== Sys2Proof/Laws/KeepsCaps.lean ====
section
/-! SUPPORT. What Machine/Caps.lean does keeps what is watched. -/

namespace Sys2Proof.Machine

theorem effSysGetCaps_keeps {w : Watch} {s : State} {a1 a2} (h : Holds w s) : Holds w (effSysGetCaps a1 a2 s) := by
  unfold effSysGetCaps
  try dsimp only
  repeat' first
    | with_reducible assumption
    | with_reducible apply State.storeReply_keeps

theorem execSysGetCaps_keeps {w : Watch} {s : State} {a1} (h : Holds w s) : NextHolds w (execSysGetCaps a1 s) := by
  unfold execSysGetCaps
  try dsimp only
  repeat' first
    | with_reducible assumption
    | with_reducible apply nextHolds_next
    | with_reducible exact nextHolds_fault
    | with_reducible exact nextHolds_refused
    | with_reducible apply effSysGetCaps_keeps
    | with_reducible apply runPkt_keeps
    | fail_if_no_progress with_reducible refine Holds.mk_of ?_ rfl rfl rfl rfl rfl rfl
    | split
    | (intro)

end Sys2Proof.Machine
end

