-- ==== Sys2Proof/Laws/KeepsRings.lean ====
section
/-! SUPPORT. What Machine/Rings.lean does keeps what is watched. -/

namespace Sys2Proof.Machine

theorem State.ringWrite_keeps {w : Watch} {s : State} {a1 a2 a3 a4 f} (h : Holds w s) (hf : ∀ t, Holds w t → Holds w (f t)) : Holds w (State.ringWrite s a1 a2 a3 a4 f) := by
  unfold State.ringWrite
  try dsimp only
  repeat' first
    | with_reducible assumption
    | with_reducible apply hf
    | with_reducible apply State.badWrite_keeps
    | with_reducible apply State.gated_keeps
    | fail_if_no_progress with_reducible refine Holds.mk_of ?_ rfl rfl rfl rfl rfl rfl
    | split
    | (intro)

theorem State.cfgErr_keeps {w : Watch} {s : State} {a1} (h : Holds w s) : Holds w (State.cfgErr s a1) := by
  unfold State.cfgErr
  try dsimp only
  repeat' first
    | with_reducible assumption
    | with_reducible apply State.setF_keeps

theorem State.setSqCtrl_keeps {w : Watch} {s : State} {a1 a2 a3} (h : Holds w s) : Holds w (State.setSqCtrl s a1 a2 a3) := by
  unfold State.setSqCtrl
  try dsimp only
  repeat' first
    | with_reducible assumption
    | with_reducible apply State.cfgErr_keeps
    | with_reducible apply State.setFn_keeps
    | with_reducible apply State.setReg_keeps
    | fail_if_no_progress with_reducible refine Holds.mk_of ?_ rfl rfl rfl rfl rfl rfl
    | split

theorem State.tellManager_keeps {w : Watch} {s : State} (h : Holds w s) : Holds w (State.tellManager s) := by
  unfold State.tellManager
  try dsimp only
  repeat' first
    | with_reducible assumption
    | with_reducible apply State.tellLedger_keeps
    | with_reducible apply State.tellWake_keeps
    | with_reducible apply State.tellXtal_keeps

theorem State.setCqCtrl_keeps {w : Watch} {s : State} {a1 a2} (h : Holds w s) : Holds w (State.setCqCtrl s a1 a2) := by
  unfold State.setCqCtrl
  try dsimp only
  repeat' first
    | with_reducible assumption
    | with_reducible apply State.cfgErr_keeps
    | with_reducible apply State.flushHeld_keeps
    | with_reducible apply State.setFn_keeps
    | with_reducible apply State.setReg_keeps
    | with_reducible apply State.tellManager_keeps
    | fail_if_no_progress with_reducible refine Holds.mk_of ?_ rfl rfl rfl rfl rfl rfl
    | split

theorem State.setRingBase_keeps {w : Watch} {s : State} {a1 a2 a3 a4} (h : Holds w s) : Holds w (State.setRingBase s a1 a2 a3 a4) := by
  unfold State.setRingBase
  try dsimp only
  repeat' first
    | with_reducible assumption
    | with_reducible apply State.cfgErr_keeps
    | with_reducible apply State.setReg_keeps
    | fail_if_no_progress with_reducible refine Holds.mk_of ?_ rfl rfl rfl rfl rfl rfl
    | split

theorem State.setVecmap_keeps {w : Watch} {s : State} {a1 a2 a3} (h : Holds w s) : Holds w (State.setVecmap s a1 a2 a3) := by
  unfold State.setVecmap
  try dsimp only
  repeat' first
    | with_reducible assumption
    | with_reducible apply State.cfgErr_keeps
    | with_reducible apply State.setReg_keeps
    | fail_if_no_progress with_reducible refine Holds.mk_of ?_ rfl rfl rfl rfl rfl rfl
    | split

theorem execSqEnable_keeps {w : Watch} {s : State} {a1 a2 a3 a4} (h : Holds w s) : NextHolds w (execSqEnable a1 a2 a3 a4 s) := by
  unfold execSqEnable
  try dsimp only
  repeat' first
    | with_reducible assumption
    | with_reducible apply nextHolds_next
    | with_reducible exact nextHolds_fault
    | with_reducible exact nextHolds_refused
    | with_reducible apply State.ringWrite_keeps
    | with_reducible apply State.setSqCtrl_keeps
    | fail_if_no_progress with_reducible refine Holds.mk_of ?_ rfl rfl rfl rfl rfl rfl
    | split
    | (intro)

theorem execSqDisable_keeps {w : Watch} {s : State} {a1 a2 a3} (h : Holds w s) : NextHolds w (execSqDisable a1 a2 a3 s) := by
  unfold execSqDisable
  try dsimp only
  repeat' first
    | with_reducible assumption
    | with_reducible apply nextHolds_next
    | with_reducible exact nextHolds_fault
    | with_reducible exact nextHolds_refused
    | with_reducible apply State.ringWrite_keeps
    | with_reducible apply State.setSqCtrl_keeps
    | fail_if_no_progress with_reducible refine Holds.mk_of ?_ rfl rfl rfl rfl rfl rfl
    | split
    | (intro)

theorem execCqEnable_keeps {w : Watch} {s : State} {a1 a2 a3} (h : Holds w s) : NextHolds w (execCqEnable a1 a2 a3 s) := by
  unfold execCqEnable
  try dsimp only
  repeat' first
    | with_reducible assumption
    | with_reducible apply nextHolds_next
    | with_reducible exact nextHolds_fault
    | with_reducible exact nextHolds_refused
    | with_reducible apply State.ringWrite_keeps
    | with_reducible apply State.setCqCtrl_keeps
    | fail_if_no_progress with_reducible refine Holds.mk_of ?_ rfl rfl rfl rfl rfl rfl
    | split
    | (intro)

theorem execCqDisable_keeps {w : Watch} {s : State} {a1 a2} (h : Holds w s) : NextHolds w (execCqDisable a1 a2 s) := by
  unfold execCqDisable
  try dsimp only
  repeat' first
    | with_reducible assumption
    | with_reducible apply nextHolds_next
    | with_reducible exact nextHolds_fault
    | with_reducible exact nextHolds_refused
    | with_reducible apply State.ringWrite_keeps
    | with_reducible apply State.setCqCtrl_keeps
    | fail_if_no_progress with_reducible refine Holds.mk_of ?_ rfl rfl rfl rfl rfl rfl
    | split
    | (intro)

theorem State.badDoorbell_keeps {w : Watch} {s : State} {a1 a2} (h : Holds w s) : Holds w (State.badDoorbell s a1 a2) := by
  unfold State.badDoorbell
  try dsimp only
  repeat' first
    | with_reducible assumption
    | with_reducible apply State.post_keeps
    | with_reducible apply State.setBit_keeps

theorem State.ringSq_keeps {w : Watch} {s : State} {a1 a2 a3} (h : Holds w s) : Holds w (State.ringSq s a1 a2 a3) := by
  unfold State.ringSq
  try dsimp only
  repeat' first
    | with_reducible assumption
    | with_reducible apply State.badDoorbell_keeps
    | with_reducible apply State.setFn_keeps
    | fail_if_no_progress with_reducible refine Holds.mk_of ?_ rfl rfl rfl rfl rfl rfl
    | split

theorem State.ringCq_keeps {w : Watch} {s : State} {a1 a2} (h : Holds w s) : Holds w (State.ringCq s a1 a2) := by
  unfold State.ringCq
  try dsimp only
  repeat' first
    | with_reducible assumption
    | with_reducible apply State.badDoorbell_keeps
    | with_reducible apply State.flushHeld_keeps
    | with_reducible apply State.setFn_keeps
    | fail_if_no_progress with_reducible refine Holds.mk_of ?_ rfl rfl rfl rfl rfl rfl
    | split

theorem execDoorbellSq_keeps {w : Watch} {s : State} {a1 a2 a3 a4} (h : Holds w s) : NextHolds w (execDoorbellSq a1 a2 a3 a4 s) := by
  unfold execDoorbellSq
  try dsimp only
  repeat' first
    | with_reducible assumption
    | with_reducible apply nextHolds_next
    | with_reducible exact nextHolds_fault
    | with_reducible exact nextHolds_refused
    | with_reducible apply State.ringSq_keeps
    | with_reducible apply State.ringWrite_keeps
    | fail_if_no_progress with_reducible refine Holds.mk_of ?_ rfl rfl rfl rfl rfl rfl
    | split
    | (intro)

theorem execDoorbellCq_keeps {w : Watch} {s : State} {a1 a2 a3} (h : Holds w s) : NextHolds w (execDoorbellCq a1 a2 a3 s) := by
  unfold execDoorbellCq
  try dsimp only
  repeat' first
    | with_reducible assumption
    | with_reducible apply nextHolds_next
    | with_reducible exact nextHolds_fault
    | with_reducible exact nextHolds_refused
    | with_reducible apply State.ringCq_keeps
    | with_reducible apply State.ringWrite_keeps
    | fail_if_no_progress with_reducible refine Holds.mk_of ?_ rfl rfl rfl rfl rfl rfl
    | split
    | (intro)

theorem State.takePacket_keeps {w : Watch} {s : State} {a1 a2 a3} (h : Holds w s) : Holds w (State.takePacket s a1 a2 a3) := by
  unfold State.takePacket
  try dsimp only
  repeat' first
    | with_reducible assumption
    | with_reducible apply State.complete_keeps
    | with_reducible apply State.fetched_keeps
    | with_reducible apply State.readBlock_keeps
    | fail_if_no_progress with_reducible refine Holds.mk_of ?_ rfl rfl rfl rfl rfl rfl
    | split

theorem execClrkFetchPacket_keeps {w : Watch} {s : State} {a1} (h : Holds w s) : NextHolds w (execClrkFetchPacket a1 s) := by
  unfold execClrkFetchPacket
  try dsimp only
  repeat' first
    | with_reducible assumption
    | with_reducible apply nextHolds_next
    | with_reducible exact nextHolds_fault
    | with_reducible exact nextHolds_refused
    | with_reducible apply State.setFn_keeps
    | with_reducible apply State.setReg_keeps
    | with_reducible apply State.takePacket_keeps
    | fail_if_no_progress with_reducible refine Holds.mk_of ?_ rfl rfl rfl rfl rfl rfl
    | split

theorem execCommandTimeout_keeps {w : Watch} {s : State} {a1} (h : Holds w s) : NextHolds w (execCommandTimeout a1 s) := by
  unfold execCommandTimeout
  try dsimp only
  repeat' first
    | with_reducible assumption
    | with_reducible apply nextHolds_next
    | with_reducible exact nextHolds_fault
    | with_reducible exact nextHolds_refused
    | with_reducible apply State.endPkt_keeps
    | with_reducible apply State.forget_keeps
    | with_reducible apply State.spoilBuffer_keeps
    | with_reducible apply State.stageFails_keeps
    | fail_if_no_progress with_reducible refine Holds.mk_of ?_ rfl rfl rfl rfl rfl rfl
    | split

theorem execCoalesceTimeout_keeps {w : Watch} {s : State} {a1} (h : Holds w s) : NextHolds w (execCoalesceTimeout a1 s) := by
  unfold execCoalesceTimeout
  try dsimp only
  repeat' first
    | with_reducible assumption
    | with_reducible apply nextHolds_next
    | with_reducible exact nextHolds_fault
    | with_reducible exact nextHolds_refused
    | with_reducible apply State.signalReplies_keeps
    | fail_if_no_progress with_reducible refine Holds.mk_of ?_ rfl rfl rfl rfl rfl rfl
    | split

theorem State.hostLink_keeps {w : Watch} {s : State} {a1 a2 a3 a4} (h : Holds w s) : Holds w (State.hostLink s a1 a2 a3 a4) := by
  unfold State.hostLink
  try dsimp only
  repeat' first
    | with_reducible assumption
    | with_reducible apply State.postMgr_keeps
    | with_reducible apply State.setF_keeps
    | with_reducible apply State.showStandby_keeps

theorem execHostLinkDown_keeps {w : Watch} {s : State} {a1} (h : Holds w s) : NextHolds w (execHostLinkDown a1 s) := by
  unfold execHostLinkDown
  try dsimp only
  repeat' first
    | with_reducible assumption
    | with_reducible apply nextHolds_next
    | with_reducible exact nextHolds_fault
    | with_reducible exact nextHolds_refused
    | with_reducible apply State.hostLink_keeps
    | fail_if_no_progress with_reducible refine Holds.mk_of ?_ rfl rfl rfl rfl rfl rfl
    | split

theorem execHostLinkUp_keeps {w : Watch} {s : State} {a1 a2 a3} (h : Holds w s) : NextHolds w (execHostLinkUp a1 a2 a3 s) := by
  unfold execHostLinkUp
  try dsimp only
  repeat' first
    | with_reducible assumption
    | with_reducible apply nextHolds_next
    | with_reducible exact nextHolds_fault
    | with_reducible exact nextHolds_refused
    | with_reducible apply State.flushHeld_keeps
    | with_reducible apply State.hostLink_keeps
    | fail_if_no_progress with_reducible refine Holds.mk_of ?_ rfl rfl rfl rfl rfl rfl
    | with_reducible refine foldl_keeps ?_ ?_
    | split

theorem execPerstAssert_keeps {w : Watch} {s : State} {a1} (h : Holds w s) (hl : w.Loses) : NextHolds w (execPerstAssert a1 s) := by
  unfold execPerstAssert
  try dsimp only
  repeat' first
    | with_reducible assumption
    | with_reducible apply nextHolds_next
    | with_reducible exact nextHolds_fault
    | with_reducible exact nextHolds_refused
    | with_reducible apply State.hostLink_keeps
    | with_reducible apply State.loseRings_keeps
    | with_reducible apply State.recoveryReset_keeps
    | with_reducible apply State.resetBound_keeps
    | with_reducible apply State.setF_keeps
    | fail_if_no_progress with_reducible refine Holds.mk_of ?_ rfl rfl rfl rfl rfl rfl
    | with_reducible refine foldl_keeps ?_ ?_
    | split
    | (intro)

theorem execPerstRelease_keeps {w : Watch} {s : State} {a1} (h : Holds w s) : NextHolds w (execPerstRelease a1 s) := by
  unfold execPerstRelease
  try dsimp only
  repeat' first
    | with_reducible assumption
    | with_reducible apply nextHolds_next
    | with_reducible exact nextHolds_fault
    | with_reducible exact nextHolds_refused
    | with_reducible apply State.beginWake_keeps
    | with_reducible apply State.setF_keeps
    | fail_if_no_progress with_reducible refine Holds.mk_of ?_ rfl rfl rfl rfl rfl rfl
    | split

theorem execFlitMgmtPacket_keeps {w : Watch} {s : State} {a1 a2 a3} (h : Holds w s) : NextHolds w (execFlitMgmtPacket a1 a2 a3 s) := by
  unfold execFlitMgmtPacket
  try dsimp only
  repeat' first
    | with_reducible assumption
    | with_reducible apply nextHolds_next
    | with_reducible exact nextHolds_fault
    | with_reducible exact nextHolds_refused
    | with_reducible apply State.emit_keeps
    | with_reducible apply State.takePacket_keeps
    | fail_if_no_progress with_reducible refine Holds.mk_of ?_ rfl rfl rfl rfl rfl rfl
    | split

theorem effFabForward_keeps {w : Watch} {s : State} {a1 a2} (h : Holds w s) : Holds w (effFabForward a1 a2 s) := by
  unfold effFabForward
  try dsimp only
  repeat' first
    | with_reducible assumption
    | with_reducible apply State.emit_keeps
    | fail_if_no_progress with_reducible refine Holds.mk_of ?_ rfl rfl rfl rfl rfl rfl
    | split

theorem execFabForward_keeps {w : Watch} {s : State} {a1} (h : Holds w s) : NextHolds w (execFabForward a1 s) := by
  unfold execFabForward
  try dsimp only
  repeat' first
    | with_reducible assumption
    | with_reducible apply nextHolds_next
    | with_reducible exact nextHolds_fault
    | with_reducible exact nextHolds_refused
    | with_reducible apply effFabForward_keeps
    | with_reducible apply runPkt_keeps
    | fail_if_no_progress with_reducible refine Holds.mk_of ?_ rfl rfl rfl rfl rfl rfl
    | split
    | (intro)

end Sys2Proof.Machine
end

