-- ==== Sys2Proof/Laws/KeepsAccess.lean ====
section
/-! SUPPORT. What Machine/Access.lean does keeps what is watched. -/

namespace Sys2Proof.Machine

theorem State.afterRead_keeps {w : Watch} {s : State} {a1 a2} (h : Holds w s) : Holds w (State.afterRead s a1 a2) := by
  unfold State.afterRead
  try dsimp only
  repeat' first
    | with_reducible assumption
    | fail_if_no_progress with_reducible refine Holds.mk_of ?_ rfl rfl rfl rfl rfl rfl

theorem State.clearRc_keeps {w : Watch} {s : State} {a1} (h : Holds w s) : Holds w (State.clearRc s a1) := by
  unfold State.clearRc
  try dsimp only
  repeat' first
    | with_reducible assumption
    | with_reducible apply State.setReg_keeps
    | fail_if_no_progress with_reducible refine Holds.mk_of ?_ rfl rfl rfl rfl rfl rfl
    | split

theorem execRcRegisterRead_keeps {w : Watch} {s : State} {a1 a2 a3} (h : Holds w s) : NextHolds w (execRcRegisterRead a1 a2 a3 s) := by
  unfold execRcRegisterRead
  try dsimp only
  repeat' first
    | with_reducible assumption
    | with_reducible apply nextHolds_next
    | with_reducible exact nextHolds_fault
    | with_reducible exact nextHolds_refused
    | with_reducible apply State.afterRead_keeps
    | with_reducible apply State.clearRc_keeps
    | with_reducible apply State.count_keeps
    | fail_if_no_progress with_reducible refine Holds.mk_of ?_ rfl rfl rfl rfl rfl rfl
    | split

theorem execLowWordReadLatch_keeps {w : Watch} {s : State} {a1 a2} (h : Holds w s) : NextHolds w (execLowWordReadLatch a1 a2 s) := by
  unfold execLowWordReadLatch
  try dsimp only
  repeat' first
    | with_reducible assumption
    | with_reducible apply nextHolds_next
    | with_reducible exact nextHolds_fault
    | with_reducible exact nextHolds_refused
    | with_reducible apply State.afterRead_keeps
    | fail_if_no_progress with_reducible refine Holds.mk_of ?_ rfl rfl rfl rfl rfl rfl
    | split

theorem State.holdLow_keeps {w : Watch} {s : State} {a1 a2} (h : Holds w s) : Holds w (State.holdLow s a1 a2) := by
  unfold State.holdLow
  try dsimp only
  repeat' first
    | with_reducible assumption
    | fail_if_no_progress with_reducible refine Holds.mk_of ?_ rfl rfl rfl rfl rfl rfl

theorem State.putPlain_keeps {w : Watch} {s : State} {a1 a2} (h : Holds w s) : Holds w (State.putPlain s a1 a2) := by
  unfold State.putPlain
  try dsimp only
  repeat' first
    | with_reducible assumption
    | with_reducible apply State.holdLow_keeps
    | with_reducible apply State.setReg_keeps
    | fail_if_no_progress with_reducible refine Holds.mk_of ?_ rfl rfl rfl rfl rfl rfl
    | split

theorem State.writePlain_keeps {w : Watch} {s : State} {a1 a2 a3} (h : Holds w s) : Holds w (State.writePlain s a1 a2 a3) := by
  unfold State.writePlain
  try dsimp only
  repeat' first
    | with_reducible assumption
    | with_reducible apply State.badWrite_keeps
    | with_reducible apply State.gated_keeps
    | with_reducible apply State.putPlain_keeps
    | fail_if_no_progress with_reducible refine Holds.mk_of ?_ rfl rfl rfl rfl rfl rfl
    | split
    | (intro)

theorem State.writeTiming_keeps {w : Watch} {s : State} {a1 a2 a3 a4} (h : Holds w s) : Holds w (State.writeTiming s a1 a2 a3 a4) := by
  unfold State.writeTiming
  try dsimp only
  repeat' first
    | with_reducible assumption
    | with_reducible apply State.badWrite_keeps
    | with_reducible apply State.regWrite_keeps
    | with_reducible refine SomeHolds.of (State.writeTimingReg_keeps ?_) (by assumption)
    | with_reducible apply State.writeTimingReg_keeps
    | fail_if_no_progress with_reducible refine Holds.mk_of ?_ rfl rfl rfl rfl rfl rfl
    | split
    | (intro)

theorem State.writeLatch_keeps {w : Watch} {s : State} {a1 a2 a3} (h : Holds w s) : Holds w (State.writeLatch s a1 a2 a3) := by
  unfold State.writeLatch
  try dsimp only
  repeat' first
    | with_reducible assumption
    | with_reducible apply State.badWrite_keeps
    | with_reducible apply State.regWrite_keeps
    | with_reducible apply State.writeAdvance_keeps
    | with_reducible refine State.writeAdvance_keeps' (by assumption) ?_
    | fail_if_no_progress with_reducible refine Holds.mk_of ?_ rfl rfl rfl rfl rfl rfl
    | split
    | (intro)

theorem execOutTimingRegWrite_keeps {w : Watch} {s : State} {a1 a2 a3} (h : Holds w s) : NextHolds w (execOutTimingRegWrite a1 a2 a3 s) := by
  unfold execOutTimingRegWrite
  try dsimp only
  repeat' first
    | with_reducible assumption
    | with_reducible apply nextHolds_next
    | with_reducible exact nextHolds_fault
    | with_reducible exact nextHolds_refused
    | with_reducible apply State.writeTiming_keeps
    | fail_if_no_progress with_reducible refine Holds.mk_of ?_ rfl rfl rfl rfl rfl rfl
    | split

theorem execOutAdvanceWrite_keeps {w : Watch} {s : State} {a1 a2 a3} (h : Holds w s) : NextHolds w (execOutAdvanceWrite a1 a2 a3 s) := by
  unfold execOutAdvanceWrite
  try dsimp only
  repeat' first
    | with_reducible assumption
    | with_reducible apply nextHolds_next
    | with_reducible exact nextHolds_fault
    | with_reducible exact nextHolds_refused
    | with_reducible apply State.writeLatch_keeps
    | fail_if_no_progress with_reducible refine Holds.mk_of ?_ rfl rfl rfl rfl rfl rfl
    | split

theorem State.writeMbox_keeps {w : Watch} {s : State} {a1 a2 a3 a4} (h : Holds w s) : Holds w (State.writeMbox s a1 a2 a3 a4) := by
  unfold State.writeMbox
  try dsimp only
  repeat' first
    | with_reducible assumption
    | with_reducible apply State.badWrite_keeps
    | with_reducible apply State.gated_keeps
    | with_reducible apply State.setF_keeps
    | with_reducible apply State.setReg_keeps
    | fail_if_no_progress with_reducible refine Holds.mk_of ?_ rfl rfl rfl rfl rfl rfl
    | split
    | (intro)

theorem State.writeMboxStatus_keeps {w : Watch} {s : State} {a1 a2 a3} (h : Holds w s) : Holds w (State.writeMboxStatus s a1 a2 a3) := by
  unfold State.writeMboxStatus
  try dsimp only
  repeat' first
    | with_reducible assumption
    | with_reducible apply State.badWrite_keeps
    | with_reducible apply State.clearFull_keeps
    | with_reducible apply State.gated_keeps
    | with_reducible apply State.setF_keeps
    | fail_if_no_progress with_reducible refine Holds.mk_of ?_ rfl rfl rfl rfl rfl rfl
    | split
    | (intro)

theorem State.clearRingStatus_keeps {w : Watch} {s : State} {a1 a2} (h : Holds w s) : Holds w (State.clearRingStatus s a1 a2) := by
  unfold State.clearRingStatus
  try dsimp only
  repeat' first
    | with_reducible assumption
    | with_reducible apply State.setReg_keeps

theorem State.setBaseLow_keeps {w : Watch} {s : State} {a1 a2 a3 a4} (h : Holds w s) : Holds w (State.setBaseLow s a1 a2 a3 a4) := by
  unfold State.setBaseLow
  try dsimp only
  repeat' first
    | with_reducible assumption
    | with_reducible apply State.cfgErr_keeps
    | with_reducible apply State.holdLow_keeps
    | fail_if_no_progress with_reducible refine Holds.mk_of ?_ rfl rfl rfl rfl rfl rfl
    | split

theorem State.setBaseHigh_keeps {w : Watch} {s : State} {a1 a2 a3 a4} (h : Holds w s) : Holds w (State.setBaseHigh s a1 a2 a3 a4) := by
  unfold State.setBaseHigh
  try dsimp only
  repeat' first
    | with_reducible assumption
    | with_reducible apply State.holdLow_keeps
    | with_reducible apply State.setRingBase_keeps
    | fail_if_no_progress with_reducible refine Holds.mk_of ?_ rfl rfl rfl rfl rfl rfl
    | split

theorem State.writeRingSet_keeps {w : Watch} {s : State} {a1 a2 a3 a4} (h : Holds w s) : Holds w (State.writeRingSet s a1 a2 a3 a4) := by
  unfold State.writeRingSet
  try dsimp only
  repeat' first
    | with_reducible assumption
    | with_reducible apply State.badWrite_keeps
    | with_reducible apply State.clearRingStatus_keeps
    | with_reducible apply State.gated_keeps
    | with_reducible apply State.setBaseHigh_keeps
    | with_reducible apply State.setBaseLow_keeps
    | with_reducible apply State.setCqCtrl_keeps
    | with_reducible apply State.setSqCtrl_keeps
    | with_reducible apply State.setVecmap_keeps
    | with_reducible apply State.writeMbox_keeps
    | with_reducible apply State.writeMboxStatus_keeps
    | fail_if_no_progress with_reducible refine Holds.mk_of ?_ rfl rfl rfl rfl rfl rfl
    | with_reducible apply id_keeps
    | split
    | (intro)

theorem State.writeBell_keeps {w : Watch} {s : State} {a1 a2 a3 a4} (h : Holds w s) : Holds w (State.writeBell s a1 a2 a3 a4) := by
  unfold State.writeBell
  try dsimp only
  repeat' first
    | with_reducible assumption
    | with_reducible apply State.gated_keeps
    | with_reducible apply State.ringCq_keeps
    | with_reducible apply State.ringMbox_keeps
    | with_reducible apply State.ringSq_keeps
    | with_reducible apply State.ringWrite_keeps
    | fail_if_no_progress with_reducible refine Holds.mk_of ?_ rfl rfl rfl rfl rfl rfl
    | with_reducible apply id_keeps
    | split
    | (intro)

theorem State.writeUnit_keeps {w : Watch} {s : State} {a1 a2 a3 a4} (h : Holds w s) : Holds w (State.writeUnit s a1 a2 a3 a4) := by
  unfold State.writeUnit
  try dsimp only
  repeat' first
    | with_reducible assumption
    | with_reducible apply State.badWrite_keeps
    | with_reducible apply State.cvuWrite_keeps
    | with_reducible apply State.gated_keeps
    | with_reducible apply State.setReg_keeps
    | with_reducible apply State.writeCvuAlive_keeps
    | with_reducible apply State.writeCvuCfg_keeps
    | with_reducible apply State.writeCvuData_keeps
    | with_reducible apply State.writeCvuExpect_keeps
    | with_reducible apply State.writeCvuValue_keeps
    | fail_if_no_progress with_reducible refine Holds.mk_of ?_ rfl rfl rfl rfl rfl rfl
    | with_reducible apply id_keeps
    | split
    | (intro)

theorem State.writeWindow_keeps {w : Watch} {s : State} {a1 a2 a3} (h : Holds w s) : Holds w (State.writeWindow s a1 a2 a3) := by
  unfold State.writeWindow
  try dsimp only
  repeat' first
    | with_reducible assumption
    | with_reducible apply State.badWrite_keeps
    | with_reducible apply State.regWrite_keeps
    | with_reducible apply State.setReg_keeps
    | with_reducible refine NextHolds.of (execStrgReqDoorbell_keeps ?_) (by assumption)
    | fail_if_no_progress with_reducible refine Holds.mk_of ?_ rfl rfl rfl rfl rfl rfl
    | split
    | (intro)

theorem State.writeErrAck_keeps {w : Watch} {s : State} {a1 a2} (h : Holds w s) : Holds w (State.writeErrAck s a1 a2) := by
  unfold State.writeErrAck
  try dsimp only
  repeat' first
    | with_reducible assumption
    | with_reducible apply State.ackRecords_keeps
    | with_reducible apply State.badWrite_keeps
    | with_reducible apply State.regWrite_keeps
    | fail_if_no_progress with_reducible refine Holds.mk_of ?_ rfl rfl rfl rfl rfl rfl
    | split
    | (intro)

theorem State.writeWakeStatus_keeps {w : Watch} {s : State} {a1 a2} (h : Holds w s) : Holds w (State.writeWakeStatus s a1 a2) := by
  unfold State.writeWakeStatus
  try dsimp only
  repeat' first
    | with_reducible assumption
    | with_reducible apply State.regWrite_keeps
    | with_reducible apply State.setF_keeps
    | fail_if_no_progress with_reducible refine Holds.mk_of ?_ rfl rfl rfl rfl rfl rfl
    | split
    | (intro)

theorem State.writeReg_keeps {w : Watch} {s : State} {a1 a2 a3} (h : Holds w s) (hl : w.Loses) : Holds w (State.writeReg s a1 a2 a3) := by
  unfold State.writeReg
  try dsimp only
  repeat' first
    | with_reducible assumption
    | with_reducible apply State.writeBell_keeps
    | with_reducible apply State.writeErrAck_keeps
    | with_reducible apply State.writeFabCtrl_keeps
    | with_reducible apply State.writeInject_keeps
    | with_reducible apply State.writeLatch_keeps
    | with_reducible apply State.writeMgrCtrl_keeps
    | with_reducible apply State.writePcuWake_keeps
    | with_reducible apply State.writePlain_keeps
    | with_reducible apply State.writeRelayHead_keeps
    | with_reducible apply State.writeRingSet_keeps
    | with_reducible apply State.writeSafeCtrl_keeps
    | with_reducible apply State.writeTiming_keeps
    | with_reducible apply State.writeUnit_keeps
    | with_reducible apply State.writeWakeStatus_keeps
    | with_reducible apply State.writeWindow_keeps
    | fail_if_no_progress with_reducible refine Holds.mk_of ?_ rfl rfl rfl rfl rfl rfl
    | split

theorem execRegisterWrite_keeps {w : Watch} {s : State} {a1 a2 a3 a4} (h : Holds w s) (hl : w.Loses) : NextHolds w (execRegisterWrite a1 a2 a3 a4 s) := by
  unfold execRegisterWrite
  try dsimp only
  repeat' first
    | with_reducible assumption
    | with_reducible apply nextHolds_next
    | with_reducible exact nextHolds_fault
    | with_reducible exact nextHolds_refused
    | with_reducible apply State.badWrite_keeps
    | with_reducible apply State.gated_keeps
    | with_reducible apply State.writeReg_keeps
    | fail_if_no_progress with_reducible refine Holds.mk_of ?_ rfl rfl rfl rfl rfl rfl
    | split
    | (intro)

end Sys2Proof.Machine
end

