-- ==== Sys2Proof/Laws/KeepsCrown.lean ====
section
/-! SUPPORT. What Machine/Crown.lean does keeps what is watched. -/

namespace Sys2Proof.Machine

theorem State.endSession_keeps {w : Watch} {s : State} (h : Holds w s) : Holds w (State.endSession s) := by
  unfold State.endSession
  try dsimp only
  repeat' first
    | with_reducible assumption
    | with_reducible apply State.setF_keeps
    | with_reducible apply State.setReg_keeps
    | with_reducible apply State.withdrawVotes_keeps

theorem refuse_keeps {w : Watch} {s : State} {a1} (h : Holds w s) : Holds w (refuse s a1).1 := by
  unfold refuse
  try dsimp only
  repeat' first
    | with_reducible assumption
    | with_reducible apply State.setF_keeps

theorem refuse_keeps' {u v} {w : Watch} {s : State} {a1} (e : refuse s a1 = (u, v)) (h : Holds w s) : Holds w u := by
  have h2 := @refuse_keeps w s a1 h
  rw [e] at h2
  exact h2

theorem State.transact_keeps {w : Watch} {s : State} {a1 a2 a3 f} (h : Holds w s) (hf : ∀ t, Holds w t → Holds w (f t).1) : Holds w (State.transact s a1 a2 a3 f) := by
  unfold State.transact
  try dsimp only
  repeat' first
    | with_reducible assumption
    | with_reducible apply hf
    | with_reducible apply State.emit_keeps
    | with_reducible apply State.fresh_keeps
    | with_reducible refine State.fresh_keeps' (by assumption) ?_
    | fail_if_no_progress with_reducible refine Holds.mk_of ?_ rfl rfl rfl rfl rfl rfl
    | fail_if_no_progress dsimp only
    | split

theorem execCrownId_keeps {w : Watch} {s : State} {a1} (h : Holds w s) : NextHolds w (execCrownId a1 s) := by
  unfold execCrownId
  try dsimp only
  repeat' first
    | with_reducible assumption
    | with_reducible apply nextHolds_next
    | with_reducible exact nextHolds_fault
    | with_reducible exact nextHolds_refused
    | with_reducible apply State.count_keeps
    | with_reducible apply State.transact_keeps
    | fail_if_no_progress with_reducible refine Holds.mk_of ?_ rfl rfl rfl rfl rfl rfl
    | fail_if_no_progress dsimp only
    | split
    | (intro)

theorem State.freshBytes_keeps {w : Watch} {s : State} {a1} (h : Holds w s) : Holds w (State.freshBytes a1 s).2 := by
  induction a1 generalizing s  with
  | zero =>
    unfold State.freshBytes
    repeat' first
      | with_reducible assumption
  | succ n ih =>
    unfold State.freshBytes
    try dsimp only
    repeat' first
      | with_reducible assumption
      | with_reducible apply ih
      | with_reducible apply State.fresh_keeps

theorem State.freshBytes_keeps' {u v} {w : Watch} {s : State} {a1} (e : State.freshBytes a1 s = (v, u)) (h : Holds w s) : Holds w u := by
  have h2 := @State.freshBytes_keeps w s a1 h
  rw [e] at h2
  exact h2

theorem execCrownChallenge_keeps {w : Watch} {s : State} {a1} (h : Holds w s) : NextHolds w (execCrownChallenge a1 s) := by
  unfold execCrownChallenge
  try dsimp only
  repeat' first
    | with_reducible assumption
    | with_reducible apply nextHolds_next
    | with_reducible exact nextHolds_fault
    | with_reducible exact nextHolds_refused
    | with_reducible apply State.count_keeps
    | with_reducible apply State.freshBytes_keeps
    | with_reducible refine State.freshBytes_keeps' (by assumption) ?_
    | with_reducible apply State.transact_keeps
    | with_reducible apply refuse_keeps
    | with_reducible refine refuse_keeps' (by assumption) ?_
    | fail_if_no_progress with_reducible refine Holds.mk_of ?_ rfl rfl rfl rfl rfl rfl
    | fail_if_no_progress dsimp only
    | split
    | (intro)

theorem execCrownResponse_keeps {w : Watch} {s : State} {a1} (h : Holds w s) : NextHolds w (execCrownResponse a1 s) := by
  unfold execCrownResponse
  try dsimp only
  repeat' first
    | with_reducible assumption
    | with_reducible apply nextHolds_next
    | with_reducible exact nextHolds_fault
    | with_reducible exact nextHolds_refused
    | with_reducible apply State.count_keeps
    | with_reducible apply State.setF_keeps
    | with_reducible apply State.transact_keeps
    | with_reducible apply refuse_keeps
    | with_reducible refine refuse_keeps' (by assumption) ?_
    | fail_if_no_progress with_reducible refine Holds.mk_of ?_ rfl rfl rfl rfl rfl rfl
    | fail_if_no_progress dsimp only
    | split
    | (intro)

theorem execCrownAuthVerified_keeps {w : Watch} {s : State} (h : Holds w s) : NextHolds w (execCrownAuthVerified s) := by
  unfold execCrownAuthVerified
  try dsimp only
  repeat' first
    | with_reducible assumption
    | with_reducible apply nextHolds_next
    | with_reducible exact nextHolds_fault
    | with_reducible exact nextHolds_refused
    | with_reducible apply State.postMgr_keeps
    | with_reducible apply State.setF_keeps
    | fail_if_no_progress with_reducible refine Holds.mk_of ?_ rfl rfl rfl rfl rfl rfl
    | fail_if_no_progress dsimp only
    | split

theorem execCrownLockoutEnd_keeps {w : Watch} {s : State} (h : Holds w s) : NextHolds w (execCrownLockoutEnd s) := by
  unfold execCrownLockoutEnd
  try dsimp only
  repeat' first
    | with_reducible assumption
    | with_reducible apply nextHolds_next
    | with_reducible exact nextHolds_fault
    | with_reducible exact nextHolds_refused
    | fail_if_no_progress with_reducible refine Holds.mk_of ?_ rfl rfl rfl rfl rfl rfl

theorem execCrownEnd_keeps {w : Watch} {s : State} {a1} (h : Holds w s) : NextHolds w (execCrownEnd a1 s) := by
  unfold execCrownEnd
  try dsimp only
  repeat' first
    | with_reducible assumption
    | with_reducible apply nextHolds_next
    | with_reducible exact nextHolds_fault
    | with_reducible exact nextHolds_refused
    | with_reducible apply State.count_keeps
    | with_reducible apply State.endSession_keeps
    | with_reducible apply State.transact_keeps

theorem execCrownSessionTimeout_keeps {w : Watch} {s : State} (h : Holds w s) : NextHolds w (execCrownSessionTimeout s) := by
  unfold execCrownSessionTimeout
  try dsimp only
  repeat' first
    | with_reducible assumption
    | with_reducible apply nextHolds_next
    | with_reducible exact nextHolds_fault
    | with_reducible exact nextHolds_refused
    | with_reducible apply State.endSession_keeps
    | fail_if_no_progress with_reducible refine Holds.mk_of ?_ rfl rfl rfl rfl rfl rfl
    | fail_if_no_progress dsimp only
    | split

theorem State.tellHalt_keeps {w : Watch} {s : State} {a1} (h : Holds w s) : Holds w (State.tellHalt s a1) := by
  unfold State.tellHalt
  try dsimp only
  repeat' first
    | with_reducible assumption
    | with_reducible apply State.postMgr_keeps
    | fail_if_no_progress with_reducible refine Holds.mk_of ?_ rfl rfl rfl rfl rfl rfl
    | fail_if_no_progress dsimp only
    | split

theorem State.haltCore_keeps {w : Watch} {s : State} {a1 a2} (h : Holds w s) : Holds w (State.haltCore s a1 a2) := by
  unfold State.haltCore
  try dsimp only
  repeat' first
    | with_reducible assumption
    | with_reducible apply State.setF_keeps
    | with_reducible apply State.tellHalt_keeps

theorem State.askHalt_keeps {w : Watch} {s : State} {a1 a2} (h : Holds w s) : Holds w (State.askHalt s a1 a2) := by
  unfold State.askHalt
  try dsimp only
  repeat' first
    | with_reducible assumption
    | with_reducible apply State.haltCore_keeps
    | with_reducible apply State.setF_keeps
    | fail_if_no_progress with_reducible refine Holds.mk_of ?_ rfl rfl rfl rfl rfl rfl
    | fail_if_no_progress dsimp only
    | split

theorem State.resumeCore_keeps {w : Watch} {s : State} {a1} (h : Holds w s) : Holds w (State.resumeCore s a1) := by
  unfold State.resumeCore
  try dsimp only
  repeat' first
    | with_reducible assumption
    | with_reducible apply State.setReg_keeps

theorem State.stepCore_keeps {w : Watch} {s : State} {a1} (h : Holds w s) : Holds w (State.stepCore s a1) := by
  unfold State.stepCore
  try dsimp only
  repeat' first
    | with_reducible assumption
    | with_reducible apply State.haltCore_keeps
    | fail_if_no_progress with_reducible refine Holds.mk_of ?_ rfl rfl rfl rfl rfl rfl
    | fail_if_no_progress dsimp only
    | split

theorem execDbgCoreHalt_keeps {w : Watch} {s : State} {a1 a2} (h : Holds w s) : NextHolds w (execDbgCoreHalt a1 a2 s) := by
  unfold execDbgCoreHalt
  try dsimp only
  repeat' first
    | with_reducible assumption
    | with_reducible apply nextHolds_next
    | with_reducible exact nextHolds_fault
    | with_reducible exact nextHolds_refused
    | with_reducible apply State.askHalt_keeps
    | fail_if_no_progress with_reducible refine Holds.mk_of ?_ rfl rfl rfl rfl rfl rfl
    | fail_if_no_progress dsimp only
    | split

theorem State.setWave_keeps {w : Watch} {s : State} {a1 a2} (h : Holds w s) : Holds w (State.setWave s a1 a2) := by
  unfold State.setWave
  try dsimp only
  repeat' first
    | with_reducible assumption
    | fail_if_no_progress with_reducible refine Holds.mk_of ?_ rfl rfl rfl rfl rfl rfl

theorem execDbgCoreResume_keeps {w : Watch} {s : State} {a1} (h : Holds w s) : NextHolds w (execDbgCoreResume a1 s) := by
  unfold execDbgCoreResume
  try dsimp only
  repeat' first
    | with_reducible assumption
    | with_reducible apply nextHolds_next
    | with_reducible exact nextHolds_fault
    | with_reducible exact nextHolds_refused
    | with_reducible apply State.resumeCore_keeps
    | with_reducible apply State.setWave_keeps
    | fail_if_no_progress with_reducible refine Holds.mk_of ?_ rfl rfl rfl rfl rfl rfl
    | fail_if_no_progress dsimp only
    | split

theorem execDbgCoreStep_keeps {w : Watch} {s : State} {a1 a2} (h : Holds w s) : NextHolds w (execDbgCoreStep a1 a2 s) := by
  unfold execDbgCoreStep
  try dsimp only
  repeat' first
    | with_reducible assumption
    | with_reducible apply nextHolds_next
    | with_reducible exact nextHolds_fault
    | with_reducible exact nextHolds_refused
    | with_reducible apply State.setWave_keeps
    | with_reducible apply State.stepCore_keeps
    | with_reducible apply State.tellHalt_keeps
    | fail_if_no_progress with_reducible refine Holds.mk_of ?_ rfl rfl rfl rfl rfl rfl
    | fail_if_no_progress dsimp only
    | split

theorem execClerkBreakpointHit_keeps {w : Watch} {s : State} {a1 a2} (h : Holds w s) : NextHolds w (execClerkBreakpointHit a1 a2 s) := by
  unfold execClerkBreakpointHit
  try dsimp only
  repeat' first
    | with_reducible assumption
    | with_reducible apply nextHolds_next
    | with_reducible exact nextHolds_fault
    | with_reducible exact nextHolds_refused
    | with_reducible apply State.haltCore_keeps
    | fail_if_no_progress with_reducible refine Holds.mk_of ?_ rfl rfl rfl rfl rfl rfl
    | fail_if_no_progress dsimp only
    | split

theorem execShaderBreakpointHit_keeps {w : Watch} {s : State} {a1 a2 a3 a4 a5} (h : Holds w s) : NextHolds w (execShaderBreakpointHit a1 a2 a3 a4 a5 s) := by
  unfold execShaderBreakpointHit
  try dsimp only
  repeat' first
    | with_reducible assumption
    | with_reducible apply nextHolds_next
    | with_reducible exact nextHolds_fault
    | with_reducible exact nextHolds_refused
    | with_reducible apply State.setWave_keeps
    | with_reducible apply State.tellHalt_keeps
    | fail_if_no_progress with_reducible refine Holds.mk_of ?_ rfl rfl rfl rfl rfl rfl
    | fail_if_no_progress dsimp only
    | split

theorem State.strgHalt_keeps {w : Watch} {s : State} {a1} (h : Holds w s) : Holds w (State.strgHalt s a1) := by
  unfold State.strgHalt
  try dsimp only
  repeat' first
    | with_reducible assumption
    | with_reducible apply State.setAlert_keeps
    | fail_if_no_progress with_reducible refine Holds.mk_of ?_ rfl rfl rfl rfl rfl rfl

theorem execDbgStrgHalt_keeps {w : Watch} {s : State} (h : Holds w s) : NextHolds w (execDbgStrgHalt s) := by
  unfold execDbgStrgHalt
  try dsimp only
  repeat' first
    | with_reducible assumption
    | with_reducible apply nextHolds_next
    | with_reducible exact nextHolds_fault
    | with_reducible exact nextHolds_refused
    | with_reducible apply State.strgHalt_keeps
    | fail_if_no_progress with_reducible refine Holds.mk_of ?_ rfl rfl rfl rfl rfl rfl
    | fail_if_no_progress dsimp only
    | split

theorem execDbgStrgResume_keeps {w : Watch} {s : State} (h : Holds w s) : NextHolds w (execDbgStrgResume s) := by
  unfold execDbgStrgResume
  try dsimp only
  repeat' first
    | with_reducible assumption
    | with_reducible apply nextHolds_next
    | with_reducible exact nextHolds_fault
    | with_reducible exact nextHolds_refused
    | with_reducible apply State.strgHalt_keeps
    | fail_if_no_progress with_reducible refine Holds.mk_of ?_ rfl rfl rfl rfl rfl rfl
    | fail_if_no_progress dsimp only
    | split

theorem State.voteCrown_keeps {w : Watch} {s : State} {a1} (h : Holds w s) : Holds w (State.voteCrown s a1) := by
  unfold State.voteCrown
  try dsimp only
  repeat' first
    | with_reducible assumption
    | with_reducible apply State.putVotes_keeps
    | with_reducible apply State.setReg_keeps

theorem execDbgVoteWrite_keeps {w : Watch} {s : State} {a1} (h : Holds w s) : NextHolds w (execDbgVoteWrite a1 s) := by
  unfold execDbgVoteWrite
  try dsimp only
  repeat' first
    | with_reducible assumption
    | with_reducible apply nextHolds_next
    | with_reducible exact nextHolds_fault
    | with_reducible exact nextHolds_refused
    | with_reducible apply State.voteCrown_keeps
    | fail_if_no_progress with_reducible refine Holds.mk_of ?_ rfl rfl rfl rfl rfl rfl
    | fail_if_no_progress dsimp only
    | split

theorem State.crownRead_keeps {w : Watch} {s : State} {a1} (h : Holds w s) : Holds w (State.crownRead s a1).2 := by
  unfold State.crownRead
  try dsimp only
  repeat' first
    | with_reducible assumption
    | with_reducible apply State.clearRc_keeps
    | fail_if_no_progress with_reducible refine Holds.mk_of ?_ rfl rfl rfl rfl rfl rfl
    | fail_if_no_progress dsimp only
    | split

theorem State.crownRead_keeps' {u v} {w : Watch} {s : State} {a1} (e : State.crownRead s a1 = (v, u)) (h : Holds w s) : Holds w u := by
  have h2 := @State.crownRead_keeps w s a1 h
  rw [e] at h2
  exact h2

theorem execCrownReadReg_keeps {w : Watch} {s : State} {a1} (h : Holds w s) : NextHolds w (execCrownReadReg a1 s) := by
  unfold execCrownReadReg
  try dsimp only
  repeat' first
    | with_reducible assumption
    | with_reducible apply nextHolds_next
    | with_reducible exact nextHolds_fault
    | with_reducible exact nextHolds_refused
    | with_reducible apply State.count_keeps
    | with_reducible apply State.crownRead_keeps
    | with_reducible refine State.crownRead_keeps' (by assumption) ?_
    | with_reducible apply State.transact_keeps
    | with_reducible apply refuse_keeps
    | with_reducible refine refuse_keeps' (by assumption) ?_
    | with_reducible refine foldl_keeps_snd ?_ ?_
    | fail_if_no_progress dsimp only
    | fail_if_no_progress with_reducible refine Holds.mk_of ?_ rfl rfl rfl rfl rfl rfl
    | with_reducible refine foldl_keeps ?_ ?_
    | fail_if_no_progress dsimp only
    | split
    | (intro)

theorem State.crownWrite_keeps {w : Watch} {s : State} {a1 a2 a3} (h : Holds w s) (hl : w.Loses) : Holds w (State.crownWrite s a1 a2 a3) := by
  unfold State.crownWrite
  try dsimp only
  repeat' first
    | with_reducible assumption
    | with_reducible apply State.askHalt_keeps
    | with_reducible apply State.badWrite_keeps
    | with_reducible apply State.resumeCore_keeps
    | with_reducible apply State.stepCore_keeps
    | with_reducible apply State.strgHalt_keeps
    | with_reducible apply State.voteCrown_keeps
    | with_reducible apply State.writeReg_keeps
    | fail_if_no_progress with_reducible refine Holds.mk_of ?_ rfl rfl rfl rfl rfl rfl
    | fail_if_no_progress dsimp only
    | split

theorem execCrownWriteReg_keeps {w : Watch} {s : State} {a1} (h : Holds w s) (hl : w.Loses) : NextHolds w (execCrownWriteReg a1 s) := by
  unfold execCrownWriteReg
  try dsimp only
  repeat' first
    | with_reducible assumption
    | with_reducible apply nextHolds_next
    | with_reducible exact nextHolds_fault
    | with_reducible exact nextHolds_refused
    | with_reducible apply State.count_keeps
    | with_reducible apply State.crownWrite_keeps
    | with_reducible apply State.transact_keeps
    | with_reducible apply refuse_keeps
    | with_reducible refine refuse_keeps' (by assumption) ?_
    | fail_if_no_progress with_reducible refine Holds.mk_of ?_ rfl rfl rfl rfl rfl rfl
    | with_reducible refine foldl_keeps ?_ ?_
    | fail_if_no_progress dsimp only
    | split
    | (intro)

theorem execCrownReadMem_keeps {w : Watch} {s : State} {a1} (h : Holds w s) : NextHolds w (execCrownReadMem a1 s) := by
  unfold execCrownReadMem
  try dsimp only
  repeat' first
    | with_reducible assumption
    | with_reducible apply nextHolds_next
    | with_reducible exact nextHolds_fault
    | with_reducible exact nextHolds_refused
    | with_reducible apply State.count_keeps
    | with_reducible apply State.noteRead_keeps
    | with_reducible apply State.postUe_keeps
    | with_reducible apply State.transact_keeps
    | with_reducible apply refuse_keeps
    | with_reducible refine refuse_keeps' (by assumption) ?_
    | fail_if_no_progress with_reducible refine Holds.mk_of ?_ rfl rfl rfl rfl rfl rfl
    | fail_if_no_progress dsimp only
    | split
    | (intro)

theorem execCrownWriteMem_keeps {w : Watch} {s : State} {a1} (h : Holds w s) : NextHolds w (execCrownWriteMem a1 s) := by
  unfold execCrownWriteMem
  try dsimp only
  repeat' first
    | with_reducible assumption
    | with_reducible apply nextHolds_next
    | with_reducible exact nextHolds_fault
    | with_reducible exact nextHolds_refused
    | with_reducible apply State.count_keeps
    | with_reducible apply State.postUe_keeps
    | with_reducible apply State.store_keeps
    | with_reducible apply State.transact_keeps
    | with_reducible apply refuse_keeps
    | with_reducible refine refuse_keeps' (by assumption) ?_
    | fail_if_no_progress with_reducible refine Holds.mk_of ?_ rfl rfl rfl rfl rfl rfl
    | fail_if_no_progress dsimp only
    | split
    | (intro)

end Sys2Proof.Machine
end

