-- ==== Sys2Proof/Laws/Objects.lean ====
section
/-! SUPPORT. What wiping an object's bytes and entering a new object in the Shelfmark Table do (R111, R116). -/

namespace Sys2Proof.Machine

theorem State.wipe_shm (s : State) (i g n : Nat) : (s.wipe i g n).shm = s.shm := by
  unfold State.wipe; dsimp only; split
  · rfl
  · split <;> rfl

theorem State.wipe_regs (s : State) (i g n : Nat) : (s.wipe i g n).regs = s.regs := by
  unfold State.wipe; dsimp only; split
  · rfl
  · split <;> rfl

theorem State.wipe_shelf (s : State) (i g n j : Nat) : (s.wipe i g n).shelf j = s.shelf j := by
  unfold State.shelf; rw [State.wipe_shm]

/-- The description of a new object. -/
def newDesc (i gen dva : Nat) (p : List Byte) (sparse : Option (List Nat)) (deadline period : Nat) : ObjDesc :=
  { handle := mkHandle i gen, usage := par p 24 2, cls := par p 26 1, attr := setBits (par p 27 1) 2 2 0, size := par p 16 8, dva := dva
    deadline := deadline, period := period, sparse := sparse }

/-- The entry of a new object. -/
theorem State.newObject_shelf (s : State) (owner i dva : Nat) (p : List Byte) (runs : List (Place × Nat)) (sp : Option (List Nat)) (fb : Option (Nat × Nat))
    (dl pe : Nat) : (s.newObject owner i dva p runs sp fb dl pe).shelf i =
      { s.shelf i with obj := some { owner := owner, desc := newDesc i (s.shelf i).gen dva p sp dl pe, born := s.shm.births, runs := runs, feedback := fb } } := by
  have h1 := State.wipe_shelf s i 0 262144 i
  have h2 := State.wipe_shm s i 0 262144
  unfold State.newObject
  dsimp only
  generalize s.wipe i 0 262144 = w at *
  simp only [State.shelf, State.setShelf, tabGet_set_self] at h1 ⊢
  rw [h1, h2]; rfl

/-- Every other entry is as before. -/
theorem State.newObject_shelf_ne (s : State) (owner i dva : Nat) (p : List Byte) (runs : List (Place × Nat)) (sp : Option (List Nat))
    (fb : Option (Nat × Nat)) (dl pe : Nat) {j : Nat} (h : j ≠ i) : (s.newObject owner i dva p runs sp fb dl pe).shelf j = s.shelf j := by
  have h1 := State.wipe_shelf s i 0 262144 j
  unfold State.newObject
  dsimp only
  generalize s.wipe i 0 262144 = w at *
  simp only [State.shelf, State.setShelf] at h1 ⊢
  rw [tabGet_set_ne _ _ _ h, h1]

/-- No register changes. -/
theorem State.newObject_regs (s : State) (owner i dva : Nat) (p : List Byte) (runs : List (Place × Nat)) (sp : Option (List Nat)) (fb : Option (Nat × Nat))
    (dl pe : Nat) : (s.newObject owner i dva p runs sp fb dl pe).regs = s.regs := by
  have h1 := State.wipe_regs s i 0 262144
  unfold State.newObject
  dsimp only
  generalize s.wipe i 0 262144 = w at *
  exact h1

/-- The choice of a DVA draws at most one free value. -/
theorem State.chooseDva_same {s u : State} {o n a : Nat} {f : Option Nat} (h : s.chooseDva o n f = (some a, u)) :
    u.shm = s.shm ∧ u.mem = s.mem ∧ u.regs = s.regs := by
  unfold State.chooseDva at h
  dsimp only at h
  split at h
  · obtain ⟨-, rfl⟩ := Prod.mk.inj h; exact ⟨rfl, rfl, rfl⟩
  · split at h
    · obtain ⟨-, rfl⟩ := Prod.mk.inj h; exact ⟨rfl, rfl, rfl⟩
    · obtain ⟨-, rfl⟩ := Prod.mk.inj h; exact ⟨rfl, rfl, rfl⟩

end Sys2Proof.Machine
end

