-- ==== Sys2Proof/Laws/Packets.lean ====
section
/-! SUPPORT. What the shared validation does with a packet: one that is admitted runs its effect on the state in which it is in
flight; one whose first failing check is among steps 1 to 6 completes with that status and has no other effect (R60). -/

namespace Sys2Proof.Machine

/-- An admitted packet runs its effect on the state in which it is in flight. -/
theorem runPkt_admitted {c : Cmd} {pk : Pkt} {s : State} {h : Hooks} {eff : List Byte → State → State}
    (ha : s.admitted c pk h = true) : runPkt c pk s h eff = eff (paramBytes pk s) (s.taken c pk h) := by
  simp only [State.admitted, Bool.and_eq_true, Option.isNone_iff_eq_none, Bool.not_eq_true', Bool.or_eq_true] at ha
  obtain ⟨⟨⟨⟨⟨⟨h1, h2⟩, h3⟩, h4⟩, h5⟩, h6⟩, h7⟩ := ha
  have h2' : (decide (pk.ring ≠ windowRing) && !s.clerkRuns) = false := by
    rcases h2 with h2 | h2 <;> simp_all
  have hp : s.paramsOf pk = paramBytes pk s := by simp [State.paramsOf, h1]
  unfold runPkt
  rw [h1, hp]
  simp only [Option.any_none, Bool.false_or, h2', Bool.false_eq_true, if_false, Option.isNone_none, if_true, h3]
  change (if (s.taken c pk h).fenceHolds pk = true then _ else _) = _
  rw [h5]
  simp only [Bool.false_eq_true, if_false]
  change (match firstFail (if (s.taken c pk h).hazard pk (objectsNamed c (paramBytes pk s) h) = true then _ else _) with | some e => _ | none => _) = _
  rw [h6]
  simp only [Bool.false_eq_true, if_false, h4, h7]
  change (if (s.taken c pk h).hazard pk (objectsNamed c (paramBytes pk s) h) = true then _ else _) = _
  rw [h6]
  rfl

/-- The same through the Strongroom. -/
theorem strgPkt_admitted {c : Cmd} {pk : Pkt} {s : State} {h : Hooks} {eff : List Byte → State → State}
    (ha : s.strgAdmitted c pk h = true) : strgPkt c pk s h eff = eff (paramBytes pk s) (s.taken c pk h) := by
  simp only [State.strgAdmitted, Bool.and_eq_true, decide_eq_true_eq] at ha
  rw [strgPkt, if_neg ha.1, runPkt_admitted ha.2]

/-- A packet that is let through runs its effect. -/
theorem State.Accepts.run {c : Cmd} {pk : Pkt} {s t : State} {h : Hooks} {p : List Byte} (ha : s.Accepts c pk h p t)
    (eff : List Byte → State → State) : runPkt c pk s h eff = eff p t := by
  rw [ha.2.1, ha.2.2]; exact runPkt_admitted ha.1

/-- The same through the Strongroom. -/
theorem State.StrgAccepts.run {c : Cmd} {pk : Pkt} {s t : State} {h : Hooks} {p : List Byte} (ha : s.StrgAccepts c pk h p t)
    (eff : List Byte → State → State) : strgPkt c pk s h eff = eff p t := by
  rw [ha.2.1, ha.2.2]; exact strgPkt_admitted ha.1

end Sys2Proof.Machine
end

