-- ==== Sys2Proof/Laws/Tells.lean ====
section
/-! SUPPORT. The operations that write replies and notices change nothing else (`State.Tells`), one law an operation. -/

namespace Sys2Proof.Machine

theorem State.Tells.refl (s : State) : s.Tells s := ⟨rfl, rfl, fun _ _ => rfl⟩

theorem State.Tells.trans {s t u : State} (h : s.Tells t) (k : t.Tells u) : s.Tells u := by
  obtain ⟨h1, h2, h3⟩ := h
  obtain ⟨k1, k2, k3⟩ := k
  refine ⟨?_, ?_, fun a ha => (k3 a ha).trans (h3 a ha)⟩
  · conv_lhs => rw [k1]
    conv_lhs => rw [h1]
  · conv_lhs => rw [k2]
    conv_lhs => rw [h2]

theorem inRings_ringSet {f d : Nat} (h : d < 0x100) : inRings (ringSet f + d) = true := by
  simp only [inRings, ringSet]
  split <;> simp <;> omega

theorem State.setReg_tells {s t : State} {a v : Nat} (h : s.Tells t) (ha : inRings a = true) : s.Tells (t.setReg a v) :=
  h.trans ⟨rfl, rfl, fun b hb => State.reg_setReg_ne _ _ (fun e => by rw [e, ha] at hb; exact absurd hb (by decide))⟩

theorem State.setFn_tells {s t : State} {f : Nat} {x : FnState} (h : s.Tells t) : s.Tells (t.setFn f x) :=
  h.trans ⟨rfl, rfl, fun _ _ => rfl⟩

theorem State.emit_tells {s t : State} {o : HostOut} (h : s.Tells t) : s.Tells (t.emit o) := h.trans ⟨rfl, rfl, fun _ _ => rfl⟩

theorem State.flight_tells {s t : State} {l : List Flight} (h : s.Tells t) : s.Tells { t with flight := l } := h.trans ⟨rfl, rfl, fun _ _ => rfl⟩

theorem State.fab_tells {s t : State} {l : List (Nat × Nat × CqEntry)} {n : Nat} (h : s.Tells t) :
    s.Tells { t with fab := { t.fab with held := l, heldLost := n } } := h.trans ⟨rfl, rfl, fun _ _ => rfl⟩

theorem State.signalReplies_tells {s t : State} {f : Nat} (h : s.Tells t) : s.Tells (t.signalReplies f) :=
  State.emit_tells (State.setFn_tells h)

theorem State.writeEntry_tells {s t : State} {f : Nat} {e : CqEntry} (h : s.Tells t) : s.Tells (t.writeEntry f e) := by
  unfold State.writeEntry
  have h1 := State.setReg_tells (v := (t.reg (CLRK_CQ_TAIL f) + 1) % 2 ^ 32) (State.emit_tells (o := .entry f (t.reg (CLRK_CQ_TAIL f) % t.cqDepth f) e) h)
    (show inRings (CLRK_CQ_TAIL f) = true from inRings_ringSet (by decide))
  dsimp only
  repeat' first
    | with_reducible exact h1
    | with_reducible apply State.signalReplies_tells
    | with_reducible apply State.setFn_tells
    | with_reducible apply State.emit_tells
    | split

theorem State.pushReply_tells {s t : State} {f : Nat} {e : CqEntry} (h : s.Tells t) : s.Tells (t.pushReply f e) := by
  unfold State.pushReply
  split
  · exact State.writeEntry_tells h
  · exact State.setFn_tells h

theorem State.dropNotice_tells {s t : State} {f : Nat} (h : s.Tells t) : s.Tells (t.dropNotice f) :=
  State.setReg_tells (State.setFn_tells h) (inRings_ringSet (by decide))

theorem State.writeNotice_tells {s t : State} {f : Nat} {e : CqEntry} (h : s.Tells t) : s.Tells (t.writeNotice f e) := by
  unfold State.writeNotice
  split
  · exact State.writeEntry_tells h
  · exact State.dropNotice_tells h

theorem State.mkNotice_tells {s t : State} {f c d a b : Nat} (h : s.Tells t) : s.Tells (t.mkNotice f c d a b).2 := State.setFn_tells h

theorem State.writeLost_tells {s t : State} {f : Nat} (h : s.Tells t) : s.Tells (t.writeLost f) := by
  unfold State.writeLost
  split
  · exact State.setFn_tells (State.writeEntry_tells (State.mkNotice_tells h))
  · exact h

theorem State.post_tells {s t : State} {f c d a b : Nat} (h : s.Tells t) : s.Tells (t.post f c d a b) := by
  unfold State.post
  dsimp only
  repeat' first
    | with_reducible exact h
    | with_reducible apply State.writeNotice_tells
    | with_reducible apply State.dropNotice_tells
    | with_reducible apply State.setFn_tells
    | with_reducible apply State.mkNotice_tells
    | with_reducible apply State.writeLost_tells
    | split

theorem State.toFabricManager_tells {s t : State} {k n : Nat} {e : CqEntry} (h : s.Tells t) : s.Tells (t.toFabricManager k n e) := by
  unfold State.toFabricManager
  dsimp only
  split
  · apply State.emit_tells
    split
    · exact h
    · exact State.fab_tells (State.emit_tells h)
  · split
    · exact State.fab_tells h
    · exact State.fab_tells h

theorem State.postMgr_tells {s t : State} {c d a b : Nat} (h : s.Tells t) : s.Tells (t.postMgr c d a b) := by
  unfold State.postMgr
  dsimp only
  split
  · exact State.toFabricManager_tells (State.post_tells h)
  · exact State.post_tells h

theorem State.postOwner_tells {s t : State} {o c d a b : Nat} (h : s.Tells t) : s.Tells (t.postOwner o c d a b) := State.post_tells h

theorem State.capChangedFn_tells {s t : State} {f : Nat} (h : s.Tells t) : s.Tells (t.capChangedFn f) := State.post_tells (State.setFn_tells h)

theorem State.capChanged_tells {s t : State} {o : Nat} (h : s.Tells t) : s.Tells (t.capChanged o) := State.capChangedFn_tells h

/-- A packet that did not come by the Strongroom's direct window completes. -/
theorem State.complete_tells {s t : State} {pk : Pkt} {st : Status} {d a b : Nat} (h : s.Tells t) (hr : pk.ring ≠ windowRing) :
    s.Tells (t.complete pk st d a b) := by
  unfold State.complete
  dsimp only
  rw [if_neg hr]
  repeat' first
    | with_reducible exact State.flight_tells h
    | with_reducible apply State.toFabricManager_tells
    | with_reducible apply State.pushReply_tells
    | split

theorem State.flushReplies_tells {s t : State} {n f : Nat} (h : s.Tells t) : s.Tells (t.flushReplies n f) := by
  induction n generalizing t with
  | zero => exact h
  | succ n ih =>
    unfold State.flushReplies
    repeat' first
      | with_reducible exact h
      | with_reducible apply ih
      | with_reducible apply State.writeEntry_tells
      | with_reducible apply State.setFn_tells
      | split

theorem State.flushNotices_tells {s t : State} {n f : Nat} (h : s.Tells t) : s.Tells (t.flushNotices n f) := by
  induction n generalizing t with
  | zero => exact h
  | succ n ih =>
    unfold State.flushNotices
    repeat' first
      | with_reducible exact h
      | with_reducible apply ih
      | with_reducible apply State.writeNotice_tells
      | with_reducible apply State.setFn_tells
      | split

theorem State.flushHeld_tells {s t : State} {f : Nat} (h : s.Tells t) : s.Tells (t.flushHeld f) := by
  unfold State.flushHeld
  dsimp only
  repeat' first
    | with_reducible exact h
    | with_reducible apply State.flushNotices_tells
    | with_reducible apply State.flushReplies_tells
    | split

/-- A chain of such writes over a list. -/
theorem foldl_tells {α : Type} {g : State → α → State} {s t : State} (l : List α) (hg : ∀ u x, s.Tells u → s.Tells (g u x)) (h : s.Tells t) :
    s.Tells (l.foldl g t) := by
  induction l generalizing t with
  | nil => exact h
  | cons x r ih => exact ih (hg t x h)

end Sys2Proof.Machine
end

