-- ==== Sys2Proof/Laws/Writes.lean ====
section
/-! SUPPORT. Where a register write goes: what a write that reaches its register does (`State.gated`, `State.regWrite`). -/

namespace Sys2Proof.Machine

theorem State.mgrFn_cases (s : State) : s.mgrFn = 0 ∨ s.mgrFn = 65 := by unfold State.mgrFn; split <;> simp

theorem State.mgrFn_ne_standbyFn (s : State) : s.mgrFn ≠ s.standbyFn := by
  have := s.mgrFn_cases
  unfold State.standbyFn
  omega

theorem State.writerOwner_mgr (s : State) : s.writerOwner s.mgrFn = 0 := by simp [State.writerOwner, State.ownerOf]

/-- A function's write over a link that is up, with the device ACTIVE and the Clerk running, reaches the register. -/
theorem State.gated_of {s : State} {w a : Nat} {f : State → State} (hl : s.linkUp w = true) (hp : s.getF PCU_STATE PCU_STATE_STATE = 3)
    (hc : s.clerkStopped = false ∨ isDoorbell a = true) (hw : w < 66) (ho : w ≠ s.standbyFn ∨ inOwnRings w a = true) : s.gated w a f = f s := by
  have h1 : w ≠ crownWriter := by unfold crownWriter; omega
  unfold State.gated
  rw [if_neg (by simp [h1]), if_neg (by simp [State.arrives, hl, hp]), if_neg (by simp [State.dormant, hp]), if_neg (by rcases hc with h | h <;> simp [h]),
    if_neg (by rcases ho with h | h <;> simp [h])]

/-- A function's write reaches the register. -/
theorem State.Writes.gated {s : State} {w a : Nat} {f : State → State} (h : s.Writes w) : s.gated w a f = f s :=
  State.gated_of h.2.2.1 h.2.2.2.1 (.inl h.2.2.2.2) h.1 (.inl h.2.1)

/-- The write of the owner of a unit reaches the register. -/
theorem State.Writes.regWrite {s : State} {w a o v : Nat} {f : State → State} (h : s.Writes w) (ho : s.writerOwner w = o) : s.regWrite w a o v f = f s := by
  unfold State.regWrite
  rw [h.gated, if_pos ho]

/-- The manager's write of a register of a unit it owns reaches it. -/
theorem State.MgrWrites.regWrite {s : State} {a v : Nat} {f : State → State} (h : s.MgrWrites) : s.regWrite s.mgrFn a 0 v f = f s :=
  State.Writes.regWrite h s.writerOwner_mgr

/-- A write to a check-value unit that is taken. -/
theorem State.CvuWrites.cvuWrite {s : State} {w n a v : Nat} {f : State → State} (h : s.CvuWrites w n) : s.cvuWrite w n a v f = f s := by
  obtain ⟨h1, h2, h3, h4, h5, h6⟩ := h
  unfold State.cvuWrite
  rw [h1.regWrite h2, if_neg (by simp [h3, h4, h5, h6])]

end Sys2Proof.Machine
end

