-- ==== Sys2Proof/Tests/Slice0.lean ====
section
/-! SUPPORT. Small tests: the well-formedness check refuses what it must, and every statement with hypotheses has a state and operands that meet them. -/

namespace Sys2Proof.Tests

open Sys2Proof Sys2Proof.Machine

/-- A packet of a function on its ring 1 with WANT_REPLY, its fields given by offset, size and value. -/
def pkt (fn plen : Nat) (fields : List (Nat × Nat × Nat)) : Pkt :=
  { fn := fn, ring := 1, flags := 2, plen := plen, seq := 7, timeout := 0, rsv := 0
    params := (List.range 48).map (fun k =>
      match fields.find? (fun f => decide (f.1 ≤ k + 16) && decide (k + 16 < f.1 + f.2.1)) with
      | some f => BitVec.ofNat 8 (f.2.2 / 256 ^ (k + 16 - f.1))
      | none => 0) }


end Sys2Proof.Tests
end

section
/-! SUPPORT and the proof of O8: which packets the header checks let through (R60), and SYS_NOP (R68). -/

namespace Sys2Proof.Machine

/-- No check fails exactly when each one holds. -/
theorem firstFail_eq_none_iff {l : List Chk} : firstFail l = none ↔ ∀ c ∈ l, c.ok = true := by
  induction l with
  | nil => simp [firstFail]
  | cons c r ih => by_cases hc : c.ok = true <;> simp [firstFail, hc, ih]

/-- Checks that all hold leave the decision to those after them. -/
theorem firstFail_append {l r : List Chk} (hl : firstFail l = none) : firstFail (l ++ r) = firstFail r := by
  induction l with
  | nil => rfl
  | cons c l ih =>
    have hall := firstFail_eq_none_iff.mp hl
    have hc : c.ok = true := hall c (by simp)
    have hrest : firstFail l = none := firstFail_eq_none_iff.mpr fun d hd => hall d (by simp [hd])
    simp [firstFail, hc, ih hrest]

/-- Only a packet of the right length passes steps 1 to 6. -/
theorem lengthOk_of_headerChecks {c : Cmd} {pk : Pkt} {s : State} (h : firstFail (headerChecks c pk s) = none) :
    lengthOk c pk = true :=
  firstFail_eq_none_iff.mp h ⟨lengthOk c pk, .badLength, 0⟩ (by simp [headerChecks])

/-- A wrong length decides the status when the checks before it hold (step 4). -/
theorem headerChecks_badLength {c : Cmd} {pk : Pkt} {s : State} (hb : firstFail (boundChecks c pk s) = none)
    (ho : offered c s pk.fn = true) (hf : pk.flags.toNat < 8) (hr : pk.rsv = 0) (hl : lengthOk c pk = false) :
    firstFail (headerChecks c pk s) = some (.badLength, 0) := by
  rw [headerChecks, List.append_assoc, firstFail_append hb]
  simp [firstFail, ho, hf, hr, hl]

/-- A command without parameters takes neither a parameter block nor inline parameters. -/
theorem plen_zero_of_lengthOk {c : Cmd} {pk : Pkt} (hp : c.plen = 0) (hb : c.block = none) (h : lengthOk c pk = true) :
    pk.plen = 0 := by
  cases hu : usesBlock pk with
  | true => simp [lengthOk, hu, hb, hp] at h
  | false =>
    obtain ⟨hplen, -⟩ : pk.plen = 0 ∧ allZero (slice pk.params (8 * pk.plen) (48 - 8 * pk.plen)) = true := by
      simpa [lengthOk, hu, hb, hp] using h
    exact hplen

/-- An admitted packet passes steps 1 to 6. -/
theorem State.admitted_headerChecks {s : State} {c : Cmd} {pk : Pkt} {h : Hooks} (ha : s.admitted c pk h = true) :
    firstFail (headerChecks c pk s) = none := by
  simp only [State.admitted, Bool.and_eq_true, Option.isNone_iff_eq_none] at ha
  obtain ⟨⟨⟨⟨⟨-, hhead⟩, -⟩, -⟩, -⟩, -⟩ := ha
  exact hhead

/-- A packet that fails one of steps 1 to 6 is not admitted. -/
theorem State.admitted_false_of_headerFail {s : State} {c : Cmd} {pk : Pkt} {h : Hooks} {e : Status × Nat}
    (he : firstFail (headerChecks c pk s) = some e) : s.admitted c pk h = false :=
  Bool.eq_false_iff.mpr fun ha => by simp [State.admitted_headerChecks ha] at he

/-- A new packet that fails one of steps 1 to 6 completes with that check's status and has no other effect (R60). -/
theorem runPkt_headerFail {c : Cmd} {pk : Pkt} {s : State} {h : Hooks} {eff : List Byte → State → State} {e : Status × Nat}
    (hn : s.flightOf pk = none) (hk : s.clerkRuns = true) (he : firstFail (headerChecks c pk s) = some e) :
    runPkt c pk s h eff = ((s.readBlock pk (some e)).letIn c.op pk [] [] []).complete pk e.1 e.2 := by
  simp [runPkt, hn, hk, he]

/-- What SYS_NOP does is what the shared validation does with its packet (R68). -/
theorem exec_sysNop (pk : Pkt) (s : State) : exec (.sysNop pk) s = .next (runPkt cmdSysNop pk s {} (effSysNop pk)) := rfl

/-- A SYS_NOP of the right length has PLEN 0 (R68). -/
theorem plen_zero_of_lengthOk_sysNop {pk : Pkt} (h : lengthOk cmdSysNop pk = true) : pk.plen = 0 :=
  plen_zero_of_lengthOk rfl rfl h

/-- Settles O8: a SYS_NOP that is let through passes the length check and runs its effect; one with another PLEN fails that check. -/
theorem nopProvesRing : Obligations.NopProvesRing := by
  unfold Obligations.NopProvesRing
  constructor
  · intro pk s t p ha
    have hlen : lengthOk cmdSysNop pk = true := lengthOk_of_headerChecks (State.admitted_headerChecks ha.1)
    refine ⟨plen_zero_of_lengthOk_sysNop hlen, ?_⟩
    rw [exec_sysNop, ha.run, effSysNop]
  · intro pk s hplen hnew hclerk hbound hoffered hflags hrsv
    have hlen : lengthOk cmdSysNop pk = false := Bool.eq_false_iff.mpr fun h => hplen (plen_zero_of_lengthOk_sysNop h)
    have hfail : firstFail (headerChecks cmdSysNop pk s) = some (.badLength, 0) :=
      headerChecks_badLength hbound hoffered hflags hrsv hlen
    refine ⟨State.admitted_false_of_headerFail hfail, ?_⟩
    rw [exec_sysNop, runPkt_headerFail hnew hclerk hfail]
    rfl

end Sys2Proof.Machine

namespace Sys2Proof.Tests

open Sys2Proof Sys2Proof.Machine

/-- The manager's SYS_NOP with PLEN 0 is let through at reset: the first part of O8 applies. -/
theorem test_sysNop_admitted : exec (.sysNop (pkt 0 0 [])) State.reset =
    .next ((State.reset.taken cmdSysNop (pkt 0 0 []) {}).complete (pkt 0 0 []) .ok) :=
  (nopProvesRing.1 (pkt 0 0 []) State.reset _ _ ⟨by decide, rfl, rfl⟩).2

/-- One with PLEN 1 meets every premise of the second part at reset. -/
theorem test_sysNop_badLength : State.reset.admitted cmdSysNop (pkt 0 1 []) {} = false :=
  (nopProvesRing.2 (pkt 0 1 []) State.reset (by decide) rfl (by decide) (by decide) (by decide) (by decide) rfl).1

end Sys2Proof.Tests
end

section
/-! SUPPORT and the proof of O29: what a register write leaves of the others, and the writes of a check-value unit's EXPECT and data
registers (R325, R327). -/

namespace Sys2Proof.Machine

/-- Setting a field leaves every other register as it was. -/
theorem State.reg_setF_ne (s : State) {a b v : Nat} {f : Fld} (h : b ≠ a) : (s.setF a f v).reg b = s.reg b :=
  s.reg_setReg_ne _ h

/-- Writing a register leaves the fields of every other as they were. -/
theorem State.getF_setReg_ne (s : State) {a b v : Nat} {f : Fld} (h : b ≠ a) : (s.setReg a v).getF b f = s.getF b f := by
  simp only [State.getF, s.reg_setReg_ne v h]

/-- A truth value as a number is one bit. -/
theorem b2n_lt_two (b : Bool) : b2n b < 2 := by cases b <;> decide

/-- The state after a unit compared `v` with RESULT (R327). -/
def State.cvuCompare (s : State) (n v : Nat) : State :=
  ((s.setReg (CVU_EXPECT n) v).setF (CVU_STATUS n) CVU_STATUS_MATCH (b2n (decide (v = s.reg (CVU_RESULT n))))).setF
    (CVU_STATUS n) CVU_STATUS_MISMATCH (b2n (!decide (v = s.reg (CVU_RESULT n))))

/-- A write of EXPECT that the unit takes is one comparison (R327). -/
theorem State.CvuWrites.exec_cvuExpectWrite {s : State} {w n v : Nat} (h : s.CvuWrites w n) :
    exec (.cvuExpectWrite w n v) s = .next (s.cvuCompare n v) :=
  congrArg Host.Outcome.next h.cvuWrite

/-- MATCH after a comparison says whether the value equals RESULT; setting MISMATCH does not touch it. -/
theorem State.cvuCompare_match (s : State) (n v : Nat) :
    (s.cvuCompare n v).getF (CVU_STATUS n) CVU_STATUS_MATCH = b2n (decide (v = s.reg (CVU_RESULT n))) := by
  rw [State.cvuCompare, State.getF_setF_field _ (by decide) (by decide) (by decide), State.getF_setF _ (by decide) (by decide)]
  exact Nat.mod_eq_of_lt (b2n_lt_two _)

/-- MISMATCH after a comparison says the opposite of MATCH. -/
theorem State.cvuCompare_mismatch (s : State) (n v : Nat) :
    (s.cvuCompare n v).getF (CVU_STATUS n) CVU_STATUS_MISMATCH = b2n (!decide (v = s.reg (CVU_RESULT n))) := by
  rw [State.cvuCompare, State.getF_setF _ (by decide) (by decide)]
  exact Nat.mod_eq_of_lt (b2n_lt_two _)

/-- A comparison writes EXPECT and STATUS alone. -/
theorem State.cvuCompare_reg_ne (s : State) {n v a : Nat} (he : a ≠ CVU_EXPECT n) (hs : a ≠ CVU_STATUS n) :
    (s.cvuCompare n v).reg a = s.reg a := by
  rw [State.cvuCompare, State.reg_setF_ne _ hs, State.reg_setF_ne _ hs, State.reg_setReg_ne _ _ he]

/-- EXPECT holds the value compared. -/
theorem State.cvuCompare_expect (s : State) {n v : Nat} (hv : v < 2 ^ 32) : (s.cvuCompare n v).reg (CVU_EXPECT n) = v := by
  have hs : CVU_EXPECT n ≠ CVU_STATUS n := by simp [CVU_EXPECT, CVU_STATUS]
  rw [State.cvuCompare, State.reg_setF_ne _ hs, State.reg_setF_ne _ hs, State.reg_setReg, Nat.mod_eq_of_lt hv]

/-- A comparison leaves RESULT as it was. -/
theorem State.cvuCompare_result (s : State) (n v : Nat) : (s.cvuCompare n v).reg (CVU_RESULT n) = s.reg (CVU_RESULT n) :=
  s.cvuCompare_reg_ne (by simp [CVU_RESULT, CVU_EXPECT]) (by simp [CVU_RESULT, CVU_STATUS])

/-- A feed writes VALUE and RESULT and leaves each field of STATUS as it was (R325, R327). -/
theorem State.cvuFeed_status (s : State) (n : Nat) (bs : List Nat) (f : Fld) :
    (s.cvuFeed n bs).getF (CVU_STATUS n) f = s.getF (CVU_STATUS n) f := by
  have hr : CVU_STATUS n ≠ CVU_RESULT n := by simp [CVU_STATUS, CVU_RESULT]
  have hv : CVU_STATUS n ≠ CVU_VALUE n := by simp [CVU_STATUS, CVU_VALUE]
  rw [State.cvuFeed, State.setCvuValue, State.getF_setReg_ne _ hr, State.getF_setReg_ne _ hv]

/-- A write of a data register that the unit takes feeds it bytes and does nothing else (R325). -/
theorem State.CvuWrites.exec_cvuData {s : State} {w n v : Nat} (h : s.CvuWrites w n) {i : Instr}
    (hi : i = .cvuData8 w n v ∨ i = .cvuData16 w n v ∨ i = .cvuData32 w n v) : ∃ bs, exec i s = .next (s.cvuFeed n bs) := by
  rcases hi with rfl | rfl | rfl <;> exact ⟨_, congrArg Host.Outcome.next h.cvuWrite⟩

/-- Settles O29: a write of EXPECT is one comparison with RESULT, and a feed leaves STATUS alone. -/
theorem expectCompares : Obligations.ExpectCompares := by
  unfold Obligations.ExpectCompares
  constructor
  · intro w n v s _ hv hw
    refine ⟨s.cvuCompare n v, hw.exec_cvuExpectWrite, ?_, ?_, s.cvuCompare_expect hv, s.cvuCompare_result n v⟩
    · intro heq
      simp [State.cvuCompare_match, State.cvuCompare_mismatch, heq, b2n]
    · intro hne
      simp [State.cvuCompare_match, State.cvuCompare_mismatch, hne, b2n]
  · intro w n v s _ hw i hi
    obtain ⟨bs, hexec⟩ := hw.exec_cvuData hi
    exact ⟨s.cvuFeed n bs, hexec, s.cvuFeed_status n bs _, s.cvuFeed_status n bs _⟩

end Sys2Proof.Machine

namespace Sys2Proof.Tests

open Sys2Proof Sys2Proof.Machine

/-- The reset state with the manager's link up and the device ACTIVE; every unit is the manager's (R324) and its RESULT is 0. -/
def cvuReady : State := (State.reset.setF (HOST_LINK_STATUS 0) HOST_LINK_STATUS_UP 1).setF PCU_STATE PCU_STATE_STATE 3

/-- The manager's write to the first or to the last unit is taken there. -/
theorem test_cvuReady_writes : cvuReady.CvuWrites 0 0 ∧ cvuReady.CvuWrites 0 31 := by
  unfold State.CvuWrites State.Writes
  decide

/-- The value of RESULT sets MATCH: the first part of O29 applies. -/
theorem test_expect_match : ∃ t, exec (.cvuExpectWrite 0 31 0) cvuReady = .next t ∧
    t.getF (CVU_STATUS 31) CVU_STATUS_MATCH = 1 ∧ t.getF (CVU_STATUS 31) CVU_STATUS_MISMATCH = 0 := by
  obtain ⟨t, hexec, hmatch, -⟩ := expectCompares.1 0 31 0 cvuReady (by decide) (by decide) test_cvuReady_writes.2
  exact ⟨t, hexec, hmatch (by decide)⟩

/-- The largest word sets MISMATCH. -/
theorem test_expect_mismatch : ∃ t, exec (.cvuExpectWrite 0 0 0xFFFFFFFF) cvuReady = .next t ∧
    t.getF (CVU_STATUS 0) CVU_STATUS_MATCH = 0 ∧ t.getF (CVU_STATUS 0) CVU_STATUS_MISMATCH = 1 := by
  obtain ⟨t, hexec, -, hmismatch, -⟩ := expectCompares.1 0 0 0xFFFFFFFF cvuReady (by decide) (by decide) test_cvuReady_writes.1
  exact ⟨t, hexec, hmismatch (by decide)⟩

/-- After a comparison that set MATCH, a byte fed leaves MATCH: the second part of O29 applies. -/
theorem test_feed_after_match : ∃ t, exec (.cvuData8 0 0 0x31) (cvuReady.cvuCompare 0 0) = .next t ∧
    t.getF (CVU_STATUS 0) CVU_STATUS_MATCH = 1 := by
  have hw : (cvuReady.cvuCompare 0 0).CvuWrites 0 0 := by
    unfold State.CvuWrites State.Writes
    decide
  obtain ⟨t, hexec, hmatch, -⟩ := expectCompares.2 0 0 0x31 _ (by decide) hw _ (.inl rfl)
  exact ⟨t, hexec, hmatch.trans (by decide)⟩

end Sys2Proof.Tests
end

section
/-! SUPPORT and the proofs of O1 and O3: what is watched over a command and over a step, and the canonical form of registers and object
memory. -/

namespace Sys2Proof.Machine

/-- What is watched holds of every next state of a command that meets what its kind asks of the watch: a power-on reset or the end of VSAVE a cold
boot, a command that may end the safe state the loss of the main supplies, the entry to the safe state that state, a boot any binding table. -/
theorem exec_keeps {w : Watch} {s : State} (i : Instr) (h : Holds w s) (hc : (∃ c, i = .powerOnReset c) ∨ i = .vsaveExhausted → w.Cold)
    (hl : Obligations.EndsSafeState i → w.Loses) (hs : i = .safeStateEntry → w.safe true)
    (hb : (∃ a b, i = .bootSequence a b) → ∀ b, w.bind b) : NextHolds w (exec i s) := by
  cases i with
  | powerOnReset _ => exact execPowerOnReset_keeps h (hc (by simp))
  | vsaveArmed _ => exact execVsaveArmed_keeps h
  | sagDetected _ _ _ => exact execSagDetected_keeps h
  | perstAssert _ => exact execPerstAssert_keeps h (hl (by simp [Obligations.EndsSafeState]))
  | perstRelease _ => exact execPerstRelease_keeps h
  | functionLevelReset _ _ => exact execFunctionLevelReset_keeps h
  | hostLinkDown _ => exact execHostLinkDown_keeps h
  | hostLinkUp _ _ _ => exact execHostLinkUp_keeps h
  | managerLoss _ => exact execManagerLoss_keeps h
  | mgrBeat _ => exact execMgrBeat_keeps h
  | mgrHandover _ => exact execMgrHandover_keeps h
  | mgrHbPeriodWrite _ _ => exact execMgrHbPeriodWrite_keeps h
  | registerWrite _ _ _ _ => exact execRegisterWrite_keeps h (hl (by simp [Obligations.EndsSafeState]))
  | rcRegisterRead _ _ _ => exact execRcRegisterRead_keeps h
  | d2dLinkRetrain _ _ _ => exact execD2dLinkRetrain_keeps h
  | lowWordReadLatch _ _ => exact execLowWordReadLatch_keeps h
  | sqEnable _ _ _ _ => exact execSqEnable_keeps h
  | sqDisable _ _ _ => exact execSqDisable_keeps h
  | cqEnable _ _ _ => exact execCqEnable_keeps h
  | cqDisable _ _ => exact execCqDisable_keeps h
  | doorbellSq _ _ _ _ => exact execDoorbellSq_keeps h
  | doorbellCq _ _ _ => exact execDoorbellCq_keeps h
  | doorbellMbox _ _ => exact execDoorbellMbox_keeps h
  | mboxFullClear _ _ => exact execMboxFullClear_keeps h
  | clrkFetchPacket _ => exact execClrkFetchPacket_keeps h
  | commandTimeout _ => exact execCommandTimeout_keeps h
  | coalesceTimeout _ => exact execCoalesceTimeout_keeps h
  | sysNop _ => exact execSysNop_keeps h
  | sysGetCaps _ => exact execSysGetCaps_keeps h
  | sysFence _ => exact execSysFence_keeps h
  | sysSlipAcquire _ => exact execSysSlipAcquire_keeps h
  | sysSlipRelease _ => exact execSysSlipRelease_keeps h
  | sysSlipClear _ => exact execSysSlipClear_keeps h
  | sysSlipGrant _ => exact execSysSlipGrant_keeps h
  | sysSlipQuery _ => exact execSysSlipQuery_keeps h
  | instCreate _ => exact execInstCreate_keeps h
  | instResize _ => exact execInstResize_keeps h
  | resizeGraceEnd _ => exact execResizeGraceEnd_keeps h
  | instFreeze _ => exact execInstFreeze_keeps h
  | freezeComplete _ => exact execFreezeComplete_keeps h
  | instSave _ => exact execInstSave_keeps h
  | instRestore _ _ => exact execInstRestore_keeps h
  | instThaw _ => exact execInstThaw_keeps h
  | instDestroy _ => exact execInstDestroy_keeps h
  | destroyComplete _ => exact execDestroyComplete_keeps h
  | instTakeover _ => exact execInstTakeover_keeps h
  | shmAlloc _ => exact execShmAlloc_keeps h
  | shmFree _ => exact execShmFree_keeps h
  | storageDrainComplete _ => exact execStorageDrainComplete_keeps h
  | shmHint _ => exact execShmHint_keeps h
  | shmUpload _ _ => exact execShmUpload_keeps h
  | shmDownload _ _ => exact execShmDownload_keeps h
  | shmQuery _ => exact execShmQuery_keeps h
  | shmAllocSparse _ => exact execShmAllocSparse_keeps h
  | shmSetResidency _ => exact execShmSetResidency_keeps h
  | memSetRegion _ => exact execMemSetRegion_keeps h
  | memSetReserve _ => exact execMemSetReserve_keeps h
  | memLockBank _ => exact execMemLockBank_keeps h
  | memUnlockBank _ => exact execMemUnlockBank_keeps h
  | epochDecisionsPublished _ _ _ _ => exact execEpochDecisionsPublished_keeps h
  | granuleCopyPassDone _ _ => exact execGranuleCopyPassDone_keeps h
  | granuleFlip _ _ => exact execGranuleFlip_keeps h
  | moveReadDrain _ _ => exact execMoveReadDrain_keeps h
  | moveTimeLimit _ _ => exact execMoveTimeLimit_keeps h
  | xdevWaitExpiry _ => exact execXdevWaitExpiry_keeps h
  | remoteSegmentLost _ _ => exact execRemoteSegmentLost_keeps h
  | rndCompile _ => exact execRndCompile_keeps h
  | rndPass _ => exact execRndPass_keeps h
  | partialRender _ _ _ => exact execPartialRender_keeps h
  | passComplete _ _ _ => exact execPassComplete_keeps h
  | rndDispatch _ => exact execRndDispatch_keeps h
  | dispatchComplete _ _ => exact execDispatchComplete_keeps h
  | rndSetArena _ => exact execRndSetArena_keeps h
  | tileWatchdog _ _ => exact execTileWatchdog_keeps h
  | clusterStallTimeout _ => exact execClusterStallTimeout_keeps h
  | bndSetLayer _ => exact execBndSetLayer_keeps h
  | bndFlip _ => exact execBndFlip_keeps h
  | bndSetLut _ => exact execBndSetLut_keeps h
  | bndSetPose _ => exact execBndSetPose_keeps h
  | motionSample _ => exact execMotionSample_keeps h
  | bndComposeLine _ _ => exact execBndComposeLine_keeps h
  | outSetTiming _ => exact execOutSetTiming_keeps h
  | outLinkStopped _ => exact execOutLinkStopped_keeps h
  | outPllLocked _ _ => exact execOutPllLocked_keeps h
  | outLinkTrained _ _ _ => exact execOutLinkTrained_keeps h
  | outTimingStarted _ => exact execOutTimingStarted_keeps h
  | outAux _ _ _ _ => exact execOutAux_keeps h
  | outTimingRegWrite _ _ _ => exact execOutTimingRegWrite_keeps h
  | outAdvanceWrite _ _ _ => exact execOutAdvanceWrite_keeps h
  | outLineStart _ _ _ => exact execOutLineStart_keeps h
  | outLatch _ => exact execOutLatch_keeps h
  | flipPreviousReleased _ => exact execFlipPreviousReleased_keeps h
  | outFrameStart _ => exact execOutFrameStart_keeps h
  | teEdge _ => exact execTeEdge_keeps h
  | tePeriodMissed _ => exact execTePeriodMissed_keeps h
  | hpdPlug _ => exact execHpdPlug_keeps h
  | hpdUnplug _ => exact execHpdUnplug_keeps h
  | hpdIrq _ => exact execHpdIrq_keeps h
  | tolMessage _ => exact execTolMessage_keeps h
  | tolLost _ => exact execTolLost_keeps h
  | escGrant _ _ => exact execEscGrant_keeps h
  | escRoundEnd _ => exact execEscRoundEnd_keeps h
  | escCutoff _ _ _ _ _ _ => exact execEscCutoff_keeps h
  | selfRefreshEntry _ => exact execSelfRefreshEntry_keeps h
  | selfRefreshExit _ _ _ => exact execSelfRefreshExit_keeps h
  | retrainStep _ _ => exact execRetrainStep_keeps h
  | retrainStarved _ => exact execRetrainStarved_keeps h
  | mr4Poll _ _ _ => exact execMr4Poll_keeps h
  | folioInjectArm _ _ => exact execFolioInjectArm_keeps h
  | dramTraining _ _ _ => exact execDramTraining_keeps h
  | collSetWindow _ => exact execCollSetWindow_keeps h
  | collExpect _ => exact execCollExpect_keeps h
  | collAssignUnit _ => exact execCollAssignUnit_keeps h
  | collCompute _ => exact execCollCompute_keeps h
  | cvuStart _ _ => exact execCvuStart_keeps h
  | cvuAlgChange _ _ _ => exact execCvuAlgChange_keeps h
  | cvuData8 _ _ _ => exact execCvuData8_keeps h
  | cvuData16 _ _ _ => exact execCvuData16_keeps h
  | cvuData32 _ _ _ => exact execCvuData32_keeps h
  | cvuValueWrite _ _ _ => exact execCvuValueWrite_keeps h
  | cvuExpectWrite _ _ _ => exact execCvuExpectWrite_keeps h
  | cvuAliveValue _ _ _ => exact execCvuAliveValue_keeps h
  | cvuAliveNext _ _ => exact execCvuAliveNext_keeps h
  | cvuAliveReset _ _ => exact execCvuAliveReset_keeps h
  | windowOutcome _ _ => exact execWindowOutcome_keeps h
  | gpcOutcome _ _ => exact execGpcOutcome_keeps h
  | strgGetInfo _ => exact execStrgGetInfo_keeps h
  | strgSetTelltale _ => exact execStrgSetTelltale_keeps h
  | strgChime _ => exact execStrgChime_keeps h
  | strgHandover _ => exact execStrgHandover_keeps h
  | strgKeyLoad _ => exact execStrgKeyLoad_keeps h
  | strgPermitTiming _ => exact execStrgPermitTiming_keeps h
  | permitExpiry _ => exact execPermitExpiry_keeps h
  | strgReqDoorbell _ => exact execStrgReqDoorbell_keeps h
  | telltaleRefreshExpiry _ => exact execTelltaleRefreshExpiry_keeps h
  | blinkPhaseUpdate _ => exact execBlinkPhaseUpdate_keeps h
  | chimeVoiceFree _ => exact execChimeVoiceFree_keeps h
  | tchSetPanel _ => exact execTchSetPanel_keeps h
  | tchSetRegion _ => exact execTchSetRegion_keeps h
  | tchRecalibrate _ => exact execTchRecalibrate_keeps h
  | tchSetWake _ => exact execTchSetWake_keeps h
  | tchCapture _ => exact execTchCapture_keeps h
  | touchFrameStart _ => exact execTouchFrameStart_keeps h
  | touchFrameEnd _ _ _ _ => exact execTouchFrameEnd_keeps h
  | suspectStableTimeout _ _ => exact execSuspectStableTimeout_keeps h
  | contactStuck _ _ => exact execContactStuck_keeps h
  | touchBaselineSave _ _ => exact execTouchBaselineSave_keeps h
  | wakeScan _ _ _ => exact execWakeScan_keeps h
  | wakePendingClear _ => exact execWakePendingClear_keeps h
  | hapSetChannel _ => exact execHapSetChannel_keeps h
  | hapLoadEffect _ => exact execHapLoadEffect_keeps h
  | hapPlay _ => exact execHapPlay_keeps h
  | hapStop _ => exact execHapStop_keeps h
  | hapCalibrate _ => exact execHapCalibrate_keeps h
  | calibrationComplete _ _ _ _ _ _ => exact execCalibrationComplete_keeps h
  | hapLoopPeriod _ _ => exact execHapLoopPeriod_keeps h
  | vhvSag _ => exact execVhvSag_keeps h
  | vhaptLoss _ => exact execVhaptLoss_keeps h
  | audSetPort _ => exact execAudSetPort_keeps h
  | audSetEndpoint _ => exact execAudSetEndpoint_keeps h
  | audSetNode _ => exact execAudSetNode_keeps h
  | audSetRoute _ => exact execAudSetRoute_keeps h
  | audCommit _ => exact execAudCommit_keeps h
  | audioBlock _ _ _ => exact execAudioBlock_keeps h
  | tdmPortLost _ => exact execTdmPortLost_keeps h
  | tdmPortRelock _ => exact execTdmPortRelock_keeps h
  | pwrVote _ => exact execPwrVote_keeps h
  | pwrSetState _ => exact execPwrSetState_keeps h
  | pwrMemIdlePermit _ => exact execPwrMemIdlePermit_keeps h
  | pwrClearFail _ => exact execPwrClearFail_keeps h
  | pcuWake _ _ => exact execPcuWake_keeps h
  | dormantWriteDrop _ _ => exact execDormantWriteDrop_keeps h
  | domainStepReady _ => exact execDomainStepReady_keeps h
  | domainStepTimeout _ => exact execDomainStepTimeout_keeps h (hl (by simp [Obligations.EndsSafeState]))
  | domainDrop _ => exact execDomainDrop_keeps h
  | pllLockLoss _ _ => exact execPllLockLoss_keeps h
  | fabLinkUp _ _ _ => exact execFabLinkUp_keeps h
  | fabLinkLoss _ => exact execFabLinkLoss_keeps h
  | flitResend _ _ => exact execFlitResend_keeps h
  | flitDiscovery _ _ => exact execFlitDiscovery_keeps h
  | flitObjectRead _ _ => exact execFlitObjectRead_keeps h
  | flitObjectData _ _ => exact execFlitObjectData_keeps h
  | flitObjectWrite _ _ => exact execFlitObjectWrite_keeps h
  | flitWriteAck _ _ => exact execFlitWriteAck_keeps h
  | flitMgmtPacket _ _ _ => exact execFlitMgmtPacket_keeps h
  | flitMgmtReply _ _ _ _ _ => exact execFlitMgmtReply_keeps h
  | flitTime _ _ => exact execFlitTime_keeps h
  | managementWake _ => exact execManagementWake_keeps h
  | fabSetRole _ => exact execFabSetRole_keeps h
  | fabForward _ => exact execFabForward_keeps h
  | fabSetRelay _ => exact execFabSetRelay_keeps h
  | fabWake _ => exact execFabWake_keeps h
  | fabQuery _ => exact execFabQuery_keeps h
  | ledgRead _ => exact execLedgRead_keeps h
  | ledgSetCalendar _ => exact execLedgSetCalendar_keeps h
  | ledgFlush _ => exact execLedgFlush_keeps h
  | ledgGetCalendar _ => exact execLedgGetCalendar_keeps h
  | pmuSetCounter _ => exact execPmuSetCounter_keeps h
  | pmuControl _ => exact execPmuControl_keeps h
  | pmuSetDump _ => exact execPmuSetDump_keeps h
  | pmuSetSamples _ => exact execPmuSetSamples_keeps h
  | pmuDumpPeriod _ _ _ _ => exact execPmuDumpPeriod_keeps h
  | pmuSample _ _ _ _ _ _ _ _ _ _ => exact execPmuSample_keeps h
  | crownId _ => exact execCrownId_keeps h
  | crownChallenge _ => exact execCrownChallenge_keeps h
  | crownResponse _ => exact execCrownResponse_keeps h
  | crownReadReg _ => exact execCrownReadReg_keeps h
  | crownWriteReg _ => exact execCrownWriteReg_keeps h (hl (by simp [Obligations.EndsSafeState]))
  | crownReadMem _ => exact execCrownReadMem_keeps h
  | crownWriteMem _ => exact execCrownWriteMem_keeps h
  | crownEnd _ => exact execCrownEnd_keeps h
  | dbgCoreHalt _ _ => exact execDbgCoreHalt_keeps h
  | dbgCoreResume _ => exact execDbgCoreResume_keeps h
  | dbgCoreStep _ _ => exact execDbgCoreStep_keeps h
  | clerkBreakpointHit _ _ => exact execClerkBreakpointHit_keeps h
  | shaderBreakpointHit _ _ _ _ _ => exact execShaderBreakpointHit_keeps h
  | dbgVoteWrite _ => exact execDbgVoteWrite_keeps h
  | errorRecord _ _ _ _ _ _ _ _ => exact execErrorRecord_keeps h
  | errorAck _ _ => exact execErrorAck_keeps h
  | errorAckAll _ => exact execErrorAckAll_keeps h
  | clerkCoreException _ _ _ => exact execClerkCoreException_keeps h
  | clerkRestart _ _ _ => exact execClerkRestart_keeps h
  | supplyMonitorTrip _ _ _ => exact execSupplyMonitorTrip_keeps h
  | thermalTrip _ => exact execThermalTrip_keeps h
  | recoveryReset _ _ => exact execRecoveryReset_keeps h (hl (by simp [Obligations.EndsSafeState]))
  | bootSequence _ _ => exact execBootSequence_keeps h (hb (by simp)) (hl (by simp [Obligations.EndsSafeState]))
  | xspiOwnRelease _ _ => exact execXspiOwnRelease_keeps h
  | fwStage _ _ _ => exact execFwStage_keeps h
  | fwSwitch _ => exact execFwSwitch_keeps h
  | tdmFsEdge _ _ => exact execTdmFsEdge_keeps h
  | vhvSagEnd _ => exact execVhvSagEnd_keeps h
  | vhaptRestored _ => exact execVhaptRestored_keeps h
  | clerkRestartComplete _ => exact execClerkRestartComplete_keeps h
  | xtal32Qualified => exact execXtal32Qualified_keeps h
  | xtal32QualifyTimeout => exact execXtal32QualifyTimeout_keeps h
  | vsaveArmTimeout => exact execVsaveArmTimeout_keeps h
  | vddaoRecovered => exact execVddaoRecovered_keeps h
  | vsaveExhausted => exact execVsaveExhausted_keeps h (hc (by simp))
  | ledgerPeriodicUpdate => exact execLedgerPeriodicUpdate_keeps h
  | wearSaveBufferAdd => exact execWearSaveBufferAdd_keeps h
  | retrainHourRecord => exact execRetrainHourRecord_keeps h
  | managerLossCleared => exact execManagerLossCleared_keeps h
  | placementEpoch => exact execPlacementEpoch_keeps h
  | epochOverrun => exact execEpochOverrun_keeps h
  | arenaChunkFreed => exact execArenaChunkFreed_keeps h
  | poseStale => exact execPoseStale_keeps h
  | scrubPeriodEnd => exact execScrubPeriodEnd_keeps h
  | handoverQuiesced => exact execHandoverQuiesced_keeps h
  | boostUp => exact execBoostUp_keeps h
  | drainComplete => exact execDrainComplete_keeps h
  | wakeFromDormant => exact execWakeFromDormant_keeps h
  | wakeFromHairspring => exact execWakeFromHairspring_keeps h
  | refclkStop => exact execRefclkStop_keeps h
  | fabricConverged => exact execFabricConverged_keeps h
  | fabricTimeHold => exact execFabricTimeHold_keeps h
  | crownAuthVerified => exact execCrownAuthVerified_keeps h
  | crownSessionTimeout => exact execCrownSessionTimeout_keeps h
  | crownLockoutEnd => exact execCrownLockoutEnd_keeps h
  | dbgStrgHalt => exact execDbgStrgHalt_keeps h
  | dbgStrgResume => exact execDbgStrgResume_keeps h
  | strgWatchdogExpiry => exact execStrgWatchdogExpiry_keeps h
  | safeStateEntry => exact execSafeStateEntry_keeps h (hs rfl)
  | rollbackRaise => exact execRollbackRaise_keeps h
  | strongroomSwitchTimeout => exact execStrongroomSwitchTimeout_keeps h
  | refclkHoldoverEnd => exact execRefclkHoldoverEnd_keeps h
  | takeoverComplete => exact execTakeoverComplete_keeps h
  | fwSwitchComplete => exact execFwSwitchComplete_keeps h
  | stateEntryComplete => exact execStateEntryComplete_keeps h (hl (by simp [Obligations.EndsSafeState]))

/-- A watch that lets everything but the queue be anything: what is left is the canonical form. -/
def Watch.form (q : List Instr) : Watch := ⟨q, fun _ => True, fun _ => True, fun _ => True⟩

theorem Watch.form_cold (q : List Instr) : (Watch.form q).Cold := ⟨trivial, trivial, trivial⟩

theorem State.Inv.holds_form {s : State} (h : s.Inv) : Holds (Watch.form s.pending) s := ⟨h, rfl, trivial, trivial, trivial⟩

/-- Every command keeps the canonical form. -/
theorem State.Inv.exec {s t : State} {i : Instr} (h : s.Inv) (e : exec i s = .next t) : t.Inv :=
  (exec_keeps i h.holds_form (fun _ => Watch.form_cold _) (fun _ => (Watch.form_cold _).loses) (fun _ => trivial) (fun _ _ => trivial) t e).inv

/-- The passage of time keeps the canonical form. -/
theorem State.Inv.tick {s : State} (h : s.Inv) : s.tick.Inv := (State.tick_keeps h.holds_form (fun _ _ => trivial)).inv

/-- Settles O1: at reset the register file and the object memory list nothing. -/
theorem resetInvariant : Obligations.ResetInvariant := by
  unfold Obligations.ResetInvariant
  exact ⟨tabWf_nil resetValue, tabWf_nil unwritten⟩

/-- Settles O3: a step is the command at the front of the queue, or the passage of time, and each keeps the canonical form. -/
theorem stepKeepsInvariant : Obligations.StepKeepsInvariant := by
  unfold Obligations.StepKeepsInvariant
  intro s t h e
  unfold step at e
  split at e
  next => exact Host.Outcome.next.inj e ▸ h.tick
  next c r _ =>
    have hrest : ({ s with pending := r } : State).Inv := h
    exact hrest.exec e

end Sys2Proof.Machine

namespace Sys2Proof.Tests

open Sys2Proof Sys2Proof.Machine

/-- O3 applies to the reset state, which O1 shows to be in canonical form: a power-on reset at the front of the queue leaves it so. -/
theorem test_step_powerOnReset : ∀ t, step { State.reset with pending := [.powerOnReset true] } = .next t → t.Inv :=
  fun t e => stepKeepsInvariant { State.reset with pending := [.powerOnReset true] } t resetInvariant e

end Sys2Proof.Tests
end

section
/-! SUPPORT and the proofs of O9, O10 and O11: the first failing check of a header (R60), the frame of replies and notices (R56 to R59), and reads
after writes of registers (R13, R15). -/

namespace Sys2Proof.Machine

/-- The first check that fails is the one that decides. -/
theorem firstFail_cons_false {c : Chk} {r : List Chk} (hc : c.ok = false) : firstFail (c :: r) = some (c.st, c.detail) := by
  simp [firstFail, hc]

/-- A check that holds leaves the decision to those after it. -/
theorem firstFail_cons_true {c : Chk} {r : List Chk} (hc : c.ok = true) : firstFail (c :: r) = firstFail r := by
  simp [firstFail, hc]

/-- Steps 1 to 6 once a packet is bound and its opcode offered: what is left are the packet's own words and its block. -/
theorem headerChecks_ofOffered {c : Cmd} {pk : Pkt} {s : State} (hb : firstFail (boundChecks c pk s) = none) (ho : offered c s pk.fn = true) :
    firstFail (headerChecks c pk s) = firstFail ([⟨decide (pk.flags.toNat < 8), .outOfRange, 0xFF01⟩, ⟨decide (pk.rsv = 0), .outOfRange, 0xFF02⟩,
      ⟨lengthOk c pk, .badLength, 0⟩, ⟨decide (pk.timeout ≤ 60000000), .outOfRange, 0xFF03⟩] ++
        if pk.fn = fabricFn then [] else blockChecks pk s) := by
  rw [headerChecks, List.append_assoc, firstFail_append hb]
  exact firstFail_cons_true ho

/-- Settles O9: a packet command is the shared validation, which ends a new packet with the first of its header checks that fails; the four checks of
SHM_ALLOC stand in their order. -/
theorem headerOrder : Obligations.HeaderOrder := by
  unfold Obligations.HeaderOrder
  constructor
  · intro pk s e hnew hclerk
    exact ⟨fun he => congrArg Host.Outcome.next (runPkt_headerFail hnew hclerk he), fun he => congrArg Host.Outcome.next (runPkt_headerFail hnew hclerk he),
      fun he => congrArg Host.Outcome.next (runPkt_headerFail hnew hclerk he), fun he => congrArg Host.Outcome.next (runPkt_headerFail hnew hclerk he),
      fun he => congrArg Host.Outcome.next (runPkt_headerFail hnew hclerk he)⟩
  · intro pk s hbound hoffered
    rw [headerChecks_ofOffered hbound hoffered]
    refine ⟨fun hf => ?_, fun hf hr => ?_, fun hf hr hl => ?_, fun hf hr hl ht => ?_⟩
    · exact firstFail_cons_false (decide_eq_false (Nat.not_lt.mpr hf))
    · rw [List.cons_append, firstFail_cons_true (decide_eq_true hf)]
      exact firstFail_cons_false (decide_eq_false hr)
    · rw [List.cons_append, firstFail_cons_true (decide_eq_true hf), List.cons_append, firstFail_cons_true (decide_eq_true hr)]
      exact firstFail_cons_false hl
    · rw [List.cons_append, firstFail_cons_true (decide_eq_true hf), List.cons_append, firstFail_cons_true (decide_eq_true hr), List.cons_append,
        firstFail_cons_true hl]
      exact firstFail_cons_false (decide_eq_false (Nat.not_le.mpr ht))

/-- Settles O10: each law of Laws/Tells, and what the frame they share says of the parts of the state. -/
theorem repliesOnlyTell : Obligations.RepliesOnlyTell := by
  unfold Obligations.RepliesOnlyTell
  refine ⟨fun s pk st d a b hr => State.complete_tells (State.Tells.refl s) hr, fun s f c d a b => ?_, fun s t h => ?_⟩
  · exact ⟨State.post_tells (State.Tells.refl s), State.postMgr_tells (State.Tells.refl s), State.postOwner_tells (State.Tells.refl s)⟩
  · obtain ⟨hframe, -, hregs⟩ := h
    rw [hframe]
    exact ⟨rfl, rfl, rfl, rfl, rfl, rfl, rfl, rfl, hregs⟩

/-- Settles O11, by the laws of fields: the field itself, one that does not overlap it, another register. -/
theorem registerReadsBack : Obligations.RegisterReadsBack := by
  unfold Obligations.RegisterReadsBack
  intro s a v f g hlo hhi
  exact ⟨s.getF_setF hlo hhi, s.getF_setF_field hlo hhi, fun b hb => s.reg_setF_ne hb, rfl⟩

end Sys2Proof.Machine

namespace Sys2Proof.Tests

open Sys2Proof Sys2Proof.Machine

/-- The reset state's Clerk runs, and the manager's SHM_ALLOC with a TIMEOUT one above the largest meets every premise of the last check of O9. -/
theorem test_headerOrder_timeout : firstFail (headerChecks cmdShmAlloc { pkt 0 4 [] with timeout := 60000001 } State.reset) = some (.outOfRange, 0xFF03) :=
  (headerOrder.2 _ State.reset (by decide) (by decide)).2.2.2 (by decide) rfl (by decide) (by decide)

/-- And it ends with that status. -/
theorem test_headerOrder_ends : ∃ t : State, exec (.shmAlloc { pkt 0 4 [] with timeout := 60000001 }) State.reset = .next (t.complete
    { pkt 0 4 [] with timeout := 60000001 } .outOfRange 0xFF03) :=
  ⟨_, (headerOrder.1 { pkt 0 4 [] with timeout := 60000001 } State.reset (.outOfRange, 0xFF03) (by decide) rfl).1 test_headerOrder_timeout⟩

/-- A packet fetched from ring 1 did not come by the direct window: the first part of O10 applies. -/
theorem test_complete_tells : State.reset.Tells (State.reset.complete (pkt 0 0 []) .ok) :=
  repliesOnlyTell.1 State.reset (pkt 0 0 []) .ok 0 0 0 (by decide)

end Sys2Proof.Tests
end

section
/-! SUPPORT and the proof of O12: what a finite map reads after a run of keys is put or dropped, and the bytes of an object after a write of whole
beats (R168, R170; objects are 2^40 cells apart, assumption 6). -/

namespace Sys2Proof.Machine

variable {α : Type}

/-- A key that is not listed reads as the default. -/
theorem tabGet_of_unlisted {d : Nat → α} {m : Tab α} {k : Nat} (h : ∀ p ∈ m, p.1 ≠ k) : tabGet d m k = d k := by
  induction m with
  | nil => rfl
  | cons a r ih =>
    obtain ⟨k', v⟩ := a
    have hk : k' ≠ k := h (k', v) (by simp)
    simp [tabGet, hk, ih fun p hp => h p (by simp [hp])]

/-- What the first of two maps does not list is read in the second. -/
theorem tabGet_append_right {d : Nat → α} {l : Tab α} (r : Tab α) {k : Nat} (h : ∀ p ∈ l, p.1 ≠ k) : tabGet d (l ++ r) k = tabGet d r k := by
  induction l with
  | nil => rfl
  | cons a l ih =>
    obtain ⟨k', v⟩ := a
    have hk : k' ≠ k := h (k', v) (by simp)
    simp [tabGet, hk, ih fun p hp => h p (by simp [hp])]

/-- What the second of two maps does not list is read in the first. -/
theorem tabGet_append_left {d : Nat → α} (l : Tab α) {r : Tab α} {k : Nat} (h : ∀ p ∈ r, p.1 ≠ k) : tabGet d (l ++ r) k = tabGet d l k := by
  induction l with
  | nil => exact tabGet_of_unlisted h
  | cons a l ih => simp [tabGet, ih]

/-- A map cut down to some of its keys. -/
theorem tabGet_filter_key (d : Nat → α) (m : Tab α) (p : Nat → Bool) (k : Nat) :
    tabGet d (m.filter (fun q => p q.1)) k = if p k then tabGet d m k else d k := by
  induction m with
  | nil => simp [tabGet]
  | cons a r ih =>
    obtain ⟨k', v⟩ := a
    by_cases hp : p k' = true
    · by_cases hk : k' = k
      · subst hk; simp [hp, tabGet]
      · simp [hp, tabGet, hk, ih]
    · by_cases hk : k' = k
      · subst hk; simp [hp, ih]
      · simp [hp, tabGet, hk, ih]

/-- A key that is dropped reads as the default, every other as before. -/
theorem tabGet_dropRange (d : Nat → α) (m : Tab α) (lo hi k : Nat) :
    tabGet d (tabDropRange m lo hi) k = if lo ≤ k ∧ k < hi then d k else tabGet d m k := by
  rw [tabDropRange, tabGet_filter_key d m (fun k => !(decide (lo ≤ k) && decide (k < hi))) k]
  by_cases h : lo ≤ k ∧ k < hi
  · simp [h]
  · rw [if_neg h, if_pos (by simp only [← Bool.decide_and, ← decide_not]; exact decide_eq_true h)]

variable [DecidableEq α]

/-- The run that `tabPut` lists reads the values of the list at its keys. -/
theorem tabGet_run (d : Nat → α) (vs : List α) (lo k : Nat) :
    tabGet d (((vs.zipIdx lo).map (fun x => (x.2, x.1))).filter (fun p => decide (p.2 ≠ d p.1))) k =
      if lo ≤ k then vs.getD (k - lo) (d k) else d k := by
  induction vs generalizing lo with
  | nil => simp [tabGet]
  | cons a r ih =>
    have hrest := ih (lo + 1)
    simp only [ne_eq, decide_not] at hrest
    rcases Nat.lt_trichotomy k lo with hk | hk | hk
    · by_cases ha : a = d lo <;> simp [ha, tabGet, hrest, show ¬ lo ≤ k by omega, show ¬ lo + 1 ≤ k by omega, show lo ≠ k by omega]
    · subst hk
      by_cases ha : a = d k <;> simp [ha, tabGet, hrest]
    · have hpos : k - lo = k - (lo + 1) + 1 := by omega
      by_cases ha : a = d lo <;>
        simp [ha, tabGet, hrest, hpos, show lo ≤ k by omega, show lo + 1 ≤ k by omega, show lo ≠ k by omega]

/-- A map after values are put at the keys from `lo` on. -/
theorem tabGet_put (d : Nat → α) (m : Tab α) (lo : Nat) (vs : List α) (k : Nat) :
    tabGet d (tabPut d m lo vs) k = if lo ≤ k ∧ k < lo + vs.length then vs.getD (k - lo) (d k) else tabGet d m k := by
  have hlow := tabGet_filter_key d m (fun k => decide (k < lo)) k
  have hhigh := tabGet_filter_key d m (fun k => decide (lo + vs.length ≤ k)) k
  have hrun : ∀ p ∈ ((vs.zipIdx lo).map (fun x => (x.2, x.1))).filter (fun p => decide (p.2 ≠ d p.1)), lo ≤ p.1 ∧ p.1 < lo + vs.length :=
    fun p hp => (pairwise_zipIdx vs lo).2 p (List.mem_of_mem_filter hp)
  unfold tabPut
  have hbelow : ∀ p ∈ m.filter (fun p => decide (p.1 < lo)), p.1 < lo := fun p hp => of_decide_eq_true (List.mem_filter.1 hp).2
  have habove : ∀ p ∈ m.filter (fun p => decide (lo + vs.length ≤ p.1)), lo + vs.length ≤ p.1 :=
    fun p hp => of_decide_eq_true (List.mem_filter.1 hp).2
  rcases Nat.lt_or_ge k lo with hk | hk
  · have hlater : ∀ p ∈ ((vs.zipIdx lo).map (fun x => (x.2, x.1))).filter (fun p => decide (p.2 ≠ d p.1)) ++
        m.filter (fun p => decide (lo + vs.length ≤ p.1)), p.1 ≠ k := by
      intro p hp
      rcases List.mem_append.1 hp with hp | hp
      · have := hrun p hp; omega
      · have := habove p hp; omega
    rw [tabGet_append_left _ hlater, hlow, if_pos (decide_eq_true hk), if_neg (by omega)]
  · rw [tabGet_append_right _ (fun p hp => by have := hbelow p hp; omega)]
    rcases Nat.lt_or_ge k (lo + vs.length) with hk' | hk'
    · rw [tabGet_append_left _ (fun p hp => by have := habove p hp; omega), tabGet_run, if_pos hk, if_pos ⟨hk, hk'⟩]
    · rw [tabGet_append_right _ (fun p hp => by have := hrun p hp; omega), hhigh, if_pos (decide_eq_true hk'), if_neg (by omega)]

/-! ### Writes of whole beats -/

/-- A mirrored write goes out and changes nothing else. -/
theorem State.forwardWrite_eq (s : State) (i off : Nat) (bs : List Byte) : ∃ o, s.forwardWrite i off bs = { s with out := o } := by
  have hfold : ∀ (l : List Nat) (h : Nat) (t : State), ∃ o,
      l.foldl (fun (t : State) p => t.emit (.mirrorWrite p h off bs)) t = { t with out := o } := by
    intro l h
    induction l with
    | nil => exact fun t => ⟨t.out, rfl⟩
    | cons p l ih => exact fun t => (ih (t.emit (.mirrorWrite p h off bs)))
  unfold State.forwardWrite
  split
  · exact hfold _ _ _
  · exact ⟨s.out, rfl⟩

/-- A write keeps the bytes, drops the errors of the beats it covers whole, and marks the Shelfmark Table and the moves. -/
theorem State.writeObj_eq (s : State) (i off : Nat) (bs : List Byte) : ∃ o h, s.writeObj i off bs =
    { s with out := o, shm := h, mem := { (s.putBytes i off bs).mem with
        errors := tabDropRange s.mem.errors (cellAddr i (32 * ceilDiv off 32) / 32) (cellAddr i (off + bs.length) / 32) } } := by
  obtain ⟨o, ho⟩ := ((s.putBytes i off bs).touch i off bs.length).forwardWrite_eq i off bs
  unfold State.writeObj
  rw [ho]
  exact ⟨o, _, rfl⟩

/-- A byte of an object after a write: what was stored there, and the errors of the beats that are left. -/
theorem State.writeObj_objByte (s : State) (i off : Nat) (bs : List Byte) (j o : Nat) :
    (s.writeObj i off bs).objByte j o =
      (if cellAddr i off ≤ cellAddr j o ∧ cellAddr j o < cellAddr i off + bs.length then
          ((bs.zipIdx off).map (fun x => x.1 ^^^ s.openByte i x.2)).getD (cellAddr j o - cellAddr i off) (unwritten (cellAddr j o))
        else tabGet unwritten s.mem.data (cellAddr j o)) ^^^ s.openByte j o ^^^
      (residual (if cellAddr i (32 * ceilDiv off 32) / 32 ≤ cellAddr j o / 32 ∧ cellAddr j o / 32 < cellAddr i (off + bs.length) / 32 then []
        else tabGet (fun _ => []) s.mem.errors (cellAddr j o / 32))).getD (o % 32) 0 := by
  obtain ⟨out, shm, h⟩ := s.writeObj_eq i off bs
  have hput := tabGet_put unwritten s.mem.data (cellAddr i off) ((bs.zipIdx off).map (fun x => x.1 ^^^ s.openByte i x.2)) (cellAddr j o)
  have hdrop := tabGet_dropRange (fun _ => ([] : List Byte)) s.mem.errors (cellAddr i (32 * ceilDiv off 32) / 32) (cellAddr i (off + bs.length) / 32)
    (cellAddr j o / 32)
  rw [List.length_map, List.length_zipIdx] at hput
  rw [h]
  simp only [State.objByte, State.putBytes, hput, hdrop]
  rfl

/-- A byte that was written reads as written, whatever errors its beat held. -/
theorem State.writeObj_objByte_inside (s : State) {i off k : Nat} {bs : List Byte} (hoff : off % 32 = 0) (hlen : bs.length % 32 = 0)
    (hk : k < bs.length) : (s.writeObj i off bs).objByte i (off + k) = bs.getD k 0 := by
  have hcell : cellAddr i (off + k) = cellAddr i off + k := by simp only [cellAddr]; omega
  have hbeat : cellAddr i (32 * ceilDiv off 32) / 32 ≤ cellAddr i (off + k) / 32 ∧ cellAddr i (off + k) / 32 < cellAddr i (off + bs.length) / 32 := by
    simp only [cellAddr, ceilDiv]; omega
  have hval : ((bs.zipIdx off).map (fun x => x.1 ^^^ s.openByte i x.2)).getD k (unwritten (cellAddr i off + k)) = bs[k] ^^^ s.openByte i (off + k) := by
    rw [List.getD_eq_getElem _ _ (by simpa using hk)]
    simp
  rw [s.writeObj_objByte, if_pos hbeat, hcell, if_pos ⟨by omega, by omega⟩, Nat.add_sub_cancel_left, hval,
    BitVec.xor_assoc (bs[k]), BitVec.xor_self, BitVec.xor_zero, List.getD_eq_getElem _ _ hk]
  simp [residual]

/-- A byte outside the range written reads as before. -/
theorem State.writeObj_objByte_outside (s : State) {i off j o : Nat} {bs : List Byte} (hoff : off % 32 = 0) (hlen : bs.length % 32 = 0)
    (hend : off + bs.length ≤ 2 ^ 40) (ho : o < 2 ^ 40) (hout : j ≠ i ∨ o < off ∨ off + bs.length ≤ o) :
    (s.writeObj i off bs).objByte j o = s.objByte j o := by
  have hcell : ¬ (cellAddr i off ≤ cellAddr j o ∧ cellAddr j o < cellAddr i off + bs.length) := by
    simp only [cellAddr]; omega
  have hbeat : ¬ (cellAddr i (32 * ceilDiv off 32) / 32 ≤ cellAddr j o / 32 ∧ cellAddr j o / 32 < cellAddr i (off + bs.length) / 32) := by
    simp only [cellAddr, ceilDiv]; omega
  rw [s.writeObj_objByte, if_neg hcell, if_neg hbeat, State.objByte]

/-- Settles O12: the bytes written read back, every byte outside their beats reads as before, and no register changes. -/
theorem memoryReadsBack : Obligations.MemoryReadsBack := by
  unfold Obligations.MemoryReadsBack
  intro s i off bs hoff hlen hend
  refine ⟨fun k hk => s.writeObj_objByte_inside hoff hlen hk, fun j o ho hout => s.writeObj_objByte_outside hoff hlen hend ho hout, ?_⟩
  obtain ⟨out, shm, h⟩ := s.writeObj_eq i off bs
  rw [h]

end Sys2Proof.Machine

namespace Sys2Proof.Tests

open Sys2Proof Sys2Proof.Machine

/-- The second beat of object 3, written over a stored error of that beat, reads as written. -/
theorem test_write_over_error :
    ((State.reset.setBeatError 3 1 (List.replicate 35 7)).writeObj 3 32 (List.replicate 32 9)).objByte 3 (32 + 31) = 9 :=
  (memoryReadsBack _ 3 32 (List.replicate 32 9) (by decide) (by decide) (by decide)).1 31 (by decide)

end Sys2Proof.Tests
end

section
/-! SUPPORT and the proof of O30: the width of the check-value algorithms (Table 11.2), and feeds in pieces (R323, R325). -/

namespace Sys2Proof.Machine

/-- A row whose polynomial lies inside its width, which holds a byte. -/
structure CrcAlg.Fits (a : CrcAlg) : Prop where
  width : 8 ≤ a.width
  poly : a.poly < 2 ^ a.width

/-- Every row of Table 11.2 is so. -/
theorem crcAlg_fits (alg : Nat) : (crcAlg alg).Fits := by
  unfold crcAlg
  split <;> exact ⟨by decide, by decide⟩

/-- A bit step stays inside the width. -/
theorem CrcAlg.Fits.shift_lt {a : CrcAlg} (h : a.Fits) {v : Nat} (hv : v < 2 ^ a.width) : a.shift v < 2 ^ a.width := by
  have hhalf : v / 2 < 2 ^ a.width := lt_of_le_of_lt (Nat.div_le_self v 2) hv
  have hdouble : (2 * v) % 2 ^ a.width < 2 ^ a.width := Nat.mod_lt _ (Nat.two_pow_pos _)
  unfold CrcAlg.shift
  split
  · split
    · exact Nat.xor_lt_two_pow hhalf h.poly
    · exact hhalf
  · split
    · exact Nat.xor_lt_two_pow hdouble h.poly
    · exact hdouble

/-- So do `n` bit steps. -/
theorem CrcAlg.Fits.shifts_lt {a : CrcAlg} (h : a.Fits) {n v : Nat} (hv : v < 2 ^ a.width) : a.shifts n v < 2 ^ a.width := by
  induction n generalizing v with
  | zero => exact hv
  | succ n ih => exact ih (h.shift_lt hv)

/-- A byte fed leaves a value inside the width. -/
theorem CrcAlg.Fits.feed_lt {a : CrcAlg} (h : a.Fits) {v b : Nat} (hv : v < 2 ^ a.width) (hb : b < 256) : a.feed v b < 2 ^ a.width := by
  have hsplit : 2 ^ a.width = 256 * 2 ^ (a.width - 8) := by
    rw [show 256 = 2 ^ 8 from rfl, ← Nat.pow_add, Nat.add_sub_of_le h.width]
  have htop : b * 2 ^ (a.width - 8) < 2 ^ a.width := by
    rw [hsplit]; exact Nat.mul_lt_mul_of_pos_right hb (Nat.two_pow_pos _)
  have hlow : b < 2 ^ a.width := lt_of_lt_of_le hb (Nat.pow_le_pow_right Nat.two_pos h.width)
  apply h.shifts_lt
  split
  · exact Nat.xor_lt_two_pow hv hlow
  · exact Nat.xor_lt_two_pow hv htop

/-- Bytes fed leave a value inside the width. -/
theorem crcFeed_lt (alg : Nat) {v : Nat} {bs : List Nat} (hv : v < 2 ^ (crcAlg alg).width) (hbs : ∀ b ∈ bs, b < 256) :
    crcFeed alg v bs < 2 ^ (crcAlg alg).width := by
  induction bs generalizing v with
  | nil => exact hv
  | cons b r ih => exact ih ((crcAlg_fits alg).feed_lt hv (hbs b (by simp))) fun c hc => hbs c (by simp [hc])

/-- Feeding one list and then another is feeding both joined. -/
theorem crcFeed_append (alg v : Nat) (a b : List Nat) : crcFeed alg v (a ++ b) = crcFeed alg (crcFeed alg v a) b :=
  List.foldl_append

/-- VALUE after a new running value. -/
theorem State.setCvuValue_value (s : State) (n v : Nat) : (s.setCvuValue n v).reg (CVU_VALUE n) = v % 2 ^ 32 := by
  rw [State.setCvuValue, State.reg_setReg_ne _ _ (by simp [CVU_VALUE, CVU_RESULT]), State.reg_setReg]

/-- RESULT follows it. -/
theorem State.setCvuValue_result (s : State) (n v : Nat) : (s.setCvuValue n v).reg (CVU_RESULT n) = crcResult (s.cvuAlg n) v % 2 ^ 32 := by
  rw [State.setCvuValue, State.reg_setReg]

/-- A new running value leaves the algorithm as it was. -/
theorem State.setCvuValue_alg (s : State) (n v : Nat) : (s.setCvuValue n v).cvuAlg n = s.cvuAlg n := by
  simp only [State.cvuAlg, State.setCvuValue]
  rw [State.getF_setReg_ne _ (by simp [CVU_CFG, CVU_RESULT]), State.getF_setReg_ne _ (by simp [CVU_CFG, CVU_VALUE])]

/-- Settles O30: the second feed starts from the VALUE the first one left, which the register holds in full. -/
theorem feedsConcatenate : Obligations.FeedsConcatenate := by
  unfold Obligations.FeedsConcatenate
  refine ⟨fun n a b s _ ha => ?_, fun alg v bs _ hv hbs => crcFeed_lt alg hv hbs⟩
  have hvalue : (s.cvuFeed n a).reg (CVU_VALUE n) = crcFeed (s.cvuAlg n) (s.reg (CVU_VALUE n)) a := by
    rw [State.cvuFeed, State.setCvuValue_value, Nat.mod_eq_of_lt ha]
  have halg : (s.cvuFeed n a).cvuAlg n = s.cvuAlg n := s.setCvuValue_alg n _
  have hfed : crcFeed ((s.cvuFeed n a).cvuAlg n) ((s.cvuFeed n a).reg (CVU_VALUE n)) b = crcFeed (s.cvuAlg n) (s.reg (CVU_VALUE n)) (a ++ b) := by
    rw [hvalue, halg, crcFeed_append]
  constructor
  · rw [State.cvuFeed, State.setCvuValue_value, hfed, State.cvuFeed, State.setCvuValue_value]
  · rw [State.cvuFeed, State.setCvuValue_result, hfed, halg, State.cvuFeed, State.setCvuValue_result]

end Sys2Proof.Machine

namespace Sys2Proof.Tests

open Sys2Proof Sys2Proof.Machine

/-- The four bytes of a word fed to unit 0 as at reset (CRC-32C from 0) in two halves: the premise of the first part of O30 holds by the second. -/
theorem test_feed_halves : ((State.reset.cvuFeed 0 [0x31, 0x32]).cvuFeed 0 [0x33, 0xFF]).reg (CVU_RESULT 0) =
    (State.reset.cvuFeed 0 [0x31, 0x32, 0x33, 0xFF]).reg (CVU_RESULT 0) :=
  (feedsConcatenate.1 0 [0x31, 0x32] [0x33, 0xFF] State.reset (by decide)
    (lt_of_lt_of_le (feedsConcatenate.2 (State.reset.cvuAlg 0) _ _ (by decide) (by decide) (by decide)) (by decide))).2

end Sys2Proof.Tests
end

section
/-! SUPPORT and the proof of O31: the registers of a check-value unit (R323 to R330). -/

namespace Sys2Proof.Machine

/-- A packet that is let through answers the state its effect leaves. -/
theorem State.Accepts.next {c : Cmd} {pk : Pkt} {s t : State} {h : Hooks} {p : List Byte} (ha : s.Accepts c pk h p t) {eff : List Byte → State → State}
    {u : State} (he : eff p t = u) : (Host.Outcome.next (runPkt c pk s h eff) : Host.Outcome State Fault Refusal) = .next u := by
  rw [ha.run, he]

/-- A bit of a number, by division. -/
theorem bit_eq_decide (v n : Nat) : bit v n = decide (v / 2 ^ n % 2 = 1) := Nat.testBit_eq_decide_div_mod_eq

/-- A write of CFG that the unit takes, in range: ALG, BE, MAXD and WRAP as written, a start where START is set or ALG changes, the alive counter
reset where ALIVE_RESET is set (R326, R328). -/
theorem State.CvuWrites.writeCvuCfg {s : State} {w n v : Nat} (h : s.CvuWrites w n) (hd : bits v 23 16 ≠ 0) (hr : bits v 15 8 ≠ 1) :
    s.writeCvuCfg w n v =
      let t := s.setReg (CVU_CFG n) (bits v 24 24 * 2 ^ 24 + bits v 23 16 * 2 ^ 16 + bits v 15 8 * 2 ^ 8 + bits v 1 0)
      let u := if bit v 31 ∨ bits v 1 0 ≠ s.cvuAlg n then t.cvuStart n else t
      if bit v 30 then
        ((u.setF (CVU_ALIVE_STATE n) CVU_ALIVE_STATE_VALID 0).setF (CVU_ALIVE_STATE n) CVU_ALIVE_STATE_LOST 0).setF
          (CVU_ALIVE_STATE n) CVU_ALIVE_STATE_LAST 0
      else u := by
  rw [State.writeCvuCfg, h.cvuWrite, if_neg (by simp [hd, hr])]

/-- START with the other fields as they are (R326). -/
theorem State.CvuWrites.exec_cvuStart {s : State} {w n : Nat} (h : s.CvuWrites w n) (hd : bits (s.reg (CVU_CFG n)) 23 16 ≠ 0)
    (hr : bits (s.reg (CVU_CFG n)) 15 8 ≠ 1) (ht : bits (s.reg (CVU_CFG n)) 31 30 = 0) :
    exec (.cvuStart w n) s = .next ((s.setReg (CVU_CFG n) (bits (s.reg (CVU_CFG n)) 24 24 * 2 ^ 24 + bits (s.reg (CVU_CFG n)) 23 16 * 2 ^ 16 +
      bits (s.reg (CVU_CFG n)) 15 8 * 2 ^ 8 + bits (s.reg (CVU_CFG n)) 1 0)).cvuStart n) := by
  have hlt := s.reg_lt (CVU_CFG n)
  change Host.Outcome.next (s.writeCvuCfg w n (s.reg (CVU_CFG n) + 2 ^ 31)) = _
  generalize s.reg (CVU_CFG n) = x at *
  have h24 : bits (x + 2 ^ 31) 24 24 = bits x 24 24 := by simp only [bits] at *; omega
  have h23 : bits (x + 2 ^ 31) 23 16 = bits x 23 16 := by simp only [bits] at *; omega
  have h15 : bits (x + 2 ^ 31) 15 8 = bits x 15 8 := by simp only [bits] at *; omega
  have h1 : bits (x + 2 ^ 31) 1 0 = bits x 1 0 := by simp only [bits] at *; omega
  have hstart : bit (x + 2 ^ 31) 31 = true := by simp only [bits, bit_eq_decide, decide_eq_true_eq] at *; omega
  have hreset : bit (x + 2 ^ 31) 30 = false := by simp only [bits, bit_eq_decide, decide_eq_false_iff_not] at *; omega
  rw [h.writeCvuCfg (by rwa [h23]) (by rwa [h15]), h24, h23, h15, h1]
  simp only [hstart, hreset, true_or, if_true, Bool.false_eq_true, if_false]

/-- ALIVE_RESET with the other fields as they are (R328). -/
theorem State.CvuWrites.exec_cvuAliveReset {s : State} {w n : Nat} (h : s.CvuWrites w n) (hd : bits (s.reg (CVU_CFG n)) 23 16 ≠ 0)
    (hr : bits (s.reg (CVU_CFG n)) 15 8 ≠ 1) (ht : bits (s.reg (CVU_CFG n)) 31 30 = 0) :
    exec (.cvuAliveReset w n) s = .next ((((s.setReg (CVU_CFG n) (bits (s.reg (CVU_CFG n)) 24 24 * 2 ^ 24 + bits (s.reg (CVU_CFG n)) 23 16 * 2 ^ 16 +
      bits (s.reg (CVU_CFG n)) 15 8 * 2 ^ 8 + bits (s.reg (CVU_CFG n)) 1 0)).setF (CVU_ALIVE_STATE n) CVU_ALIVE_STATE_VALID 0).setF (CVU_ALIVE_STATE n)
        CVU_ALIVE_STATE_LOST 0).setF (CVU_ALIVE_STATE n) CVU_ALIVE_STATE_LAST 0) := by
  have halg : s.cvuAlg n = bits (s.reg (CVU_CFG n)) 1 0 := rfl
  have hlt := s.reg_lt (CVU_CFG n)
  change Host.Outcome.next (s.writeCvuCfg w n (s.reg (CVU_CFG n) + 2 ^ 30)) = _
  generalize s.reg (CVU_CFG n) = x at *
  have h24 : bits (x + 2 ^ 30) 24 24 = bits x 24 24 := by simp only [bits] at *; omega
  have h23 : bits (x + 2 ^ 30) 23 16 = bits x 23 16 := by simp only [bits] at *; omega
  have h15 : bits (x + 2 ^ 30) 15 8 = bits x 15 8 := by simp only [bits] at *; omega
  have h1 : bits (x + 2 ^ 30) 1 0 = bits x 1 0 := by simp only [bits] at *; omega
  have hstart : bit (x + 2 ^ 30) 31 = false := by simp only [bits, bit_eq_decide, decide_eq_false_iff_not] at *; omega
  have hreset : bit (x + 2 ^ 30) 30 = true := by simp only [bits, bit_eq_decide, decide_eq_true_eq] at *; omega
  rw [h.writeCvuCfg (by rwa [h23]) (by rwa [h15]), h24, h23, h15, h1, halg]
  simp only [hstart, hreset, ne_eq, not_true_eq_false, Bool.false_eq_true, or_self, if_false, if_true]

/-- Another ALG with the other fields as they are (R326). -/
theorem State.CvuWrites.exec_cvuAlgChange {s : State} {w n a : Nat} (h : s.CvuWrites w n) (hd : bits (s.reg (CVU_CFG n)) 23 16 ≠ 0)
    (hr : bits (s.reg (CVU_CFG n)) 15 8 ≠ 1) (ht : bits (s.reg (CVU_CFG n)) 31 30 = 0) (ha : a < 4) (hne : a ≠ bits (s.reg (CVU_CFG n)) 1 0) :
    exec (.cvuAlgChange w n a) s = .next ((s.setReg (CVU_CFG n) (bits (s.reg (CVU_CFG n)) 24 24 * 2 ^ 24 + bits (s.reg (CVU_CFG n)) 23 16 * 2 ^ 16 +
      bits (s.reg (CVU_CFG n)) 15 8 * 2 ^ 8 + a)).cvuStart n) := by
  have halg : s.cvuAlg n = bits (s.reg (CVU_CFG n)) 1 0 := rfl
  have hlt := s.reg_lt (CVU_CFG n)
  change Host.Outcome.next (s.writeCvuCfg w n (setBits (s.reg (CVU_CFG n)) 1 0 a)) = _
  generalize s.reg (CVU_CFG n) = x at *
  have hset : setBits x 1 0 a = x - x % 4 + a := by simp only [setBits, bits]; omega
  rw [hset]
  have h24 : bits (x - x % 4 + a) 24 24 = bits x 24 24 := by simp only [bits] at *; omega
  have h23 : bits (x - x % 4 + a) 23 16 = bits x 23 16 := by simp only [bits] at *; omega
  have h15 : bits (x - x % 4 + a) 15 8 = bits x 15 8 := by simp only [bits] at *; omega
  have h1 : bits (x - x % 4 + a) 1 0 = a := by simp only [bits] at *; omega
  have hreset : bit (x - x % 4 + a) 30 = false := by simp only [bits, bit_eq_decide, decide_eq_false_iff_not] at *; omega
  rw [h.writeCvuCfg (by rwa [h23]) (by rwa [h15]), h24, h23, h15, h1, halg]
  simp only [hreset, ne_eq, hne, not_false_eq_true, or_true, if_true, Bool.false_eq_true, if_false]

/-- A data register that the unit takes: its bytes in the order BE asks for (R325). -/
theorem State.CvuWrites.writeCvuData {s : State} {w n a size v : Nat} (h : s.CvuWrites w n) :
    s.writeCvuData w n a size v = s.cvuFeed n (if s.getF (CVU_CFG n) CVU_CFG_BE = 1 then (natBytes size v).reverse else natBytes size v) :=
  h.cvuWrite

/-- A write of ALIVE that the unit takes: NEXT, or a value to judge (R328). -/
theorem State.CvuWrites.writeCvuAlive {s : State} {w n v : Nat} (h : s.CvuWrites w n) :
    s.writeCvuAlive w n v = if bit v 8 then s.aliveNext n else s.aliveJudge n (v % 256) := h.cvuWrite

/-- A received value is judged. -/
theorem State.CvuWrites.exec_cvuAliveValue {s : State} {w n v : Nat} (h : s.CvuWrites w n) :
    exec (.cvuAliveValue w n v) s = .next (s.aliveJudge n (v % 256)) := by
  have hbit : bit (v % 256) 8 = false := by simp only [bit_eq_decide, decide_eq_false_iff_not]; omega
  change Host.Outcome.next (s.writeCvuAlive w n (v % 256)) = _
  rw [h.writeCvuAlive, hbit, Nat.mod_mod, if_neg (by decide)]

/-- The unit's own counter advances. -/
theorem State.CvuWrites.exec_cvuAliveNext {s : State} {w n : Nat} (h : s.CvuWrites w n) : exec (.cvuAliveNext w n) s = .next (s.aliveNext n) := by
  change Host.Outcome.next (s.writeCvuAlive w n 256) = _
  rw [h.writeCvuAlive, if_pos (by decide)]

/-- A value inside the wrap is judged against the last one accepted: the same, a step of at most MAXD, or a jump (R328). -/
theorem State.aliveJudge_valid {s : State} {n a : Nat} (hv : s.getF (CVU_ALIVE_STATE n) CVU_ALIVE_STATE_VALID = 1) (ha : a < s.cvuWrap n) :
    s.aliveJudge n a =
      let d := unsigned 64 (((a : Int) - s.getF (CVU_ALIVE_STATE n) CVU_ALIVE_STATE_LAST) % s.cvuWrap n)
      if d = 0 then s.setF (CVU_ALIVE_STATE n) CVU_ALIVE_STATE_REPEAT 1
      else if d ≤ s.getF (CVU_CFG n) CVU_CFG_ALIVE_MAXD then (s.aliveAccept n a).countF (CVU_ALIVE_STATE n) CVU_ALIVE_STATE_LOST (d - 1)
      else (s.aliveAccept n a).setF (CVU_ALIVE_STATE n) CVU_ALIVE_STATE_JUMP 1 := by
  unfold State.aliveJudge
  rw [hv, if_neg (by decide), if_neg (Nat.not_le.mpr ha)]

/-- Settles O31: a register write by the holder reaches the unit, a packet that is let through runs its effect; what follows is the case the premises
name. -/
theorem checkValueUnits : Obligations.CheckValueUnits := by
  unfold Obligations.CheckValueUnits
  refine ⟨?cfg, ?data, ?dataBe, ?value, ?alive, ?judge, ?assign, ?compute⟩
  case cfg =>
    rintro w n x y s t h rfl hd hr ht rfl rfl
    refine ⟨h.exec_cvuStart hd hr ht, h.exec_cvuAliveReset hd hr ht, ?_⟩
    rintro a u ha hne rfl
    exact h.exec_cvuAlgChange hd hr ht ha hne
  case data =>
    intro w n v s h hbe
    have hfeed : ∀ a size, s.writeCvuData w n a size v = s.cvuFeed n (natBytes size v) := fun a size => by rw [h.writeCvuData, if_neg hbe]
    exact ⟨congrArg Host.Outcome.next (hfeed _ 1), congrArg Host.Outcome.next (hfeed _ 2), congrArg Host.Outcome.next (hfeed _ 4)⟩
  case dataBe =>
    intro w n v s h hbe
    have hfeed : ∀ a size, s.writeCvuData w n a size v = s.cvuFeed n (natBytes size v).reverse := fun a size => by rw [h.writeCvuData, if_pos hbe]
    exact ⟨congrArg Host.Outcome.next (hfeed _ 2), congrArg Host.Outcome.next (hfeed _ 4)⟩
  case value =>
    intro w n v s h hv
    exact congrArg Host.Outcome.next (h.cvuWrite.trans (if_pos hv))
  case alive =>
    intro w n v s h
    refine ⟨h.exec_cvuAliveValue, fun hvalid => ?_⟩
    rw [h.exec_cvuAliveNext, State.aliveNext, hvalid, if_neg (by decide)]
    rfl
  case judge =>
    rintro n a d p wr s t hvalid rfl rfl rfl ha rfl
    rw [State.aliveJudge_valid hvalid ha]
    exact ⟨fun h0 => if_pos h0, fun h0 hle => (if_neg h0).trans (if_pos hle),
      fun hlt => (if_neg (Nat.ne_of_gt (Nat.zero_lt_of_lt hlt))).trans (if_neg (Nat.not_le.mpr hlt))⟩
  case assign =>
    rintro pk s t u p n ha rfl rfl
    exact ha.next rfl
  case compute =>
    rintro pk s t u p n i ha rfl rfl hgood rfl
    refine ha.next ?_
    rw [effCollCompute, hgood]

end Sys2Proof.Machine

namespace Sys2Proof.Tests

open Sys2Proof Sys2Proof.Machine

/-- The manager's START of unit 0, with MAXD 1, meets every premise of the first part of O31. -/
theorem test_cvuStart : ∃ t : State, exec (.cvuStart 0 0) cvuReady = .next ((t.setF (CVU_STATUS 0) CVU_STATUS_MATCH 0).setF
    (CVU_STATUS 0) CVU_STATUS_MISMATCH 0) :=
  ⟨_, (checkValueUnits.1 0 0 _ _ cvuReady _ test_cvuReady_writes.1 rfl (by decide) (by decide) (by decide) rfl rfl).1⟩

end Sys2Proof.Tests
end

section
/-! SUPPORT and the proof of O4: every command answers a next state, but for an access to an address that does not exist (assumption 11). -/

namespace Sys2Proof.Machine

/-- The outcome is a next state. -/
def Answers (o : Host.Outcome State Fault Refusal) : Prop := ∃ t, o = .next t

theorem answers_next (t : State) : Answers (.next t) := ⟨t, rfl⟩

/-- So is a choice between two. -/
theorem answers_ite {c : Prop} [Decidable c] {a b : Host.Outcome State Fault Refusal} (ha : Answers a) (hb : Answers b) :
    Answers (if c then a else b) := by
  split
  · exact ha
  · exact hb

/-- Every part of the address space begins and ends at a word, so an address exists with its word. -/
theorem addressExists_word (a : Nat) : addressExists (a / 4 * 4) = addressExists a := by
  have hlt : ∀ n, n % 4 = 0 → (a / 4 * 4 < n ↔ a < n) := by omega
  have hle : ∀ n, n % 4 = 0 → (n ≤ a / 4 * 4 ↔ n ≤ a) := by omega
  simp [addressExists, hlt, hle]

/-- A register write answers, but to an address that does not exist. -/
theorem execRegisterWrite_answers (w a z v : Nat) (s : State) :
    Answers (execRegisterWrite w a z v s) ∨ addressExists (a / 4 * 4) = false ∧ execRegisterWrite w a z v s = .fault (.noSuchAddress a) := by
  unfold execRegisterWrite
  rw [addressExists_word]
  cases addressExists a with
  | false => exact .inr ⟨rfl, rfl⟩
  | true =>
    rw [if_neg (by decide)]
    exact .inl (answers_ite (answers_next _) (answers_ite (answers_next _) (answers_next _)))

/-- A register read answers, but from an address that does not exist. -/
theorem execRcRegisterRead_answers (r a : Nat) (b : Bool) (s : State) :
    Answers (execRcRegisterRead r a b s) ∨ addressExists (a / 4 * 4) = false ∧ execRcRegisterRead r a b s = .fault (.noSuchAddress a) := by
  unfold execRcRegisterRead
  dsimp only
  cases addressExists (a / 4 * 4) with
  | false => exact .inr ⟨rfl, rfl⟩
  | true =>
    rw [if_neg (by decide)]
    exact .inl (answers_ite (answers_next _) (answers_next _))

/-- So does the read of a low word. -/
theorem execLowWordReadLatch_answers (r a : Nat) (s : State) :
    Answers (execLowWordReadLatch r a s) ∨ addressExists (a / 4 * 4) = false ∧ execLowWordReadLatch r a s = .fault (.noSuchAddress a) := by
  unfold execLowWordReadLatch
  rw [addressExists_word]
  cases addressExists a with
  | false => exact .inr ⟨rfl, rfl⟩
  | true =>
    rw [if_neg (by decide)]
    exact .inl (answers_ite (answers_next _) (answers_next _))

/-- Settles O4: three commands access registers; of the others, those a device in the safe state or a stopped Clerk does not carry out answer the
state as it was, and all answer a next state. -/
theorem everyCommandRuns : Obligations.EveryCommandRuns := by
  unfold Obligations.EveryCommandRuns
  intro i s
  cases i with
  | registerWrite w a z v =>
    exact (execRegisterWrite_answers w a z v s).imp_right fun ⟨hno, hf⟩ => ⟨w, a, hno, hf, .inl ⟨z, v, rfl⟩⟩
  | rcRegisterRead r a b =>
    exact (execRcRegisterRead_answers r a b s).imp_right fun ⟨hno, hf⟩ => ⟨r, a, hno, hf, .inr (.inl ⟨b, rfl⟩)⟩
  | lowWordReadLatch r a =>
    exact (execLowWordReadLatch_answers r a s).imp_right fun ⟨hno, hf⟩ => ⟨r, a, hno, hf, .inr (.inr rfl)⟩
  | resizeGraceEnd _ => exact .inl (answers_ite (answers_next _) (answers_next _))
  | freezeComplete _ => exact .inl (answers_ite (answers_next _) (answers_next _))
  | destroyComplete _ => exact .inl (answers_ite (answers_next _) (answers_next _))
  | storageDrainComplete _ => exact .inl (answers_ite (answers_next _) (answers_next _))
  | epochDecisionsPublished _ _ _ _ => exact .inl (answers_ite (answers_next _) (answers_next _))
  | granuleCopyPassDone _ _ => exact .inl (answers_ite (answers_next _) (answers_next _))
  | granuleFlip _ _ => exact .inl (answers_ite (answers_next _) (answers_next _))
  | moveReadDrain _ _ => exact .inl (answers_ite (answers_next _) (answers_next _))
  | moveTimeLimit _ _ => exact .inl (answers_ite (answers_next _) (answers_next _))
  | xdevWaitExpiry _ => exact .inl (answers_ite (answers_next _) (answers_next _))
  | remoteSegmentLost _ _ => exact .inl (answers_ite (answers_next _) (answers_next _))
  | partialRender _ _ _ => exact .inl (answers_ite (answers_next _) (answers_next _))
  | passComplete _ _ _ => exact .inl (answers_ite (answers_next _) (answers_next _))
  | dispatchComplete _ _ => exact .inl (answers_ite (answers_next _) (answers_next _))
  | tileWatchdog _ _ => exact .inl (answers_ite (answers_next _) (answers_next _))
  | clusterStallTimeout _ => exact .inl (answers_ite (answers_next _) (answers_next _))
  | fabLinkUp _ _ _ => exact .inl (answers_ite (answers_next _) (answers_next _))
  | flitResend _ _ => exact .inl (answers_ite (answers_next _) (answers_next _))
  | flitDiscovery _ _ => exact .inl (answers_ite (answers_next _) (answers_next _))
  | flitObjectRead _ _ => exact .inl (answers_ite (answers_next _) (answers_next _))
  | flitObjectData _ _ => exact .inl (answers_ite (answers_next _) (answers_next _))
  | flitObjectWrite _ _ => exact .inl (answers_ite (answers_next _) (answers_next _))
  | flitWriteAck _ _ => exact .inl (answers_ite (answers_next _) (answers_next _))
  | flitMgmtPacket _ _ _ => exact .inl (answers_ite (answers_next _) (answers_next _))
  | flitMgmtReply _ _ _ _ _ => exact .inl (answers_ite (answers_next _) (answers_next _))
  | flitTime _ _ => exact .inl (answers_ite (answers_next _) (answers_next _))
  | placementEpoch => exact .inl (answers_ite (answers_next _) (answers_next _))
  | arenaChunkFreed => exact .inl (answers_ite (answers_next _) (answers_next _))
  | handoverQuiesced => exact .inl (answers_ite (answers_next _) (answers_next _))
  | drainComplete => exact .inl (answers_ite (answers_next _) (answers_next _))
  | fabricConverged => exact .inl (answers_ite (answers_next _) (answers_next _))
  | fabricTimeHold => exact .inl (answers_ite (answers_next _) (answers_next _))
  | _ => exact .inl (answers_next _)

end Sys2Proof.Machine

namespace Sys2Proof.Tests

open Sys2Proof Sys2Proof.Machine

/-- The one fault does occur: a read of the first address above the manager's map stops with it. -/
theorem test_noSuchAddress : exec (.lowWordReadLatch 0 0x1000000) State.reset = .fault (.noSuchAddress 0x1000000) := rfl

end Sys2Proof.Tests
end

section
/-! The proof of O13: the system commands run their effect (R68 to R70, R72 to R75). -/

namespace Sys2Proof.Machine

/-- Settles O13: a packet that is let through runs its effect; what it finds in the slip, in the fence or at the target is what the premise says. -/
theorem systemCommands : Obligations.SystemCommands := by
  unfold Obligations.SystemCommands
  refine ⟨?nop, ?fence, ?getCaps, ?acquire, ?release, ?clear, ?grant, ?query⟩
  case nop => exact fun pk s t p ha => ha.next rfl
  case fence =>
    intro pk s t p ha hearlier
    refine ha.next ?_
    rw [effSysFence, hearlier, if_neg (by decide)]
  case getCaps =>
    intro pk s t p ha hgood
    refine ha.next ?_
    rw [effSysGetCaps, State.storeReply, hgood]
  case acquire =>
    rintro pk s t p n ha rfl hfree
    refine ha.next ?_
    rw [effSysSlipAcquire, acquireSlip, hfree]
  case release => rintro pk s t p n ha rfl; exact ha.next rfl
  case clear => rintro pk s t p n ha rfl; exact ha.next rfl
  case grant => rintro pk s t p n ha rfl; exact ha.next rfl
  case query => exact fun pk s t p ha => ha.next rfl

end Sys2Proof.Machine

namespace Sys2Proof.Tests

open Sys2Proof Sys2Proof.Machine

/-- Slip 255 is held by the manager. -/
def slipHeld : State := State.reset.setSlip 255 { owner := some 0 }

/-- The manager's release of it is let through. -/
theorem test_slipRelease_accepts : slipHeld.Accepts cmdSysSlipRelease (pkt 0 1 [(16, 2, 255)]) (hooksSysSlipRelease (pkt 0 1 [(16, 2, 255)]) slipHeld)
    (paramBytes (pkt 0 1 [(16, 2, 255)]) slipHeld)
    (slipHeld.taken cmdSysSlipRelease (pkt 0 1 [(16, 2, 255)]) (hooksSysSlipRelease (pkt 0 1 [(16, 2, 255)]) slipHeld)) :=
  ⟨by decide, rfl, rfl⟩

/-- So the release of O13 applies to it. -/
theorem test_slipRelease : ∃ t : State, exec (.sysSlipRelease (pkt 0 1 [(16, 2, 255)])) slipHeld = .next (t.handSlip 255) :=
  ⟨_, systemCommands.2.2.2.2.1 (pkt 0 1 [(16, 2, 255)]) slipHeld _ _ 255 test_slipRelease_accepts (by decide)⟩

end Sys2Proof.Tests
end

section
/-! SUPPORT and the proof of O14: the rings a function controls (R48 to R50). -/

namespace Sys2Proof.Machine

/-- A register of a ring register set is in it. -/
theorem inOwnRings_ringSet {f d : Nat} (h : d < 0x100) : inOwnRings f (ringSet f + d) = true := by
  simp [inOwnRings, h]

/-- A register of a doorbell page is in it. -/
theorem inOwnRings_doorbellPage {f d : Nat} (h : d < 0x1000) : inOwnRings f (doorbellPage f + d) = true := by
  simp [inOwnRings, h]

/-- The doorbell page of a function that exists is one of the doorbells. -/
theorem isDoorbell_doorbellPage {f d : Nat} (hf : f < 66) (h : d < 0x1000) : isDoorbell (doorbellPage f + d) = true := by
  have hlow : (0x800000 ≤ 0x800000 + f * 0x1000 + d ∧ 0x800000 + f * 0x1000 + d < 0x842000) := by omega
  simp only [isDoorbell, doorbellPage, if_pos (show f < 128 by omega), hlow.1, hlow.2, decide_true, Bool.and_self, Bool.true_or]

/-- A write by the function itself to its rings takes effect. -/
theorem State.ringWrite_own {s : State} {f a v : Nat} {g : State → State} (hl : s.linkUp f = true) (hp : s.getF PCU_STATE PCU_STATE_STATE = 3)
    (hc : s.clerkStopped = false ∨ isDoorbell a = true) (hf : f < 66) (ha : inOwnRings f a = true) : s.ringWrite f f a v g = g s := by
  rw [State.ringWrite, State.gated_of hl hp hc hf (.inr ha)]
  simp [State.isFn]

/-- What EN reads is bit 31 of the register. -/
theorem bit31_of_field {x b : Nat} (h : bits x 31 31 = b2n (decide (b = 1))) : bit x 31 = decide (b = 1) := by
  simp only [bits, bit_eq_decide, b2n] at *
  split at h <;> simp_all

/-- Nothing is written where nothing is held. -/
theorem State.flushHeld_of_nothing {s : State} {f : Nat} (hr : (s.fnState f).heldReplies = []) (hn : (s.fnState f).heldNotices = []) :
    s.flushHeld f = s := by
  unfold State.flushHeld
  rw [hr]
  simp [State.flushReplies, State.flushNotices, hr, hn]

/-! ### Masks of CLRK_CQ_CTRL -/

/-- Bit 31 of a word that has it is what setting it gives. -/
theorem setBits_31_of_bit {v : Nat} (h : bit v 31 = true) : setBits v 31 31 1 = v := by
  simp only [bit_eq_decide, decide_eq_true_eq] at h
  simp only [setBits, bits]
  omega

/-- The depth stays under the mask of the writable bits. -/
theorem and_mask_depth (v : Nat) : (v &&& 0xC0FFFFFF) % 32 = v % 32 := by
  rw [show (32 : Nat) = 2 ^ 5 from rfl, Nat.and_mod_two_pow, show 0xC0FFFFFF % 2 ^ 5 = 2 ^ 5 - 1 from rfl, Nat.and_two_pow_sub_one_eq_mod, Nat.mod_mod]

/-- So does COAL_COUNT. -/
theorem and_mask_coalCount (v : Nat) : bits (v &&& 0xC0FFFFFF) 23 16 = bits v 23 16 := by
  simp only [bits]
  rw [Nat.and_div_two_pow, Nat.and_mod_two_pow, show 0xC0FFFFFF / 2 ^ 16 % 2 ^ (23 + 1 - 16) = 2 ^ (23 + 1 - 16) - 1 from rfl,
    Nat.and_two_pow_sub_one_eq_mod, Nat.mod_mod]

/-- So does EN. -/
theorem and_mask_en (v : Nat) : bit (v &&& 0xC0FFFFFF) 31 = bit v 31 := by
  rw [bit, Nat.testBit_and, show Nat.testBit 0xC0FFFFFF 31 = true from by decide, Bool.and_true, bit]

/-- A word of writable bits keeps all but EN under the mask once EN is cleared. -/
theorem and_mask_clearEn {r : Nat} (h : r &&& 0xC0FFFFFF = r) : r % 2 ^ 31 &&& 0xC0FFFFFF = r % 2 ^ 31 := by
  apply Nat.eq_of_testBit_eq
  intro i
  have hi : (r.testBit i && Nat.testBit 0xC0FFFFFF i) = r.testBit i := by rw [← Nat.testBit_and, h]
  rw [Nat.testBit_and, Nat.testBit_mod_two_pow, Bool.and_assoc, hi]

/-- Clearing EN changes none of the fields that are fixed while the ring runs. -/
theorem clearEn_xor_fixed (r : Nat) : (r % 2 ^ 31 ^^^ r) &&& 0x40FF001F = 0 := by
  apply Nat.eq_of_testBit_eq
  intro i
  rw [Nat.testBit_and, Nat.testBit_xor, Nat.testBit_mod_two_pow, Nat.zero_testBit]
  by_cases hi : i < 31
  · simp [hi]
  · have hlt : (0x40FF001F : Nat) < 2 ^ i := lt_of_lt_of_le (by decide : (0x40FF001F : Nat) < 2 ^ 31) (Nat.pow_le_pow_right Nat.two_pos (by omega))
    rw [Nat.testBit_lt_two_pow hlt, Bool.and_false]

/-- A submission ring that is off starts empty at the depth asked for (R48). -/
theorem State.setSqCtrl_enable {s : State} {f p v : Nat} (hoff : bit (s.reg (CLRK_SQ_CTRL f p)) 31 = false) (hon : bit v 31 = true)
    (hd : depthOk (v % 32) = true) : s.setSqCtrl f p v = ((s.setReg (CLRK_SQ_CTRL f p) (v % 32 + 2 ^ 31)).setReg (CLRK_SQ_HEAD f p) 0).setFn f
      { s.fnState f with tails := (s.fnState f).tails.set p 0 } := by
  unfold State.setSqCtrl
  simp only [hoff, hon, hd, Bool.false_eq_true, if_false, not_true_eq_false, if_true]

/-- A submission ring that runs stops at its depth (R49). -/
theorem State.setSqCtrl_disable {s : State} {f p : Nat} (hon : bit (s.reg (CLRK_SQ_CTRL f p)) 31 = true) :
    s.setSqCtrl f p (s.reg (CLRK_SQ_CTRL f p) % 2 ^ 31) = s.setReg (CLRK_SQ_CTRL f p) (s.reg (CLRK_SQ_CTRL f p) % 32) := by
  have hd : s.reg (CLRK_SQ_CTRL f p) % 2 ^ 31 % 32 = s.reg (CLRK_SQ_CTRL f p) % 32 := by omega
  have hen : bit (s.reg (CLRK_SQ_CTRL f p) % 2 ^ 31) 31 = false := by simp only [bit_eq_decide, decide_eq_false_iff_not]; omega
  unfold State.setSqCtrl
  simp only [hon, if_true, hd, ne_eq, not_true_eq_false, if_false, hen]
  rfl

/-- The registers of function `f`'s rings do not say which function is the manager. -/
theorem State.mgrFn_setReg_ringSet (s : State) {f d v : Nat} (hd : d < 0x100) : (s.setReg (ringSet f + d) v).mgrFn = s.mgrFn := by
  have hne : INST_MGR_STATUS ≠ ringSet f + d := by simp only [INST_MGR_STATUS, ringSet]; split <;> omega
  simp only [State.mgrFn, State.getF_setReg_ne _ hne]

/-- A completion ring that is off starts empty as the word says, with nothing held to write (R48, R49). -/
theorem State.setCqCtrl_enable {s : State} {f v : Nat} (hoff : bit (s.reg (CLRK_CQ_CTRL f)) 31 = false) (hon : bit v 31 = true)
    (hd : depthOk (v % 32) = true) (hcoal : bits v 23 16 ≠ 0) (hm : f ≠ s.mgrFn) (hr : (s.fnState f).heldReplies = [])
    (hn : (s.fnState f).heldNotices = []) : s.setCqCtrl f v = ((s.setReg (CLRK_CQ_CTRL f) (v &&& 0xC0FFFFFF)).setReg (CLRK_CQ_TAIL f) 0).setFn f
      { s.fnState f with cqHead := 0, unsignalled := 0, cqEver := true } := by
  have hmgr : ∀ x, f ≠ (((s.setReg (CLRK_CQ_CTRL f) (v &&& 0xC0FFFFFF)).setReg (CLRK_CQ_TAIL f) 0).setFn f x).mgrFn := fun x => by
    change f ≠ ((s.setReg (CLRK_CQ_CTRL f) (v &&& 0xC0FFFFFF)).setReg (CLRK_CQ_TAIL f) 0).mgrFn
    rwa [CLRK_CQ_CTRL, CLRK_CQ_TAIL, State.mgrFn_setReg_ringSet _ (by decide), State.mgrFn_setReg_ringSet _ (by decide)]
  unfold State.setCqCtrl
  simp only [hoff, and_mask_en, hon, and_mask_depth, hd, and_mask_coalCount, ne_eq, hcoal, not_false_eq_true, decide_true, Bool.and_self,
    Bool.false_eq_true, if_false, not_true_eq_false, if_true]
  rw [State.flushHeld_of_nothing (by rw [State.fnState_setFn]; exact hr) (by rw [State.fnState_setFn]; exact hn), if_neg (hmgr _)]
  rfl

/-- A completion ring that runs stops with its other fields as they are (R49). -/
theorem State.setCqCtrl_disable {s : State} {f : Nat} (hon : bit (s.reg (CLRK_CQ_CTRL f)) 31 = true)
    (hw : s.reg (CLRK_CQ_CTRL f) &&& 0xC0FFFFFF = s.reg (CLRK_CQ_CTRL f)) :
    s.setCqCtrl f (s.reg (CLRK_CQ_CTRL f) % 2 ^ 31) = s.setReg (CLRK_CQ_CTRL f) (s.reg (CLRK_CQ_CTRL f) % 2 ^ 31) := by
  unfold State.setCqCtrl
  dsimp only
  rw [if_pos hon, and_mask_clearEn hw, clearEn_xor_fixed, if_neg (by simp)]

/-- A field of one bit that reads 1 is that bit. -/
theorem bit_of_bits_one {x n : Nat} (h : bits x n n = 1) : bit x n = true := by
  simpa [bits, bit_eq_decide] using h

/-- One that reads 0 is not set. -/
theorem bit_of_bits_zero {x n : Nat} (h : bits x n n = 0) : bit x n = false := by
  simp only [bits, Nat.add_sub_cancel_left, Nat.pow_one] at h
  simp [bit_eq_decide, h]

/-- The bit that is set is read. -/
theorem bit_setBits_31 (v : Nat) : bit (setBits v 31 31 1) 31 = true := bit_of_bits_one (bits_setBits_same v 31 31 1 (le_refl 31))

/-- Setting EN leaves the depth. -/
theorem setBits_31_depth (v : Nat) : setBits v 31 31 1 % 32 = v % 32 := by
  simp only [setBits, bits]
  omega

/-- Settles O14: the owner's write reaches its ring, which is as the premises say. -/
theorem ringControl : Obligations.RingControl := by
  unfold Obligations.RingControl
  refine ⟨?sqOn, ?sqOff, ?cqOn, ?cqOff, ?sqBell, ?cqBell⟩
  case sqOn =>
    intro f p v s hl hp hc hring hf hoff hlo hhi
    have hown : inOwnRings f (CLRK_SQ_CTRL f p) = true := by
      rw [CLRK_SQ_CTRL, Nat.add_assoc]; exact inOwnRings_ringSet (by omega)
    have hdepth : depthOk (setBits v 31 31 1 % 32) = true := by rw [setBits_31_depth]; simp [depthOk, hlo, hhi]
    refine congrArg Host.Outcome.next ?_
    rw [if_neg (by omega), State.ringWrite_own hl hp (.inl hc) hf hown,
      State.setSqCtrl_enable (bit_of_bits_zero hoff) (bit_setBits_31 v) hdepth, setBits_31_depth]
  case sqOff =>
    intro f p s hl hp hc hring hf hon
    have hown : inOwnRings f (CLRK_SQ_CTRL f p) = true := by
      rw [CLRK_SQ_CTRL, Nat.add_assoc]; exact inOwnRings_ringSet (by omega)
    refine congrArg Host.Outcome.next ?_
    rw [if_neg (by omega), State.ringWrite_own hl hp (.inl hc) hf hown, State.setSqCtrl_disable (bit_of_bits_one hon)]
  case cqOn =>
    intro f v s hl hp hc hf hm hoff hon hlo hhi hcoal hr hn
    have hown : inOwnRings f (CLRK_CQ_CTRL f) = true := inOwnRings_ringSet (by decide)
    have hdepth : depthOk (v % 32) = true := by simp [depthOk, hlo, hhi]
    refine congrArg Host.Outcome.next ?_
    rw [setBits_31_of_bit hon, State.ringWrite_own hl hp (.inl hc) hf hown,
      State.setCqCtrl_enable (bit_of_bits_zero hoff) hon hdepth hcoal hm hr hn]
  case cqOff =>
    intro f s hl hp hc hf hon hw
    have hown : inOwnRings f (CLRK_CQ_CTRL f) = true := inOwnRings_ringSet (by decide)
    refine congrArg Host.Outcome.next ?_
    rw [State.ringWrite_own hl hp (.inl hc) hf hown, State.setCqCtrl_disable (bit_of_bits_one hon) hw]
  case sqBell =>
    intro f p v s hl hp hring hf hon htail hhead
    have hd : p * 4 < 0x1000 := by omega
    have hbell : isDoorbell (CLRK_DB_SQ f p) = true := isDoorbell_doorbellPage hf hd
    refine congrArg Host.Outcome.next ?_
    rw [if_neg (by omega), State.ringWrite_own hl hp (.inr hbell) hf (inOwnRings_doorbellPage hd)]
    exact if_pos ⟨hon, decide_eq_true htail, decide_eq_true hhead⟩
  case cqBell =>
    intro f v s hl hp hf hon hhead htail hr hn
    have hbell : isDoorbell (CLRK_DB_CQ f) = true := isDoorbell_doorbellPage hf (by decide)
    refine congrArg Host.Outcome.next ?_
    rw [State.ringWrite_own hl hp (.inr hbell) hf (inOwnRings_doorbellPage (by decide))]
    refine (if_pos ⟨hon, decide_eq_true hhead, decide_eq_true htail⟩).trans ?_
    exact State.flushHeld_of_nothing (by rw [State.fnState_setFn]; exact hr) (by rw [State.fnState_setFn]; exact hn)

end Sys2Proof.Machine

namespace Sys2Proof.Tests

open Sys2Proof Sys2Proof.Machine

/-- The manager enables its ring 2 with the least depth while its link is up and the device ACTIVE. -/
theorem test_sqEnable : ∃ t : State, exec (.sqEnable 0 0 2 6) cvuReady = .next t ∧ t.reg (CLRK_SQ_CTRL 0 2) = 6 + 2 ^ 31 :=
  ⟨_, ringControl.1 0 2 6 cvuReady (by decide) (by decide) (by decide) (by decide) (by decide) (by decide) (by decide) (by decide), by decide⟩

end Sys2Proof.Tests
end

section
/-! SUPPORT and the proofs of O15 and O16: the host links, fetching and timeouts (R42, R57, R63, R66, R67, R440, R501, R502, R602). -/

namespace Sys2Proof.Machine

/-- Settles O15: a link change shows itself and tells; PERST# resets the functions of its port, or wakes it. -/
theorem hostLinks : Obligations.HostLinks := by
  unfold Obligations.HostLinks
  refine ⟨?down, ?up, ?assert, ?release⟩
  case down =>
    intro k s hk hup
    exact ⟨_, congrArg Host.Outcome.next (if_pos ⟨hk, hup⟩), State.postMgr_tells (State.Tells.refl _)⟩
  case up =>
    intro k speed width s hk hhost hperst hup hlo hhi hw
    refine ⟨_, congrArg Host.Outcome.next (if_pos ⟨hk, hhost, hperst, hup, hlo, hhi, hw⟩), ?_⟩
    exact foldl_tells _ (fun u f hu => State.flushHeld_tells hu) (State.postMgr_tells (State.Tells.refl _))
  case assert =>
    rintro k s u t hk hperst rfl hup rfl hm
    refine congrArg Host.Outcome.next ((if_neg (by simp [hperst]; omega)).trans ?_)
    have hdown : ¬ (s.setF (HOST_LINK_STATUS k) HOST_LINK_STATUS_PERST 1).getF (HOST_LINK_STATUS k) HOST_LINK_STATUS_UP = 1 := by simp [hup]
    dsimp only
    rw [if_neg hdown]
    exact if_neg fun h => hm h.1
  case release =>
    intro k s hk hoff hperst
    exact congrArg Host.Outcome.next (if_neg (by simp [hoff, hperst]; omega))

/-- A packet that writes no host buffer leaves none undefined. -/
theorem State.spoilBuffer_of_op {s : State} {pk : Pkt} {f : Flight} (hf : s.flightOf pk = some f) (ho : f.op ≠ 0x0205) : s.spoilBuffer pk = s := by
  rw [State.spoilBuffer, hf]
  exact if_neg ho

/-- Whose packet it is does not say whether it uses a block. -/
theorem usesBlock_fn (pk : Pkt) (f : Nat) : usesBlock { pk with fn := f } = usesBlock pk := rfl

/-- Settles O16: each clause is the case of its command that the premises name. -/
theorem fetchAndTimeouts : Obligations.FetchAndTimeouts := by
  unfold Obligations.FetchAndTimeouts
  refine ⟨?fetch, ?timeout, ?coalesce, ?mgmt, ?forward⟩
  case fetch =>
    intro slot s k p hf hv hr
    refine ⟨_, _, rfl, rfl, congrArg Host.Outcome.next ?_⟩
    rw [if_neg (by simp [hf]), hv]
    dsimp only
    rw [hr]
    rfl
  case timeout =>
    intro pk s f hfl hcom hstop hdown hstage
    refine congrArg Host.Outcome.next ?_
    rw [hfl]
    dsimp only
    rw [if_neg (by simp [hcom, hstop]), State.spoilBuffer_of_op hfl hdown, if_neg hstage]
    rfl
  case coalesce =>
    intro f s hn ht hl
    exact congrArg Host.Outcome.next (if_pos ⟨hn, ht, hl⟩)
  case mgmt =>
    intro tag op packet block pk s hsafe hworker hup hfetch hq hblock
    have hrun : exec (.flitMgmtPacket tag packet block) s =
        if s.safe then .next s else .next (if ¬ s.fab.worker ∨ s.domainUp 18 = false ∨ ¬ s.clerkFetches then s
          else (s.emit (.fabric 0 tag (.reply (packetOf fabricFn tag (slice packet 0 64)).2.seq .ok 0 s.now 0 0))).takePacket
            (packetOf fabricFn tag (slice packet 0 64)).1 (packetOf fabricFn tag (slice packet 0 64)).2
            (some (if usesBlock (packetOf fabricFn tag (slice packet 0 64)).2 then
              slice block 0 (blockLength (packetOf fabricFn tag (slice packet 0 64)).2) else []))) := rfl
    rw [hrun, ← hq, if_neg (by simp [hsafe]), if_neg (by simp [hworker, hup, hfetch]), if_neg (by simp [hblock])]
  case forward =>
    intro pk s t p ha hnone hblock
    refine ha.next ?_
    have hq : ¬ usesBlock { (forwardOf p).2 with fn := pk.fn } = true := by rw [usesBlock_fn, hblock]; decide
    rw [effFabForward, hnone]
    dsimp only
    rw [if_neg hq]
    rfl

end Sys2Proof.Machine

namespace Sys2Proof.Tests

open Sys2Proof Sys2Proof.Machine

/-- The manager's link goes down where it is up. -/
theorem test_hostLinkDown : ∃ t, exec (.hostLinkDown 0) cvuReady = .next t :=
  (hostLinks.1 0 cvuReady (by decide) (by decide)).imp fun _ h => h.1

/-- PERST# of the second port is released. -/
def perstReleased : State := State.reset.setF (HOST_LINK_STATUS 1) HOST_LINK_STATUS_PERST 0

/-- PERST# of the second port, whose link is down at reset, is asserted where the manager's port is the first. -/
theorem test_perstAssert : ∃ t, exec (.perstAssert 1) perstReleased = .next t :=
  ⟨_, hostLinks.2.2.1 1 perstReleased _ _ (by decide) (by decide) rfl (by decide) rfl (by decide)⟩

/-- A packet of SYS_NOP that waits in flight times out. -/
theorem test_commandTimeout : ∃ t : State, exec (.commandTimeout (pkt 0 0 [])) (State.reset.fetched 0 (pkt 0 0 []) []) =
    .next (t.complete (pkt 0 0 []) .timedOut 0) :=
  ⟨_, fetchAndTimeouts.2.1 (pkt 0 0 []) (State.reset.fetched 0 (pkt 0 0 []) [])
    ⟨0, pkt 0 0 [], [], false, false, [], [], false⟩ (by decide) rfl (by decide) (by decide) (by decide)⟩

end Sys2Proof.Tests
end

section
/-! SUPPORT and the proof of O17: what a register write and a register read meet (R13, R14, R16, R17, R43, R45). -/

namespace Sys2Proof.Machine

/-- A physical function may access registers. -/
theorem State.isFunction_mgrFn (s : State) : isFunction s.mgrFn = true := by
  rcases s.mgrFn_cases with h | h <;> rw [h] <;> decide

/-- The manager is not the Crown port. -/
theorem State.mgrFn_lt (s : State) : s.mgrFn < 66 := by
  rcases s.mgrFn_cases with h | h <;> omega

/-- The manager sees its map. -/
theorem State.sees_mgrFn {s : State} {a : Nat} (ha : a < 0x1000000) : s.sees s.mgrFn a = true := by
  unfold State.sees
  split
  · rfl
  · rw [if_pos s.writerOwner_mgr]
    simp [ha]

/-- A register outside the blocks and arrays with a meaning of their own, and none of those with an effect, is written as a plain one. -/
theorem State.writeReg_plain {s : State} {w a v : Nat} (hr : ringFn a = none) (hb : bellFn a = none) (hc : blockIndex 0x181000 0x40 32 a = none)
    (ho : blockIndex 0x140000 0x4000 8 a = none)
    (he : ¬ [INST_MGR_CTRL, MEM_FOLIO_INJECT, FAB_CTRL, FAB_RELAY_HEAD, PCU_WAKE, HOST_SAFE_CTRL, HOST_ERR_ACK, TCH_WAKE_STATUS,
      STRG_REQ_DB].contains a = true) (hp : arrayIndex (STRG_REQ_PKT 0) 4 16 a = none) : s.writeReg w a v = s.writePlain w a v := by
  have hne : ∀ b ∈ [INST_MGR_CTRL, MEM_FOLIO_INJECT, FAB_CTRL, FAB_RELAY_HEAD, PCU_WAKE, HOST_SAFE_CTRL, HOST_ERR_ACK, TCH_WAKE_STATUS, STRG_REQ_DB],
      a ≠ b := fun b hb e => he (List.contains_iff_mem.mpr (e ▸ hb))
  simp only [List.mem_cons, List.not_mem_nil, or_false, forall_eq_or_imp, forall_eq] at hne
  obtain ⟨h1, h2, h3, h4, h5, h6, h7, h8, h9⟩ := hne
  unfold State.writeReg
  rw [hr, hb, hc, ho, hp]
  dsimp only
  rw [if_neg h1, if_neg h2, if_neg h3, if_neg h4, if_neg h5, if_neg h6, if_neg h7, if_neg h8, if_neg (by simp [h9])]

/-- A plain write that attempts nothing it may not, with every field in its range, takes effect. -/
theorem State.MgrWrites.writePlain {s : State} {a v : Nat} (h : s.MgrWrites) (ha : a < 0x1000000)
    (hm : (fieldsAt a).all (fun f => s.mayChange s.mgrFn a f || !attempts (s.reg a) v f) = true)
    (hf : s.fieldsOk a (newValue a (s.reg a) v) = true) (hp : s.positionOk a v = true) : s.writePlain s.mgrFn a v = s.putPlain a v := by
  have hnone : ¬ (fieldsAt a).any (fun f => !s.mayChange s.mgrFn a f && attempts (s.reg a) v f) = true := by
    simp only [List.any_eq_true, not_exists, not_and]
    intro f hfm
    have := List.all_eq_true.mp hm f hfm
    revert this
    cases s.mayChange s.mgrFn a f <;> cases attempts (s.reg a) v f <;> decide
  rw [State.writePlain, State.Writes.gated h, if_neg (by simp [State.sees_mgrFn ha]), if_neg hnone, if_neg (by simp [hf, hp])]

/-- A register that is no half of a 64-bit quantity is written at once. -/
theorem State.putPlain_narrow {s : State} {a v : Nat} (h1 : isLowWord a = false) (h2 : isLowWord (a - 4) = false) :
    s.putPlain a v = s.setReg a (newValue a (s.reg a) v) := by
  unfold State.putPlain
  simp only [h1, h2, Bool.false_eq_true, and_false, if_false]
  split <;> rfl

/-- A read over a link that is up arrives. -/
theorem State.arrives_of_linkUp {s : State} {r : Nat} (h : s.linkUp r = true) : s.arrives r = true := by
  rw [State.arrives, h, Bool.or_true]

/-- Settles O17: a plain write takes effect, a read answers the word, a low word keeps its high word, and where there is no register there is a fault. -/
theorem registerAccesses : Obligations.RegisterAccesses := by
  unfold Obligations.RegisterAccesses
  refine ⟨?write, ?read, ?latch, ?fault⟩
  case write =>
    intro a v s hex hal hmap hv hl hp hc hr hb hu ho he hw hm hf hpos hlow hhigh
    have hwr : s.MgrWrites := ⟨s.mgrFn_lt, s.mgrFn_ne_standbyFn, hl, hp, hc⟩
    change execRegisterWrite s.mgrFn a 4 v s = _
    unfold execRegisterWrite
    rw [Nat.mod_eq_of_lt hv, if_neg (by simp [hex]), if_neg (by simp [s.isFunction_mgrFn]), if_neg (by simp [hal]),
      State.writeReg_plain hr hb hu ho he hw, hwr.writePlain hmap hm hf hpos, State.putPlain_narrow hlow hhigh]
  case read =>
    intro r a s hex hal hfn hl
    have hword : a / 4 * 4 = a := by omega
    change execRcRegisterRead r a false s = _
    unfold execRcRegisterRead
    dsimp only
    rw [hword, if_neg (by simp [hex]), if_neg (by simp [hfn, State.arrives_of_linkUp hl])]
    simp only [Bool.false_and, Bool.false_eq_true, if_false]
  case latch =>
    intro r a s hex hfn hl hreach hlow
    refine ⟨_, rfl, ?_⟩
    change execLowWordReadLatch r a s = _
    unfold execLowWordReadLatch
    rw [if_neg (by simp [hex]), if_neg (by simp [hfn, State.arrives_of_linkUp hl]), if_neg (by simp [hreach]), if_pos hlow]
  case fault =>
    intro r a size v b s hword hex
    have hno : ¬ addressExists a = true := by simp [hex]
    have hnoWord : ¬ addressExists (a / 4 * 4) = true := by simp [hword]
    exact ⟨if_pos hno, if_pos hnoWord, if_pos hno⟩

end Sys2Proof.Machine

namespace Sys2Proof.Tests

open Sys2Proof Sys2Proof.Machine

/-- The manager's read of the timebase's low word keeps its high word. -/
theorem test_lowWordRead : ∃ t : State, exec (.lowWordReadLatch 0 LEDG_CAL_LO) cvuReady = .next (t.afterRead LEDG_CAL_LO (cvuReady.readWord 0 LEDG_CAL_LO)) := by
  obtain ⟨t, -, h⟩ := registerAccesses.2.2.1 0 LEDG_CAL_LO cvuReady (by decide) (by decide) (by decide) (by decide) (by decide)
  exact ⟨t, h⟩

end Sys2Proof.Tests
end

section
/-! SUPPORT and the proof of O20: the mailboxes (R95, R96). -/

namespace Sys2Proof.Machine

/-- The port of the manager is the one it belongs to. -/
theorem State.portOf_mgrFn (s : State) : s.portOf s.mgrFn = if s.mgrFn = 65 then 1 else 0 := by
  rcases s.mgrFn_cases with h | h <;> rw [h] <;> rfl

/-- A register of a ring set does not say whether the manager's link is up. -/
theorem State.linkUp_mgrFn_setReg_ringSet (s : State) {f d v : Nat} (hd : d < 0x100) :
    (s.setReg (ringSet f + d) v).linkUp (s.setReg (ringSet f + d) v).mgrFn = s.linkUp s.mgrFn := by
  have hne : ∀ p, p < 2 → HOST_LINK_STATUS p ≠ ringSet f + d := by
    intro p hp
    simp only [HOST_LINK_STATUS, ringSet]
    split <;> omega
  have hport : (if s.mgrFn = 65 then 1 else 0) < 2 := by split <;> decide
  simp only [State.linkUp]
  rw [State.portOf_mgrFn, State.portOf_mgrFn, State.mgrFn_setReg_ringSet _ hd, State.getF_setReg_ne _ (hne _ hport)]

/-- Messages of instances are for the manager. -/
theorem State.mboxBit_inst {s : State} {n : Nat} (h1 : 1 ≤ n) (h2 : n ≤ 64) : s.mboxBit n = 0 := by
  have hm : n ≠ s.mgrFn := by rcases s.mgrFn_cases with h | h <;> omega
  have hc : n ≠ crownWriter := by unfold crownWriter; omega
  have hf : n ≠ fabricFn := by unfold fabricFn; omega
  have ho : s.writerOwner n ≠ 0 := by
    simp only [State.writerOwner, State.ownerOf, if_neg hc, hm, hf, or_self, if_false]
    omega
  rw [State.mboxBit, if_neg ho]

/-- Messages of the manager are for instances. -/
theorem State.mboxBit_mgr (s : State) : s.mboxBit s.mgrFn = 1 := by rw [State.mboxBit, if_pos s.writerOwner_mgr]

/-- The numbers 1 to 64 are those of instances. -/
theorem isInst_of {n : Nat} (h1 : 1 ≤ n) (h2 : n ≤ 64) : isInst n = true := by simp [isInst, h1, h2]

/-- Settles O20: the write reaches the mailbox, whose FULL is as the premise says. -/
theorem mailboxes : Obligations.Mailboxes := by
  unfold Obligations.Mailboxes
  constructor
  · intro n s h1 h2 hl hm hp hc hex hfull
    refine congrArg Host.Outcome.next ?_
    have hown : inOwnRings n (CLRK_DB_MBOX n) = true := inOwnRings_doorbellPage (by decide)
    rw [State.ringMbox, State.gated_of hl hp (.inl hc) (by omega) (.inr hown)]
    dsimp only
    rw [State.mboxBit_inst h1 h2, if_neg (by simp [isInst_of h1 h2]), if_neg hex, hfull, if_neg (by decide), if_pos rfl]
    have hlink := s.linkUp_mgrFn_setReg_ringSet (f := n) (d := 0x60) (v := setBits (s.reg (CLRK_MBOX_STATUS n)) 0 0 (b2n true)) (by decide)
    have hmgr := s.mgrFn_setReg_ringSet (f := n) (d := 0x60) (v := setBits (s.reg (CLRK_MBOX_STATUS n)) 0 0 (b2n true)) (by decide)
    refine (if_pos (hlink.trans hm)).trans ?_
    exact congrArg (fun m => (s.setBit (CLRK_MBOX_STATUS n) 0 true).emit (.msix m 1)) hmgr
  · intro n s h1 h2 hm hp hc hex hfull
    refine ⟨_, rfl, ?_⟩
    rw [State.gated_of hm hp (.inl hc) s.mgrFn_lt (.inl s.mgrFn_ne_standbyFn), s.mboxBit_mgr, Nat.sub_self, if_neg (by simp [isInst_of h1 h2]),
      if_neg hex, State.clearFull, hfull, if_pos rfl, if_pos rfl]
    exact State.post_tells (State.Tells.refl _)

end Sys2Proof.Machine

namespace Sys2Proof.Tests

open Sys2Proof Sys2Proof.Machine

/-- Instance 64 runs on the manager's port. -/
def instReady : State := cvuReady.setInst 64 { state := .running, vf := 1 }

/-- It rings its mailbox. -/
theorem test_doorbellMbox : exec (.doorbellMbox 64 64) instReady = .next ((instReady.setBit (CLRK_MBOX_STATUS 64) 0 true).emit (.msix instReady.mgrFn 1)) :=
  mailboxes.1 64 instReady (by decide) (by decide) (by decide) (by decide) (by decide) (by decide) (by decide) (by decide)

end Sys2Proof.Tests
end

section
/-! The proof of O18: the life of instances (R86 to R92). -/

namespace Sys2Proof.Machine

/-- A reset that reaches one of the instances resets it at once if it is RUNNING, FROZEN or CONTAINED (R90). -/
theorem State.resetBound_of {s : State} {n : Nat} (h : (s.inst n).state ∈ [InstState.running, .frozen, .contained]) : s.resetBound n = s.resetInst n := by
  simp only [List.mem_cons, List.not_mem_nil, or_false] at h
  unfold State.resetBound
  rcases h with h | h | h <;> rw [h]

/-- Settles O18: each command runs the case of its effect that the premises name. -/
theorem instanceLife : Obligations.InstanceLife := by
  unfold Obligations.InstanceLife
  refine ⟨?create, ?reset, ?destroy, ?gone, ?resize, ?grace⟩
  case create =>
    rintro pk s t p n g u v w ha rfl rfl rfl rfl rfl
    exact ha.next rfl
  case reset =>
    intro port vf n s hbound hstate
    refine congrArg Host.Outcome.next ?_
    rw [hbound]
    exact State.resetBound_of hstate
  case destroy =>
    rintro pk s t u p n x ha rfl rfl rfl hfreeze hdetail
    refine ha.next ?_
    rw [effInstDestroy]
    simp only [hfreeze, hdetail, Option.isSome_none, Bool.false_eq_true, false_and, if_false]
  case gone =>
    rintro n pk s t hsafe hstate hpk hfreeze href rfl
    refine (if_neg (by simp [hsafe])).trans (congrArg Host.Outcome.next ?_)
    rw [hstate, hpk]
    exact if_neg (by simp [href, hfreeze])
  case resize =>
    rintro pk s t u v p n g ha rfl rfl rfl rfl hfits
    exact ha.next (if_pos hfits)
  case grace =>
    intro n s hsafe hresize
    exact (if_neg (by simp [hsafe])).trans (congrArg Host.Outcome.next (if_pos hresize))

end Sys2Proof.Machine

namespace Sys2Proof.Tests

open Sys2Proof Sys2Proof.Machine

/-- A reset of virtual function 1 of the manager's port resets number 64 of the instances, which runs there. -/
theorem test_functionLevelReset : exec (.functionLevelReset 0 1) instReady = .next (instReady.resetInst 64) :=
  instanceLife.2.1 0 1 64 instReady (by decide) (by decide)

end Sys2Proof.Tests
end

section
/-! The proof of O19: instances are frozen, saved, restored and thawed (R100 to R107). -/

namespace Sys2Proof.Machine

/-- Settles O19: each command runs the case of its effect that the premises name. -/
theorem instanceMigration : Obligations.InstanceMigration := by
  unfold Obligations.InstanceMigration
  refine ⟨?freeze, ?frozen, ?thaw, ?save, ?restore⟩
  case freeze =>
    rintro pk s t p n ha rfl hstate
    exact ⟨_, rfl, ha.next (if_neg hstate)⟩
  case frozen =>
    intro n pk s hclerk hpk hstate hflr hnone
    refine ⟨_, rfl, (if_neg (by simp [hclerk])).trans (congrArg Host.Outcome.next ?_)⟩
    rw [hpk]
    dsimp only
    rw [if_neg (by simp [hnone]), hflr, hstate, if_pos rfl]
    exact if_neg (by simp)
  case thaw =>
    rintro pk s t u v p n time ha rfl hrestored hlost rfl rfl
    refine ha.next ?_
    rw [effInstThaw, hrestored]
    dsimp only
    rw [if_pos hlost]
  case save =>
    rintro pk s t u p n img ha rfl hclear hlink rfl hroom hgood rfl
    refine ha.next ?_
    rw [effInstSave]
    have hnot : ¬ par p 17 1 = 1 := by omega
    have hplain : decide (par p 17 1 = 1) = false := decide_eq_false hnot
    simp only [hplain, if_neg hnot, hgood]
    rw [if_neg (by simp [hlink]), if_neg (by simpa using hroom)]
  case restore =>
    intro pk img s t u v ks p n hidle ha hn hlink hload hrest
    subst hn
    have hnot : ¬ s.insts.restoring.map Prod.fst = some pk := by rw [hidle]; simp
    refine (congrArg Host.Outcome.next (if_neg hnot)).trans (ha.next ?_)
    rw [effInstRestore]
    dsimp only
    rw [if_neg (by simp [hlink]), hload]
    dsimp only
    rw [← hrest]

end Sys2Proof.Machine

namespace Sys2Proof.Tests

open Sys2Proof Sys2Proof.Machine

/-- Instance 64 freezes, with no packet of it in flight. -/
def instFreezing : State := instReady.setInst 64 { state := .freezing, vf := 1, freezePk := some (pkt 0 1 [(16, 1, 64)]) }

/-- Its freeze ends. -/
theorem test_freezeComplete : ∃ u : State, exec (.freezeComplete 64) instFreezing = .next (u.complete (pkt 0 1 [(16, 1, 64)]) .ok 0 0 0) := by
  obtain ⟨u, -, h⟩ := instanceMigration.2.1 64 (pkt 0 1 [(16, 1, 64)]) instFreezing (by decide) (by decide) (by decide) (by decide) (by decide)
  exact ⟨u, h⟩

end Sys2Proof.Tests
end

section
/-! SUPPORT and the proof of O21: what notices leave, the manager's control register, and LOSS (R97 to R99). -/

namespace Sys2Proof.Machine

/-- Notices leave the instances as they were. -/
theorem State.Tells.insts {s t : State} (h : s.Tells t) : t.insts = s.insts := (congrArg State.insts h.1).trans rfl

/-- They leave the object memory. -/
theorem State.Tells.mem {s t : State} (h : s.Tells t) : t.mem = s.mem := (congrArg State.mem h.1).trans rfl

/-- They leave the Registrar. -/
theorem State.Tells.shm {s t : State} (h : s.Tells t) : t.shm = s.shm := (congrArg State.shm h.1).trans rfl

/-- They leave the fields of every register that is not a ring's. -/
theorem State.Tells.getF {s t : State} (h : s.Tells t) {a : Nat} (ha : inRings a = false) (f : Fld) : t.getF a f = s.getF a f := by
  simp only [State.getF, h.2.2 a ha]

/-- A field set to what it holds leaves the word. -/
theorem setBits_bits (v hi lo : Nat) : setBits v hi lo (bits v hi lo) = v := by
  have hmod : bits v hi lo % 2 ^ (hi + 1 - lo) = bits v hi lo := Nat.mod_mod _ _
  have hle : bits v hi lo * 2 ^ lo ≤ v :=
    (Nat.mul_le_mul_right _ (Nat.mod_le _ _)).trans (Nat.div_mul_le_self v (2 ^ lo))
  rw [setBits, hmod, Nat.sub_add_cancel hle]

/-- A field of a register set to what it holds leaves every register. -/
theorem State.reg_setF_getF (s : State) (a b : Nat) (f : Fld) : (s.setF a f (s.getF a f)).reg b = s.reg b := by
  rw [State.setF, State.getF, setBits_bits]
  by_cases h : b = a
  · rw [h, State.reg_setReg, Nat.mod_eq_of_lt (s.reg_lt a)]
  · exact s.reg_setReg_ne _ h

/-- LOSS follows the conditions, and the standby is told (R98). -/
theorem State.settleLoss_tells (s : State) :
    (s.setF INST_MGR_STATUS INST_MGR_STATUS_LOSS (b2n (s.insts.lossLink || s.insts.lossBeat || s.insts.handover))).Tells s.settleLoss := by
  unfold State.settleLoss
  cases hlost : s.insts.lossLink || s.insts.lossBeat || s.insts.handover
  · exact State.Tells.refl _
  · by_cases hset : s.getF INST_MGR_STATUS INST_MGR_STATUS_LOSS = 1
    · rw [if_pos rfl, if_pos hset]
      refine ⟨rfl, rfl, fun a _ => ?_⟩
      rw [show b2n true = s.getF INST_MGR_STATUS INST_MGR_STATUS_LOSS from hset.symm, State.reg_setF_getF]
    · rw [if_pos rfl, if_neg hset]
      exact State.post_tells (State.Tells.refl _)

/-- LOSS where a condition holds. -/
theorem State.settleLoss_loss (s : State) :
    s.settleLoss.getF INST_MGR_STATUS INST_MGR_STATUS_LOSS = b2n (s.insts.lossLink || s.insts.lossBeat || s.insts.handover) := by
  rw [s.settleLoss_tells.getF (by decide), State.getF_setF _ (by decide) (by decide)]
  exact Nat.mod_eq_of_lt (b2n_lt_two _)

/-- The manager's control register is as it was. -/
theorem State.settleLoss_ctrl (s : State) (f : Fld) : s.settleLoss.getF INST_MGR_CTRL f = s.getF INST_MGR_CTRL f := by
  rw [s.settleLoss_tells.getF (by decide), State.getF_setF_ne _ (by decide)]

/-- The instances, the memory and the Registrar are as they were. -/
theorem State.settleLoss_rest (s : State) : s.settleLoss.insts = s.insts ∧ s.settleLoss.mem = s.mem ∧ s.settleLoss.shm = s.shm :=
  ⟨s.settleLoss_tells.insts, s.settleLoss_tells.mem, s.settleLoss_tells.shm⟩

/-- With no condition LOSS is 0. -/
theorem State.settleLoss_none {s : State} (h : (s.insts.lossLink || s.insts.lossBeat || s.insts.handover) = false) :
    s.settleLoss = s.setF INST_MGR_STATUS INST_MGR_STATUS_LOSS 0 :=
  if_neg (by simp [h])

/-- The state in which the manager's control register holds `v`, before LOSS follows (R98). -/
def State.mgrCtrlTaken (s : State) (v : Nat) : State :=
  let t := if bit v 31 ∨ bits v 15 0 ≠ s.getF INST_MGR_CTRL INST_MGR_CTRL_HB_PERIOD then s.restartBeat else s
  let t := (t.setF INST_MGR_CTRL INST_MGR_CTRL_HB_PERIOD (bits v 15 0)).setF INST_MGR_CTRL INST_MGR_CTRL_ARM (bits v 16 16)
  if bit v 30 then { t with insts := { t.insts with handover := true } } else t

/-- The manager's write of its control register, with a period in range, takes effect. -/
theorem State.MgrWrites.writeMgrCtrl {s : State} (h : s.MgrWrites) {v : Nat} (hv : bits v 15 0 ≤ 10000) :
    s.writeMgrCtrl s.mgrFn v = (s.mgrCtrlTaken v).settleLoss :=
  h.regWrite.trans (if_neg (Nat.not_lt.mpr hv))

/-- The instances after such a write. -/
theorem State.mgrCtrlTaken_insts (s : State) (v : Nat) : (s.mgrCtrlTaken v).insts =
    let l := if bit v 31 ∨ bits v 15 0 ≠ s.getF INST_MGR_CTRL INST_MGR_CTRL_HB_PERIOD then s.restartBeat.insts else s.insts
    if bit v 30 then { l with handover := true } else l := by
  unfold State.mgrCtrlTaken
  dsimp only
  split <;> split <;> rfl

/-- HB_PERIOD, ARM, memory and Registrar after such a write. -/
theorem State.mgrCtrlTaken_rest (s : State) (v : Nat) :
    (s.mgrCtrlTaken v).getF INST_MGR_CTRL INST_MGR_CTRL_HB_PERIOD = bits v 15 0 ∧
    (s.mgrCtrlTaken v).getF INST_MGR_CTRL INST_MGR_CTRL_ARM = bits v 16 16 ∧ (s.mgrCtrlTaken v).mem = s.mem ∧ (s.mgrCtrlTaken v).shm = s.shm := by
  have hperiod : ∀ t : State, ((t.setF INST_MGR_CTRL INST_MGR_CTRL_HB_PERIOD (bits v 15 0)).setF INST_MGR_CTRL INST_MGR_CTRL_ARM (bits v 16 16)).getF
      INST_MGR_CTRL INST_MGR_CTRL_HB_PERIOD = bits v 15 0 := fun t => by
    rw [State.getF_setF_field _ (by decide) (by decide) (by decide), State.getF_setF _ (by decide) (by decide)]
    exact Nat.mod_mod _ _
  have harm : ∀ t : State, ((t.setF INST_MGR_CTRL INST_MGR_CTRL_HB_PERIOD (bits v 15 0)).setF INST_MGR_CTRL INST_MGR_CTRL_ARM (bits v 16 16)).getF
      INST_MGR_CTRL INST_MGR_CTRL_ARM = bits v 16 16 := fun t => by
    rw [State.getF_setF _ (by decide) (by decide)]
    exact Nat.mod_mod _ _
  unfold State.mgrCtrlTaken
  dsimp only
  split <;> split <;> exact ⟨hperiod _, harm _, rfl, rfl⟩

/-- The writable fields of the control register, with BEAT. -/
theorem State.mgrCtrl_beat (s : State) : bits (s.mgrCtrl + 2 ^ 31) 15 0 = s.getF INST_MGR_CTRL INST_MGR_CTRL_HB_PERIOD ∧
    bits (s.mgrCtrl + 2 ^ 31) 16 16 = s.getF INST_MGR_CTRL INST_MGR_CTRL_ARM ∧ bit (s.mgrCtrl + 2 ^ 31) 31 = true ∧
    bit (s.mgrCtrl + 2 ^ 31) 30 = false := by
  simp only [State.mgrCtrl, State.getF, INST_MGR_CTRL_HB_PERIOD, INST_MGR_CTRL_ARM, bits, bit_eq_decide, decide_eq_true_eq, decide_eq_false_iff_not]
  generalize s.reg INST_MGR_CTRL = r
  norm_num
  omega

/-- The same with HANDOVER. -/
theorem State.mgrCtrl_handover (s : State) : bits (s.mgrCtrl + 2 ^ 30) 15 0 = s.getF INST_MGR_CTRL INST_MGR_CTRL_HB_PERIOD ∧
    bit (s.mgrCtrl + 2 ^ 30) 31 = false ∧ bit (s.mgrCtrl + 2 ^ 30) 30 = true := by
  simp only [State.mgrCtrl, State.getF, INST_MGR_CTRL_HB_PERIOD, bits, bit_eq_decide, decide_eq_true_eq, decide_eq_false_iff_not]
  generalize s.reg INST_MGR_CTRL = r
  norm_num
  omega

/-- The same with another period. -/
theorem State.mgrCtrl_period (s : State) {ms : Nat} (h : ms ≤ 10000) : bits (setBits s.mgrCtrl 15 0 ms) 15 0 = ms ∧
    bits (setBits s.mgrCtrl 15 0 ms) 16 16 = s.getF INST_MGR_CTRL INST_MGR_CTRL_ARM ∧ bit (setBits s.mgrCtrl 15 0 ms) 30 = false := by
  simp only [State.mgrCtrl, State.getF, INST_MGR_CTRL_ARM, bits, setBits, bit_eq_decide, decide_eq_false_iff_not]
  generalize s.reg INST_MGR_CTRL = r
  norm_num
  omega

/-- A takeover leaves no condition of a loss (R98, R99). -/
theorem State.settleLoss_takeover (v : State) (pk : Pkt) :
    ({ v with insts := { v.insts with lossLink := false, lossBeat := false, handover := false, beatAt := v.now, takeover := some pk } } :
      State).settleLoss =
    ({ v with insts := { v.insts with lossLink := false, lossBeat := false, handover := false, beatAt := v.now, takeover := some pk } } :
      State).setF INST_MGR_STATUS INST_MGR_STATUS_LOSS 0 :=
  State.settleLoss_none rfl

/-- Settles O21: the manager's write takes effect and LOSS follows the conditions; the takeover and its end run their effects. -/
theorem managerAndStandby : Obligations.ManagerAndStandby := by
  unfold Obligations.ManagerAndStandby
  refine ⟨?beat, ?handover, ?period, ?loss, ?cleared, ?takeover, ?complete⟩
  case beat =>
    intro s hl hp hc hperiod
    have hw : s.MgrWrites := ⟨s.mgrFn_lt, s.mgrFn_ne_standbyFn, hl, hp, hc⟩
    obtain ⟨h15, h16, h31, h30⟩ := s.mgrCtrl_beat
    have hinsts := s.mgrCtrlTaken_insts (s.mgrCtrl + 2 ^ 31)
    rw [h31, h30, if_pos (Or.inl rfl), if_neg Bool.false_ne_true] at hinsts
    obtain ⟨hhb, harm, hmem, hshm⟩ := s.mgrCtrlTaken_rest (s.mgrCtrl + 2 ^ 31)
    refine ⟨_, congrArg Host.Outcome.next (hw.writeMgrCtrl (h15.trans_le hperiod)), ?_, ?_, ?_, ?_, ?_, ?_⟩
    · exact (State.settleLoss_rest _).1.trans hinsts
    · rw [State.settleLoss_ctrl, hhb, h15]
    · rw [State.settleLoss_ctrl, harm, h16]
    · rw [State.settleLoss_loss, hinsts]; exact congrArg b2n (by simp [State.restartBeat])
    · exact (State.settleLoss_rest _).2.1.trans hmem
    · exact (State.settleLoss_rest _).2.2.trans hshm
  case handover =>
    intro s hl hp hc hperiod
    have hw : s.MgrWrites := ⟨s.mgrFn_lt, s.mgrFn_ne_standbyFn, hl, hp, hc⟩
    obtain ⟨h15, h31, h30⟩ := s.mgrCtrl_handover
    have hinsts := s.mgrCtrlTaken_insts (s.mgrCtrl + 2 ^ 30)
    have hsame : ¬ (false = true ∨ s.getF INST_MGR_CTRL INST_MGR_CTRL_HB_PERIOD ≠ s.getF INST_MGR_CTRL INST_MGR_CTRL_HB_PERIOD) := by simp
    rw [h31, h30, h15, if_neg hsame, if_pos rfl] at hinsts
    obtain ⟨-, -, hmem, hshm⟩ := s.mgrCtrlTaken_rest (s.mgrCtrl + 2 ^ 30)
    refine ⟨_, congrArg Host.Outcome.next (hw.writeMgrCtrl (h15.trans_le hperiod)), ?_, ?_, ?_, ?_⟩
    · exact (State.settleLoss_rest _).1.trans hinsts
    · rw [State.settleLoss_loss, hinsts]; simp [b2n]
    · exact (State.settleLoss_rest _).2.1.trans hmem
    · exact (State.settleLoss_rest _).2.2.trans hshm
  case period =>
    intro s ms hl hp hc hms hne
    have hw : s.MgrWrites := ⟨s.mgrFn_lt, s.mgrFn_ne_standbyFn, hl, hp, hc⟩
    obtain ⟨h15, h16, h30⟩ := s.mgrCtrl_period hms
    have hinsts := s.mgrCtrlTaken_insts (setBits s.mgrCtrl 15 0 ms)
    rw [h15, h30, if_pos (Or.inr hne), if_neg Bool.false_ne_true] at hinsts
    obtain ⟨hhb, harm, hmem, hshm⟩ := s.mgrCtrlTaken_rest (setBits s.mgrCtrl 15 0 ms)
    refine ⟨_, congrArg Host.Outcome.next (hw.writeMgrCtrl (h15.trans_le hms)), ?_, ?_, ?_, ?_, ?_⟩
    · exact (State.settleLoss_rest _).1.trans hinsts
    · rw [State.settleLoss_ctrl, hhb, h15]
    · rw [State.settleLoss_ctrl, harm, h16]
    · exact (State.settleLoss_rest _).2.1.trans hmem
    · exact (State.settleLoss_rest _).2.2.trans hshm
  case loss =>
    intro s hl
    refine ⟨_, congrArg Host.Outcome.next ((if_pos rfl).trans (if_neg (by simp [hl]))), ?_, ?_, ?_, ?_⟩
    · exact (State.settleLoss_tells _).insts
    · rw [State.settleLoss_loss]; simp [b2n]
    · exact (State.settleLoss_tells _).mem
    · exact (State.settleLoss_tells _).shm
  case cleared =>
    intro s hl hperiod hhandover
    refine congrArg Host.Outcome.next ?_
    rw [State.settleLoss_none (by simp [hl, hperiod, hhandover])]
    simp [hl, hperiod]
  case takeover =>
    rintro pk s t u v p l ha hswitch rfl rfl rfl
    refine ⟨_, ha.next (if_neg (by simp [hswitch])), ?_⟩
    dsimp only
    rw [State.settleLoss_takeover]
    exact foldl_tells _ (fun u f hu => State.post_tells hu) (State.capChangedFn_tells (State.capChangedFn_tells (State.Tells.refl _)))
  case complete =>
    intro pk s hpk
    refine congrArg Host.Outcome.next ?_
    rw [hpk]

end Sys2Proof.Machine

namespace Sys2Proof.Tests

open Sys2Proof Sys2Proof.Machine

/-- The manager declares itself lost where its write reaches the register. -/
theorem test_mgrHandover : ∃ t, exec (.mgrHandover 0) cvuReady = .next t ∧ t.getF INST_MGR_STATUS INST_MGR_STATUS_LOSS = 1 := by
  obtain ⟨t, hexec, -, hloss, -⟩ := managerAndStandby.2.1 cvuReady (by decide) (by decide) (by decide) (by decide)
  exact ⟨t, hexec, hloss⟩

/-- With no heartbeat period and the link up, nothing keeps the loss. -/
theorem test_managerLossCleared : ∃ t : State, exec .managerLossCleared cvuReady = .next (t.setF INST_MGR_STATUS INST_MGR_STATUS_LOSS 0) :=
  ⟨_, managerAndStandby.2.2.2.2.1 cvuReady (by decide) (by decide) (by decide)⟩

end Sys2Proof.Tests
end

section
/-! SUPPORT and the proof of O22: objects are allocated, freed, made resident, hinted and queried (R111 to R120, R239, R240). -/

namespace Sys2Proof.Machine

/-- An entry of the Shelfmark Table is that of the Registrar's state. -/
theorem State.shelf_congr {s t : State} (h : s.shm = t.shm) (i : Nat) : s.shelf i = t.shelf i := by
  rw [State.shelf, State.shelf, h]

/-- A hint that selects neither CLASS nor ATTR sets DEADLINE and PERIOD as selected (R120). -/
theorem State.applyHint_timing {s : State} {i : Nat} {p : List Byte} (h0 : bit (par p 20 1) 0 = false) (h1 : bit (par p 20 1) 1 = false) :
    s.applyHint i p = s.setObj i (fun o => { o with desc := { o.desc with
      deadline := if bit (par p 20 1) 2 then par p 24 4 else o.desc.deadline
      period := if bit (par p 20 1) 3 then par p 28 4 else o.desc.period } }) := by
  unfold State.applyHint
  simp only [h0, h1, Bool.false_eq_true, if_false]

/-- Settles O22: an admitted command runs the case of its effect that the premises name; a new object fills its entry alone. -/
theorem objectCommands : Obligations.ObjectCommands := by
  unfold Obligations.ObjectCommands
  refine ⟨?alloc, ?allocSparse, ?free, ?residency, ?hint, ?query⟩
  case alloc =>
    intro pk s t u p i a runs ha hindex hplace hdva
    obtain ⟨hshm, -, hregs⟩ := State.chooseDva_same hdva
    have hshelf := State.shelf_congr hshm
    refine ⟨u.newObject (t.ownerOf pk.fn) i a p runs none none (par p 28 4) (par p 32 4),
      { owner := t.ownerOf pk.fn, desc := newDesc i (t.shelf i).gen a p none (par p 28 4) (par p 32 4), born := u.shm.births, runs := runs, feedback := none },
      ha.next ?_, (State.newObject_shelf ..).trans (by rw [hshelf]), rfl, rfl, rfl, rfl, rfl, rfl, rfl, rfl, rfl, rfl, rfl,
      fun j hj => (State.newObject_shelf_ne _ _ _ _ _ _ _ _ _ _ hj).trans (hshelf j), (State.newObject_regs ..).trans hregs⟩
    unfold effShmAlloc
    dsimp only
    rw [hindex, hplace, hdva, ← hshelf i]
  case allocSparse =>
    intro pk s t u p i a ha hindex hdva
    obtain ⟨hshm, -, hregs⟩ := State.chooseDva_same hdva
    have hshelf := State.shelf_congr hshm
    refine ⟨u.newObject (t.ownerOf pk.fn) i a p [] (some []) (if par p 28 4 = 0 then none else some (par p 28 4, par p 32 4)) 0 0,
      { owner := t.ownerOf pk.fn, desc := newDesc i (t.shelf i).gen a p (some []) 0 0, born := u.shm.births, runs := []
        feedback := if par p 28 4 = 0 then none else some (par p 28 4, par p 32 4) },
      ha.next ?_, (State.newObject_shelf ..).trans (by rw [hshelf]), rfl, rfl, rfl, rfl, rfl, rfl, rfl, rfl,
      fun j hj => (State.newObject_shelf_ne _ _ _ _ _ _ _ _ _ _ hj).trans (hshelf j), (State.newObject_regs ..).trans hregs⟩
    unfold effShmAllocSparse
    dsimp only
    rw [hindex, hdva, ← hshelf i]
  case free =>
    intro pk s t p ha hused hmirror
    refine ha.next ?_
    rw [effShmFree, if_neg (by simp [hused]), if_neg (by simp [hmirror])]
    rfl
  case residency =>
    intro pk s t p o had runs ha hobj hsparse hadd hplace
    have hres : t.residentOf (par p 16 4) = some had := by rw [State.residentOf, hobj]; exact hsparse
    refine ha.next ?_
    rw [effShmSetResidency, hres, hobj]
    dsimp only [Option.getD_some]
    rw [if_pos hadd, hplace]
  case hint =>
    intro pk s t p o ha hobj h0 h1
    refine ha.next ?_
    rw [effShmHint, hobj]
    dsimp only
    simp only [h0, h1, Bool.false_eq_true, false_and, if_false, if_true]
    rw [State.applyHint_timing h0 h1]
    rfl
  case query =>
    intro pk s t p o ha hobj
    refine ha.next ?_
    rw [effShmQuery, hobj]

end Sys2Proof.Machine

namespace Sys2Proof.Tests

open Sys2Proof Sys2Proof.Machine

/-- An object of the manager stands at index 5. -/
def objReady : State := State.reset.newObject 0 5 0x10000 [] [] none none 0 0

/-- The manager's query of it is let through, and answers its size. -/
theorem test_shmQuery : ∃ (t : State) (w : Nat), exec (.shmQuery (pkt 0 1 [(16, 4, mkHandle 5 1)])) objReady =
    .next (t.complete (pkt 0 1 [(16, 4, mkHandle 5 1)]) .ok 0 0 w) :=
  ⟨_, _, objectCommands.2.2.2.2.2 (pkt 0 1 [(16, 4, mkHandle 5 1)]) objReady _ _
    ((objReady.shelf 5).obj.getD { owner := 0, desc := newDesc 5 1 0x10000 [] none 0 0, born := 0, runs := [], feedback := none })
    ⟨by decide, rfl, rfl⟩ (by decide)⟩

end Sys2Proof.Tests
end

section
/-! SUPPORT and the proof of O24: granule moves and placement epochs (R117, R122 to R129, R139). -/

namespace Sys2Proof.Machine

/-- The first state differs from the second in the contents of the Shelfmark Table at most, among registers, memory and the Registrar. -/
structure State.SameButEntries (s t : State) : Prop where
  regs : t.regs = s.regs
  mem : t.mem = s.mem
  shm : t.shm = { s.shm with entries := t.shm.entries }

/-- A change of an object keeps that. -/
theorem State.SameButEntries.setObj {s t : State} (h : s.SameButEntries t) (i : Nat) (g : Obj → Obj) : s.SameButEntries (t.setObj i g) := by
  obtain ⟨hregs, hmem, hshm⟩ := h
  have hset : (t.setObj i g).shm = { t.shm with entries := (t.setObj i g).shm.entries } := rfl
  exact ⟨hregs, hmem, hset.trans (by rw [hshm])⟩

/-- So does a chain of such changes over a list. -/
theorem foldl_sameButEntries {α : Type} {g : State → α → State} {s t : State} (l : List α)
    (hg : ∀ u x, s.SameButEntries u → s.SameButEntries (g u x)) (h : s.SameButEntries t) : s.SameButEntries (l.foldl g t) := by
  induction l generalizing t with
  | nil => exact h
  | cons x r ih => exact ih (hg t x h)

/-- A state is as itself. -/
theorem State.SameButEntries.refl (s : State) : s.SameButEntries s := ⟨rfl, rfl, rfl⟩

/-- Copies and mirrors that are published change objects alone (R128, R139). -/
theorem publish_sameButEntries {s t : State} (shadows mirrors : List (Nat × Nat × Nat)) (h : s.SameButEntries t) :
    s.SameButEntries (mirrors.foldl (fun t h =>
      if t.mirrorAllowed h.1 h.2.2 then
        t.setObj h.1 (fun o => if (o.gran h.2.1).mirrors.contains h.2.2 then o
          else o.setGran h.2.1 { o.gran h.2.1 with mirrors := (o.gran h.2.1).mirrors ++ [h.2.2] })
      else t) (shadows.foldl (fun t h =>
      if h.2.2 < 16 ∧ t.shadowAllowed h.1 h.2.1 h.2.2 then
        t.setObj h.1 (fun o => o.setGran h.2.1 { o.gran h.2.1 with shadow := some h.2.2 }) else t) t)) := by
  refine foldl_sameButEntries _ (fun u x hu => ?_) (foldl_sameButEntries _ (fun u x hu => ?_) h)
  · split
    · exact hu.setObj _ _
    · exact hu
  · split
    · exact hu.setObj _ _
    · exact hu

/-- A field depends on the registers alone. -/
theorem State.getF_congr {s t : State} (h : t.regs = s.regs) (a : Nat) (f : Fld) : t.getF a f = s.getF a f := by
  simp only [State.getF, State.reg, h]

/-- Whether the Clerk runs depends on HOST_ERR_STATUS, the error state and the firmware. -/
theorem State.clerkRuns_congr {s t : State} (hf : t.getF HOST_ERR_STATUS HOST_ERR_STATUS_CLRK_DOWN = s.getF HOST_ERR_STATUS HOST_ERR_STATUS_CLRK_DOWN)
    (he : t.err = s.err) (hw : t.fw = s.fw) : t.clerkRuns = s.clerkRuns := by
  simp only [State.clerkRuns, State.clerkStopped, hf, he, hw]

/-- The owners of the objects whose eighth epoch outside their first choice this is are told (R127). -/
def State.tellDegraded (s : State) : State :=
  (s.objects.filter (fun (o : Nat × Obj) => decide (o.2.degraded = 8) && isInst o.2.owner)).foldl (fun (t : State) (o : Nat × Obj) =>
    t.post o.2.owner 0x8204 0 o.2.desc.handle 0) s

/-- It only tells. -/
theorem State.tellDegraded_tells (s : State) : s.Tells s.tellDegraded :=
  foldl_tells _ (fun _ _ hu => State.post_tells hu) (State.Tells.refl _)

/-- The policy run of an epoch starts from what the state before the notices holds (R124, R126). -/
theorem State.Tells.policyRun {s t u : State} (h : t.Tells u) (hr : t.regs = s.regs) (he : t.err = s.err) (hw : t.fw = s.fw) (x : Nat) :
    u.getF REGR_CTRL REGR_CTRL_PAUSE = s.getF REGR_CTRL REGR_CTRL_PAUSE ∧
    (u.setF REGR_STATUS REGR_STATUS_PAUSED x).getF REGR_STATUS REGR_STATUS_POLICY_UP = s.getF REGR_STATUS REGR_STATUS_POLICY_UP ∧
    (u.setF REGR_STATUS REGR_STATUS_PAUSED x).clerkRuns = s.clerkRuns := by
  have herr : u.err = t.err := (congrArg State.err h.1).trans rfl
  have hfw : u.fw = t.fw := (congrArg State.fw h.1).trans rfl
  refine ⟨?_, ?_, State.clerkRuns_congr ?_ (by rw [State.setF_err, herr, he]) (by rw [State.setF_fw, hfw, hw])⟩
  · rw [h.getF (by decide), State.getF_congr hr]
  · rw [State.getF_setF_field _ (by decide) (by decide) (by decide), h.getF (by decide), State.getF_congr hr]
  · rw [State.getF_setF_ne _ (by decide), h.getF (by decide), State.getF_congr hr]

/-- PAUSED follows the control register, and the policy runs unless it is paused or down (R124, R126). -/
def State.startPolicyRun (s : State) : State :=
  let paused := s.getF REGR_CTRL REGR_CTRL_PAUSE
  let s := s.setF REGR_STATUS REGR_STATUS_PAUSED paused
  { s with shm := { s.shm with policyRun := decide (paused = 0) && decide (s.getF REGR_STATUS REGR_STATUS_POLICY_UP = 1) && s.clerkRuns } }

/-- After notices it starts from what the state before them holds. -/
theorem State.Tells.startPolicyRun {s t u : State} (h : t.Tells u) (hr : t.regs = s.regs) (he : t.err = s.err) (hw : t.fw = s.fw) :
    u.startPolicyRun = { u.setF REGR_STATUS REGR_STATUS_PAUSED (s.getF REGR_CTRL REGR_CTRL_PAUSE) with shm := { u.shm with
      policyRun := decide (s.getF REGR_CTRL REGR_CTRL_PAUSE = 0) && decide (s.getF REGR_STATUS REGR_STATUS_POLICY_UP = 1) && s.clerkRuns } } := by
  obtain ⟨hpause, hup, hruns⟩ := h.policyRun hr he hw (s.getF REGR_CTRL REGR_CTRL_PAUSE)
  unfold State.startPolicyRun
  dsimp only
  rw [hpause, hup, hruns, State.setF_shm]

/-- Settles O24: a command in its turn runs the case of its meaning that the premises name. -/
theorem movesAndEpochs : Obligations.MovesAndEpochs := by
  unfold Obligations.MovesAndEpochs
  refine ⟨?pass, ?flip, ?drained, ?limit, ?freed, ?epoch, ?published, ?overrun, ?expired⟩
  case pass =>
    intro i g s m hsafe hmove hhold hfirst hdirty hgood
    refine (if_neg (by simp [hsafe])).trans (congrArg Host.Outcome.next ?_)
    rw [hmove]
    dsimp only
    rw [if_neg (by simp [hhold]), if_pos hfirst, if_neg (by simp [hgood]), if_pos hdirty]
  case flip =>
    intro i g s m o hsafe hmove hobj hhold hpermits hgood
    refine ⟨_, _, rfl, rfl, (if_neg (by simp [hsafe])).trans (congrArg Host.Outcome.next ?_)⟩
    rw [hmove, hobj]
    dsimp only
    rw [if_neg (by simp [hhold]), if_neg (by simp [hpermits]), hgood]
    rfl
  case drained =>
    intro i g s hsafe
    exact if_neg (by simp [hsafe])
  case limit =>
    intro i g s m hsafe hmove hhold
    refine (if_neg (by simp [hsafe])).trans (congrArg Host.Outcome.next ?_)
    rw [hmove]
    exact if_neg (by simp [hhold])
  case freed =>
    intro i s hsafe hframes hobj
    refine ⟨_, if_neg (by simp [hsafe, hframes]), ?_, ?_⟩
    · rw [if_pos (by simp [hobj])]
      exact State.wipe_regs s i 0 262144
    · rw [if_pos (by simp [hobj])]
      change ({ (s.wipe i 0 262144).shm with draining := _ } : ShmState) = _
      rw [State.wipe_shm]
  case epoch =>
    intro s hentry hdormant hsafe t ht
    have hquiet : ¬ (s.pwr.entry.isSome || s.dormant || s.safe) = true := by simp [hentry, hdormant, hsafe]
    have hregs : t.regs = s.regs := (congrArg State.regs ht).trans rfl
    have herr : t.err = s.err := (congrArg State.err ht).trans rfl
    have hfw : t.fw = s.fw := (congrArg State.fw ht).trans rfl
    have hrun : exec .placementEpoch s = .next t.tellDegraded.startPolicyRun := by
      rw [ht]
      exact if_neg hquiet
    exact ⟨t.tellDegraded, t.tellDegraded_tells, hrun.trans (congrArg Host.Outcome.next (t.tellDegraded_tells.startPolicyRun hregs herr hfw))⟩
  case published =>
    rintro moves allot shadows mirrors s t u hclerk hrun rfl rfl
    refine ⟨_, (if_neg (by simp [hclerk])).trans (congrArg Host.Outcome.next (if_pos hrun)), ?_⟩
    obtain ⟨hregs, hmem, hshm⟩ := publish_sameButEntries shadows mirrors (State.SameButEntries.refl _)
    exact ⟨hregs, hshm, hmem⟩
  case overrun =>
    intro s hrun
    exact ⟨_, congrArg Host.Outcome.next (if_pos hrun), State.postMgr_tells (State.Tells.refl _)⟩
  case expired =>
    intro pk s f hclerk hwaits hflight hcommitted
    refine (if_neg (by simp [hclerk])).trans (congrArg Host.Outcome.next (if_pos ⟨?_, ?_⟩))
    · exact List.contains_iff_mem.mpr hwaits
    · simp [hflight, hcommitted]

end Sys2Proof.Machine

namespace Sys2Proof.Tests

open Sys2Proof Sys2Proof.Machine

/-- The policy runs. -/
def policyRunning : State := { State.reset with shm := { State.reset.shm with policyRun := true } }

/-- Its overrun ends it and counts. -/
theorem test_epochOverrun : ∃ t, exec .epochOverrun policyRunning = .next t ∧
    (({ policyRunning with shm := { policyRunning.shm with policyRun := false } } : State).count REGR_OVERRUN_COUNT).Tells t :=
  movesAndEpochs.2.2.2.2.2.2.2.1 policyRunning (by decide)

end Sys2Proof.Tests
end

section
/-! The proof of O25: layers, flips, tables and poses (R255 to R258, R262, R263, R270, R283 to R285). -/

namespace Sys2Proof.Machine

/-- Settles O25: each command, and what the latch makes of it, is the case that the premises name. -/
theorem layersAndPoses : Obligations.LayersAndPoses := by
  unfold Obligations.LayersAndPoses
  refine ⟨?first, ?again, ?flip, ?lut, ?applySet, ?applyFlip, ?pose, ?motion, ?stale, ?released⟩
  case first =>
    rintro pk s t p key ha rfl hfilter hpend
    have hcustom : decide (par p 23 1 = 3) = false := decide_eq_false hfilter
    refine ha.next ?_
    rw [effBndSetLayer]
    dsimp only
    rw [hpend, if_neg (by simp), hcustom]
    simp only [Bool.false_eq_true, if_false]
    rw [setLayerReady, hpend]
  case again =>
    rintro pk old s t u p key l ha rfl hfilter hpend hne rfl
    have hcustom : decide (par p 23 1 = 3) = false := decide_eq_false hfilter
    refine ha.next ?_
    rw [effBndSetLayer]
    dsimp only
    rw [hpend, if_neg (by simpa using hne), hcustom]
    simp only [Bool.false_eq_true, if_false]
    rw [setLayerReady, hpend]
    dsimp only
    rw [if_neg hne]
    rfl
  case flip =>
    rintro pk s t u p key ha rfl hflip
    refine ha.next ?_
    rw [effBndFlip, flipReady]
    dsimp only
    rcases hflip with ⟨hnone, rfl⟩ | ⟨f, hsome, hne, rfl⟩
    · rw [hnone]
    · rw [hsome]
      dsimp only
      rw [if_neg hne]
      rfl
  case lut =>
    intro pk s t u p table ha hmode
    have hread : (if par p 18 1 = 2 then lutBytes t p else []) = table ∧
        (if par p 18 1 = 2 then t.noteRead (handleIndex (par p 20 4)) (par p 24 4) 6144 else t) = u := by
      rcases hmode with ⟨h2, htable, hu⟩ | ⟨h2, htable, hu⟩
      · rw [htable, hu]
        simp only [h2, if_true, and_self]
      · rw [htable, hu, if_neg h2, if_neg h2]
        exact ⟨rfl, rfl⟩
    constructor
    · rintro key h0 rfl hnew
      refine ha.next ?_
      rw [effBndSetLut, hread.1, hread.2]
      dsimp only
      rw [if_pos h0, if_neg (by simp [hnew])]
    · rintro k h1 rfl hnew
      refine ha.next ?_
      rw [effBndSetLut, hread.1, hread.2]
      dsimp only
      rw [if_neg (by omega), if_neg (by simp [hnew])]
  case applySet =>
    intro s key frame l pk hpend hen
    rw [State.applySet, hpend]
    exact if_pos hen
  case applyFlip =>
    rintro s t key frame f hflip rfl
    rw [State.applyFlip, hflip]
    exact if_pos rfl
  case pose => exact fun pk s t p ha => ha.next rfl
  case motion =>
    rintro q s p hsrc rfl
    exact ⟨fun hok => congrArg Host.Outcome.next ((if_pos hsrc).trans (if_pos hok)),
      fun hbad => congrArg Host.Outcome.next ((if_pos hsrc).trans (if_neg (Bool.not_eq_true _ ▸ hbad)))⟩
  case stale =>
    intro s p hpose hfresh hold
    refine ⟨_, rfl, ?_⟩
    rw [hpose]
    dsimp only
    rw [if_pos ⟨hold, hfresh⟩]
    exact foldl_tells _ (fun u o hu => State.postOwner_tells hu) (State.postMgr_tells (State.Tells.refl _))
  case released => exact fun k s => rfl

end Sys2Proof.Machine

namespace Sys2Proof.Tests

open Sys2Proof Sys2Proof.Machine

/-- The current pose is that of the cold boot, two milliseconds and one nanosecond ago. -/
def poseOld : State := { State.reset with now := 2000001, bnd := { State.reset.bnd with pose := some (poseOf 0 0x4000) } }

/-- It is stale. -/
theorem test_poseStale : ∃ t, exec .poseStale poseOld = .next t ∧ (poseOld.setF BND_MOTION_STATUS BND_MOTION_STATUS_POSE_STALE 1).Tells t :=
  layersAndPoses.2.2.2.2.2.2.2.2.1 poseOld (poseOf 0 0x4000) (by decide) (by decide) (by decide)

end Sys2Proof.Tests
end

section
/-! SUPPORT and the proof of O26: the latch, the start of a timing and of a frame, composing and direct writes (R277, R291, R292, R298, R303, R305). -/

namespace Sys2Proof.Machine

/-- An output that is not paired governs itself. -/
theorem State.latchOf_unpaired {s : State} {k : Nat} (h : s.paired k = false) : s.latchOf k = k := by
  rw [State.latchOf, h, if_neg (by decide)]

/-- It has one half. -/
theorem State.halves_unpaired {s : State} {k : Nat} (h : s.paired k = false) : s.halves k = [k] := by
  rw [State.halves, h, if_neg (by decide)]

/-- The timing registers stand in the block of their output. -/
theorem blockIndex_timing {k a : Nat} (hk : k < 8)
    (ha : a = OUT_HACTIVE k ∨ a = OUT_HPORCH k ∨ a = OUT_HSYNC k ∨ a = OUT_VACTIVE k ∨ a = OUT_VPORCH k ∨ a = OUT_VSYNC k) :
    blockIndex 0x140000 0x4000 8 a = some k := by
  simp only [OUT_HACTIVE, OUT_HPORCH, OUT_HSYNC, OUT_VACTIVE, OUT_VPORCH, OUT_VSYNC] at ha
  have hindex : (a - 0x140000) / 0x4000 = k := by omega
  rw [blockIndex, hindex, if_pos ⟨by omega, hk⟩]

/-- Settles O26: each event and each write is the case that the premises name. -/
theorem latchAndFrame : Obligations.LatchAndFrame := by
  unfold Obligations.LatchAndFrame
  refine ⟨?latch, ?change, ?started, ?frame, ?compose, ?scene, ?write, ?register, ?advance⟩
  case latch =>
    rintro k frame s w a b hk hrun hgov hnone hsafe rfl rfl hwsafe rfl rfl
    refine congrArg Host.Outcome.next ((if_pos ⟨hk, hrun, hgov⟩).trans ?_)
    rw [hnone]
    dsimp only
    unfold State.latch
    simp only [hsafe, hwsafe, Bool.false_eq_true, if_false]
  case change =>
    intro k s c hk hrun hgov hsome
    refine congrArg Host.Outcome.next ((if_pos ⟨hk, hrun, hgov⟩).trans ?_)
    rw [hsome]
  case started =>
    rintro k s t u c hk hsome hstep rfl rfl
    refine congrArg Host.Outcome.next ?_
    rw [hsome]
    exact if_pos ⟨hstep, hk⟩
  case frame =>
    rintro k s t hk hrun hgov rfl
    refine ⟨fun c hsome hstep => ?_, fun hnone => ?_⟩
    · refine congrArg Host.Outcome.next ((if_pos ⟨hk, hrun, hgov⟩).trans ?_)
      dsimp only
      rw [hsome]
      exact if_pos hstep
    · refine congrArg Host.Outcome.next ((if_pos ⟨hk, hrun, hgov⟩).trans ?_)
      dsimp only
      rw [hnone]
  case compose =>
    rintro k fills s t u hk hrun rfl rfl hbusy hline hroom
    exact congrArg Host.Outcome.next ((if_pos ⟨hk, hrun⟩).trans (if_pos ⟨hbusy, hline, hroom⟩))
  case scene =>
    intro k s z hk hrun hidle hnext
    unfold State.takeScene
    dsimp only
    rw [if_neg (by simp [hidle]), hnext]
  case write =>
    intro w k a v s t hk hw hown ha hwrite
    refine congrArg Host.Outcome.next ?_
    rw [blockIndex_timing hk ha]
    dsimp only
    rw [if_pos (by simpa using ha), State.writeTiming, hw.regWrite hown, hwrite]
  case register =>
    rintro k a v s t hrun hsingle hc0 hok rfl htotals hpaired
    have hlatch : (s.setReg (a - OUT_HACTIVE k + OUT_HACTIVE k) v).latchOf k = k := State.latchOf_unpaired (hpaired ▸ hsingle)
    unfold State.writeTimingReg
    rw [if_pos ⟨hrun, by simp [hsingle], hc0, hok⟩, State.halves_unpaired hsingle]
    dsimp only [List.foldl]
    rw [hlatch]
    exact if_pos htotals
  case advance =>
    intro w k v s hk hv hw hown hhead hactive
    refine congrArg Host.Outcome.next ((if_pos hk).trans ?_)
    have hbits : bits (v * 2 ^ 16) 22 16 = v := by simp only [bits]; omega
    rw [State.writeLatch, hw.regWrite hown, hbits]
    have hadvance : s.writeAdvance k v = ((s.halves k).foldl (fun t j => t.setF (OUT_LATCH j) OUT_LATCH_ADVANCE v) s, true) :=
      (if_neg hhead).trans (if_pos ⟨hv, .inr hactive⟩)
    rw [hadvance]
    exact if_pos rfl

end Sys2Proof.Machine

namespace Sys2Proof.Tests

open Sys2Proof Sys2Proof.Machine

/-- Output 7 runs, and its timing changes. -/
def outChanging : State := (State.reset.setF (OUT_STATUS 7) OUT_STATUS_STATE 1).setOutp 7 { change := some ⟨none, {}, 0, false, 0, false⟩ }

/-- At its latch the change moves to the next step. -/
theorem test_latchOfChange : exec (.outLatch 7) outChanging =
    .next (outChanging.setOutp 7 { outChanging.outp 7 with change := some ⟨none, {}, 1, false, 0, false⟩ }) :=
  latchAndFrame.2.1 7 outChanging ⟨none, {}, 0, false, 0, false⟩ (by decide) (by decide) (by decide) (by decide)

end Sys2Proof.Tests
end

section
/-! SUPPORT and the proof of O28: lines, tearing effect, hot-plug and AUX (R29, R30, R308 to R312, R316 to R318). -/

namespace Sys2Proof.Machine

/-- What an output keeps, read after it was set. -/
@[simp] theorem State.outp_setOutp (s : State) (k : Nat) (x : OutState) : (s.setOutp k x).outp k = x := tabGet_set_self _ _ _ _

/-- Nor do the registers hold it. -/
@[simp] theorem State.setOutp_regs (s : State) (k : Nat) (x : OutState) : (s.setOutp k x).regs = s.regs := rfl

/-- What an output keeps is not in a register. -/
theorem State.outp_congr {s t : State} (h : t.outs = s.outs) (k : Nat) : t.outp k = s.outp k := by
  rw [State.outp, State.outp, h]

/-- A DisplayPort transaction that is alone has its turn (R316). -/
theorem State.auxTurn_alone {s : State} {k : Nat} {pk : Pkt} (ha : (s.outp k).aux = [pk]) (hm : s.outMode k ≤ 2) : s.auxTurn k pk = true := by
  rw [State.auxTurn, ha]
  simp [hm]

/-- An answer to an operation below 4 takes the transaction out of the queue alone. -/
theorem auxAnswer_dp {pk : Pkt} {k op len o r0 r1 : Nat} (s : State) (h : op ≤ 3) : auxAnswer pk k op len o r0 r1 s =
    let t := s.setOutp k { s.outp k with aux := (s.outp k).aux.filter (fun q => decide (q ≠ pk)) }
    if o = 0 then
      if op = 0 ∨ op = 2 ∨ op = 6 ∨ op = 8 then t.complete pk .ok 0 (auxWord len 0 r0) (auxWord len 1 r1) else t.complete pk .ok
    else t.complete pk .dependencyFailed o r0 (if o = 3 then r1 % 65536 else r1) := by
  unfold auxAnswer
  dsimp only
  rw [if_neg (show ¬ 4 ≤ op by omega)]

/-- Settles O28: each event is the case that the premises name. -/
theorem outputLines : Obligations.OutputLines := by
  unfold Obligations.OutputLines
  refine ⟨?line, ?te, ?missed, ?plug, ?unplug, ?irq, ?aux, ?answer⟩
  case line =>
    rintro k line w s t u l r hrun rfl rfl hactive hw rfl
    constructor
    · intro hfifo hline hframe
      refine congrArg Host.Outcome.next ((if_pos hrun).trans ?_)
      dsimp only
      rw [if_pos hactive, hw, hfifo]
      dsimp only
      rw [if_pos ⟨hline, hframe⟩]
      rfl
    · intro hfifo
      refine congrArg Host.Outcome.next ((if_pos hrun).trans ?_)
      dsimp only
      rw [if_pos hactive, hw, hfifo]
  case te =>
    rintro k f d s t hm hrun rfl rfl
    constructor
    · rintro hok rfl
      refine congrArg Host.Outcome.next ((if_pos ⟨hm, hrun⟩).trans ((if_pos hok).trans ?_))
      exact if_congr Nat.succ_le_succ_iff rfl rfl
    · intro hfirst hbad
      refine congrArg Host.Outcome.next ((if_pos ⟨hm, hrun⟩).trans (if_neg ?_))
      rw [hfirst]
      rintro (h | h)
      · exact absurd h Bool.false_ne_true
      · exact hbad h
  case missed =>
    rintro k s t hm hrun hedge hlit rfl
    have hguard : s.outMode k = 4 ∧ s.outState k = 1 ∧ ¬ (s.outp k).teEdge = true := ⟨hm, hrun, by simp [hedge]⟩
    constructor
    · intro h2
      exact congrArg Host.Outcome.next ((if_pos hguard).trans (if_pos ⟨by omega, (State.getF_congr (State.setOutp_regs ..) _ _).trans hlit⟩))
    · intro h2
      exact congrArg Host.Outcome.next ((if_pos hguard).trans (if_neg fun h => h2 (by omega)))
  case plug => exact fun k s hlow => congrArg Host.Outcome.next (if_neg (by simp [hlow]))
  case unplug =>
    intro k s t hhigh ht hrun hm hnone
    have houts : ((t.setF (OUT_STATUS k) OUT_STATUS_LINK_UP 0).count (OUT_LINK_LOSS_COUNT k)).outs = s.outs := by
      rw [State.count, State.setReg_outs, State.setF_outs, ht, State.setF_outs]
    change execHpdUnplug k s = _
    unfold execHpdUnplug
    rw [if_pos hhigh, ← ht]
    simp only [if_pos (show t.outState k = 1 ∧ (t.outMode k = 1 ∨ t.outMode k = 2) from ⟨hrun, hm⟩)]
    generalize (t.setF (OUT_STATUS k) OUT_STATUS_LINK_UP 0).count (OUT_LINK_LOSS_COUNT k) = u at *
    rw [State.outp_congr houts, hnone]
  case irq => exact fun k s hhigh => congrArg Host.Outcome.next (if_pos hhigh)
  case aux =>
    rintro pk o r0 r1 k s t u p ha rfl hempty hm hop rfl
    refine ha.next ?_
    unfold effOutAux
    dsimp only
    rw [hempty, if_neg (show ¬ ([] : List Pkt).contains pk = true by simp)]
    have hturn : (t.setOutp (par p 16 1) { t.outp (par p 16 1) with aux := [pk] }).auxTurn (par p 16 1) pk = true :=
      State.auxTurn_alone (by rw [State.outp_setOutp]) ((State.getF_congr (State.setOutp_regs ..) _ _).trans_le hm)
    exact if_pos hturn
  case answer =>
    rintro pk k op len r0 r1 s t hop rfl
    refine ⟨fun h => ?_, fun h => ?_, fun o h => ?_⟩
    · rw [auxAnswer_dp s hop]
      dsimp only
      rw [if_pos rfl, if_pos (by omega)]
      rfl
    · rw [auxAnswer_dp s hop]
      dsimp only
      rw [if_pos rfl, if_neg (by omega)]
    · rw [auxAnswer_dp s hop]
      dsimp only
      rw [if_neg (by omega), if_neg (by omega)]

end Sys2Proof.Machine

namespace Sys2Proof.Tests

open Sys2Proof Sys2Proof.Machine

/-- A plug of output 7 sets HPD, which is 0 at reset. -/
theorem test_hpdPlug : exec (.hpdPlug 7) State.reset = .next ((State.reset.setF (OUT_STATUS 7) OUT_STATUS_HPD 1).postOut 7 0x8502 1 0 0) :=
  outputLines.2.2.2.1 7 State.reset (by decide)

end Sys2Proof.Tests
end

section
/-! SUPPORT and the proof of O32: verification windows, the guarantee-plane checker and blink phases (R331 to R335, R338, R339, R360, R361). -/

namespace Sys2Proof.Machine

/-- An outcome of MATCH clears the fail counts of a window that is not escalated (R333, R335). -/
theorem State.windowOutcome_match {s : State} {k w : Nat} {r : WinRun} {v : Nat} (hrun : (s.win (16 * k + w)).run = some r) (hdone : r.done = false)
    (hcomp : s.computing k = true) (hline : r.cfg.y + r.cfg.h ≤ r.line) (hesc : (s.win (16 * k + w)).escalated = none)
    (hv : v = crcResult r.cfg.alg r.crc) (hout : (s.winOutcome k (s.win (16 * k + w)) r v).1 = 0) :
    exec (.windowOutcome k w) s = .next (((((s.setWin (16 * k + w) { s.win (16 * k + w) with
      run := some { r with done := true }, results := ((r.frame, v) :: (s.win (16 * k + w)).results).take 4, escalated := none }).setF
        (COLL_WIN_STATUS k w) COLL_WIN_STATUS_OUTCOME 0).setReg (COLL_WIN_FRAME k w) r.frame).setReg (COLL_WIN_VALUE k w) v).clearFails k w) := by
  subst hv
  refine congrArg Host.Outcome.next ?_
  dsimp only
  rw [hrun]
  dsimp only
  rw [if_neg (by simp [hdone, hcomp]; omega), hout, if_pos rfl, hesc]
  rfl

/-- Settles O32: each command and event is the case that the premises name. -/
theorem windowsAndCheckers : Obligations.WindowsAndCheckers := by
  unfold Obligations.WindowsAndCheckers
  refine ⟨?set, ?expect, ?applied, ?outcome, ?compare, ?checker, ?blink, ?expiry⟩
  case set =>
    rintro pk s t p j ha rfl hnew
    exact ha.next (if_neg (by simp [hnew]))
  case expect =>
    rintro pk s t p j ha rfl hnew
    exact ha.next (if_neg (by simp [hnew]))
  case applied => exact fun s frame k w key ph v pk => rfl
  case outcome =>
    rintro k w s t u x r v rfl hrun hdone hcomp hline hesc hv hout rfl rfl
    exact State.windowOutcome_match hrun hdone hcomp hline hesc hv (by rcases hout with h | h <;> rw [h])
  case compare =>
    intro k s x r v e hmode hkind hfilled hexp
    unfold State.winOutcome
    dsimp only
    rw [hkind, if_neg (by simp), if_neg (by simp), hfilled, if_neg (by simp), if_pos hmode, hexp]
  case checker =>
    intro k v n code s t u r hrun hdone hcomp hv hn hcode ht hu
    obtain rfl : code = gpcOutcome (s.coveredFilled k r.frame r.sprites) r v n := hcode
    subst hv hn ht hu
    have hbusy : ¬ (r.done = true ∨ ¬ s.computing k = true) := by simp [hdone, hcomp]
    constructor
    · intro h0
      change execGpcOutcome k none s = _
      unfold execGpcOutcome
      dsimp only
      rw [hrun]
      dsimp only [Option.map_none, Option.getD_none]
      rw [if_neg hbusy, if_pos h0, if_neg (fun h => h.1 h0)]
      exact congrArg (fun c => Host.Outcome.next (State.takeOutcome _ k r.frame c)) h0
    · intro h0 hfailed
      change execGpcOutcome k none s = _
      unfold execGpcOutcome
      dsimp only
      rw [hrun]
      dsimp only [Option.map_none, Option.getD_none]
      rw [if_neg hbusy, if_neg h0, if_neg (fun h => h.2 hfailed)]
  case blink => exact fun k s => rfl
  case expiry =>
    rintro n s t q hq hms hhalt hrun hspoken hfailed rfl
    refine congrArg Host.Outcome.next ((if_pos ⟨by simpa [hq] using hms, by simp [hhalt], hrun⟩).trans ?_)
    exact if_pos ⟨hspoken, by simp [hq], hfailed⟩

end Sys2Proof.Machine

namespace Sys2Proof.Tests

open Sys2Proof Sys2Proof.Machine

/-- A window without a second run: an expected value joins its table and the packet completes. -/
theorem test_windowExpect : ∃ t : State, State.reset.applyWinPend 1 7 15 (.expect 3 0 9 (pkt 0 0 [])) = t.complete (pkt 0 0 []) .ok 0 0 0 :=
  ⟨_, windowsAndCheckers.2.2.1 State.reset 1 7 15 3 0 9 (pkt 0 0 [])⟩

end Sys2Proof.Tests
end

section
/-! SUPPORT and the proof of O33: the Strongroom's requests, chimes and hand-overs (R350 to R355, R359, R363 to R366). -/

namespace Sys2Proof.Machine

/-- A request that is let through answers the state its effect leaves. -/
theorem State.StrgAccepts.next {c : Cmd} {pk : Pkt} {s t : State} {h : Hooks} {p : List Byte} (ha : s.StrgAccepts c pk h p t)
    {eff : List Byte → State → State} {u : State} (he : eff p t = u) :
    (Host.Outcome.next (strgPkt c pk s h eff) : Host.Outcome State Fault Refusal) = .next u := by
  rw [ha.run, he]

/-- Settles O33: a request that is let through runs the case of its effect that the premises name, and so does each event. -/
theorem strongroomRequests : Obligations.StrongroomRequests := by
  unfold Obligations.StrongroomRequests
  refine ⟨?info, ?telltale, ?chime, ?voice, ?key, ?permit, ?expiry, ?free, ?handover, ?quiesced, ?doorbell⟩
  case info => exact fun pk s t p ha => ha.next rfl
  case telltale =>
    rintro pk s t u p k ha hnew rfl rfl
    exact ha.next (if_neg (by simp [hnew]))
  case chime =>
    rintro pk s t p n ha rfl hfree
    refine ha.next ?_
    unfold effStrgChime
    dsimp only
    rw [hfree, if_neg Bool.false_ne_true]
  case voice =>
    intro s v hvoices hwaiting
    rw [State.chimeStart, hvoices, hwaiting]
    exact if_pos (show 0 < 4 by decide)
  case key =>
    intro pk s t u p key ha hcase
    refine ha.next ?_
    unfold effStrgKeyLoad
    rcases hcase with ⟨h0, rfl, rfl⟩ | ⟨h0, rfl, hkey⟩
    · simp only [if_pos h0]
    · simp only [if_neg h0, hkey, Option.getD_some]
  case permit =>
    rintro pk s t p k ha rfl
    exact ha.next rfl
  case expiry =>
    rintro k s t hnone rfl
    exact congrArg Host.Outcome.next (if_neg (by simp [hnone]))
  case free =>
    rintro n s l hany rfl
    exact ⟨_, congrArg Host.Outcome.next (if_pos hany), rfl⟩
  case handover =>
    rintro pk s t u p kind n ha rfl rfl
    refine ⟨fun hsame => ha.next (if_pos hsame), fun hother hu => ?_⟩
    refine ⟨fun h => ha.next ((if_neg hother).trans ?_), fun h => ha.next ((if_neg hother).trans ?_), fun h => ha.next ((if_neg hother).trans ?_)⟩
    · rw [hu]
      exact (if_neg (by omega)).trans (if_neg (by omega))
    · rw [hu]
      exact (if_neg (by omega)).trans (if_pos h)
    · rw [hu]
      exact if_pos h
  case quiesced =>
    rintro s t u h hsafe hsome hquiet rfl rfl
    refine (if_neg (by simp [hsafe])).trans (congrArg Host.Outcome.next ?_)
    rw [hsome]
    exact if_neg (by simp [hquiet])
  case doorbell =>
    intro s t u q hw hidle ht hq
    constructor
    · intro hreq
      change execStrgReqDoorbell s.mgrFn s = _
      unfold execStrgReqDoorbell
      rw [hw.regWrite, if_neg hidle, ← ht]
      dsimp only
      rw [← hq, hreq]
    · intro hreq
      change execStrgReqDoorbell s.mgrFn s = _
      unfold execStrgReqDoorbell
      rw [hw.regWrite, if_neg hidle, ← ht]
      dsimp only
      rw [← hq, hreq]

end Sys2Proof.Machine

namespace Sys2Proof.Tests

open Sys2Proof Sys2Proof.Machine

/-- A permit of output 7, which no change takes, is cleared when it expires. -/
theorem test_permitExpiry : ∃ t : State, exec (.permitExpiry 7) State.reset = .next { t with strg := { t.strg with permits := tabErase t.strg.permits 7 } } :=
  ⟨_, strongroomRequests.2.2.2.2.2.2.1 7 State.reset _ (by decide) rfl⟩

end Sys2Proof.Tests
end

section
/-! SUPPORT and the proof of O34: haptic channels are set, loaded, played, stopped and calibrated (R400, R402, R404, R406, R407). -/

namespace Sys2Proof.Machine

/-- What a haptic channel keeps depends on the haptic state alone. -/
theorem State.hapc_congr {s t : State} (h : t.hap = s.hap) (c : Nat) : t.hapc c = s.hapc c := by
  rw [State.hapc, State.hapc, h]

/-- With nothing pending there is nothing to end. -/
theorem State.endPending_none {s : State} {c : Nat} (h : (s.hapc c).pend = none) (st : Status) (d : Nat) : s.endPending c st d = s := by
  rw [State.endPending, h]

/-- Settles O34: an admitted command, and the end of a sweep, is the case that the premises name. -/
theorem hapticCommands : Obligations.HapticCommands := by
  unfold Obligations.HapticCommands
  refine ⟨?channel, ?load, ?play, ?stop, ?calibrate, ?swept⟩
  case channel =>
    rintro pk s t p c fl ha rfl rfl hbridged hfeedback h2 hon
    refine ha.next ?_
    unfold effHapSetChannel
    dsimp only
    rw [hbridged, hfeedback, h2, hon]
    simp only [ne_eq, not_true_eq_false, or_self, decide_false, Bool.false_eq_true, if_false, if_true]
    rw [show b2n true = 1 from rfl, Nat.one_mul]
  case load =>
    rintro pk s t u p d c n ha rfl rfl rfl rfl
    exact ha.next rfl
  case play =>
    rintro pk s t p c n ha rfl rfl hpend hrun
    refine ha.next ?_
    unfold effHapPlay
    dsimp only
    rw [if_neg (by simp [hpend, hrun]), State.hapQueue]
    dsimp only
    rw [hpend]
  case stop =>
    rintro pk s t p c ha rfl hpend
    constructor
    · intro hidle
      refine ha.next ?_
      unfold effHapStop
      dsimp only
      rw [State.endPending_none hpend, hidle]
    · intro r hrun hphase hstops
      refine ha.next ?_
      unfold effHapStop
      dsimp only
      rw [State.endPending_none hpend, hrun]
      dsimp only
      rw [hstops, if_neg (by simp), if_neg hphase]
      rfl
  case calibrate =>
    rintro pk s t p c ha rfl
    exact ha.next rfl
  case swept =>
    intro pk s t u v c n f0 g0 gains hcalib ht hu hv
    have hrun : exec (.calibrationComplete c false n f0 g0 gains) s = .next (if n < 10 then t.complete pk .faulted 1
        else if 2500 < n then t.complete pk .outOfRange 1
        else v.complete pk .ok 0 (n + f0 % 1024 * 2 ^ 16 + g0 % 65536 * 2 ^ 32) 0) := by
      have hkeep : u.hapc c = ((t.setReg (HAP_CAL c) (n * 2 ^ 20 + f0 % 1024 * 2 ^ 10)).setReg (HAP_GAIN c) (g0 % 65536)).hapc c :=
        State.hapc_congr (by rw [hu, State.setF_hap]) c
      change execCalibrationComplete c false n f0 g0 gains s = _
      unfold execCalibrationComplete
      rw [hcalib]
      simp only [if_true, Bool.false_eq_true, if_false]
      rw [← ht, ← hu, ← hkeep, ← hv]
    refine ⟨fun hlow => ?_, fun hhigh => ?_, fun hlo hhi => ?_⟩
    · rw [hrun, if_pos hlow]
    · rw [hrun, if_neg (by omega), if_pos hhigh]
    · rw [hrun, if_neg (by omega), if_neg (by omega)]

end Sys2Proof.Machine

namespace Sys2Proof.Tests

open Sys2Proof Sys2Proof.Machine

/-- Channel 7 is measured for the manager. -/
def hapSweeping : State := State.reset.setHap 7 { calib := some (pkt 0 1 [(16, 1, 7)], true) }

/-- A sweep that found 9 nF ends with FAULTED. -/
theorem test_calibrationLow : ∃ t : State, exec (.calibrationComplete 7 false 9 0 0 []) hapSweeping = .next (t.complete (pkt 0 1 [(16, 1, 7)]) .faulted 1) :=
  ⟨_, (hapticCommands.2.2.2.2.2 (pkt 0 1 [(16, 1, 7)]) hapSweeping _ _ _ 7 9 0 0 [] (by decide) rfl rfl rfl).1 (by decide)⟩

end Sys2Proof.Tests
end

section
/-! SUPPORT and the proof of O35: the haptic boost and the loop period (R397, R399, R405, R406). -/

namespace Sys2Proof.Machine

/-- A channel without an accelerometer has no sensor period (R397). -/
theorem State.sensorPeriod_none {s : State} {c : Nat} (h : s.getF (HAP_CFG c) HAP_CFG_FEEDBACK ≠ 2) (b : Bool) : s.sensorPeriod c b = s :=
  if_pos (.inr h)

/-- What a loop boundary makes of the channel's effect (R405). -/
def State.effectPeriod (s : State) (c : Nat) (m : HapMeas) : State :=
  match (s.hapc c).run with
  | none => s.startEffect c m
  | some r => if r.phase = 4 then s.brakePeriod c r m else s.drivePeriod c r m

/-- A loop boundary without a trip, and with no cycle counted, does that alone. -/
theorem exec_hapLoopPeriod {c : Nat} {m : HapMeas} {s t : State} (hc : c < 8) (hup : s.domainUp 20 = true) (htrip : m.trip = false)
    (ht : s.sensorPeriod c m.sample = t) (hcycles : ¬ (0 < m.cycles ∧ (t.hapc c).run.isSome = true)) :
    exec (.hapLoopPeriod c m) s = .next (t.effectPeriod c m) := by
  change execHapLoopPeriod c m s = _
  unfold execHapLoopPeriod
  rw [if_neg (by simp [hup]; omega), ht]
  dsimp only
  rw [if_neg hcycles, if_neg (by simp [htrip])]
  rfl

/-- A channel with nothing running may start an effect. -/
theorem State.effectPeriod_idle {s : State} {c : Nat} (h : (s.hapc c).run = none) (m : HapMeas) : s.effectPeriod c m = s.startEffect c m := by
  rw [State.effectPeriod, h]

/-- One that runs drives or brakes. -/
theorem State.effectPeriod_run {s : State} {c : Nat} {r : HapRun} (h : (s.hapc c).run = some r) (m : HapMeas) :
    s.effectPeriod c m = if r.phase = 4 then s.brakePeriod c r m else s.drivePeriod c r m := by
  rw [State.effectPeriod, h]

/-- Settles O35: each event is the case that the premises name. -/
theorem hapticPeriods : Obligations.HapticPeriods := by
  unfold Obligations.HapticPeriods
  refine ⟨?up, ?sag, ?sagEnd, ?loss, ?restored, ?start, ?drive, ?brake⟩
  case up => exact fun s hrun => congrArg Host.Outcome.next (if_pos hrun)
  case sag =>
    rintro v s t hrun hlow rfl
    exact congrArg Host.Outcome.next (if_pos ⟨hrun, hlow⟩)
  case sagEnd => exact fun v s hlow => congrArg Host.Outcome.next (if_pos hlow)
  case loss =>
    intro v s t u hup huv ht hu
    change execVhaptLoss v s = _
    unfold execVhaptLoss
    rw [if_pos ⟨hup, huv⟩, hu, ht]
  case restored => exact fun v s huv => congrArg Host.Outcome.next (if_pos huv)
  case start =>
    intro c m s t q pk hc hup htrip hidle ht hidle' hpend hsrc hplain hready
    have hchan : (t.commit pk).hapc c = t.hapc c := State.hapc_congr rfl c
    rw [exec_hapLoopPeriod hc hup htrip ht.symm (by simp [hidle']), State.effectPeriod_idle hidle', State.startEffect, hpend]
    dsimp only
    rw [if_pos hready, hsrc, hplain]
    dsimp only
    rw [hchan, State.hapSlot, State.hapSlot, hchan]
    rfl
  case drive =>
    intro c m s r hc hup htrip hcycles hlimited hweak hplain hrun hphase hstop hperiods hpend
    rw [exec_hapLoopPeriod hc hup htrip (State.sensorPeriod_none hplain _) (by omega), State.effectPeriod_run hrun, if_neg hphase, State.drivePeriod]
    simp only [hperiods, hweak, hlimited, hpend, hstop, decide_false, Bool.false_and, Bool.and_false, Bool.false_eq_true, if_false, false_and, and_false]
    rw [if_neg (by decide)]
  case brake =>
    intro c m s r hc hup htrip hcycles hplain hrun hphase hpend hend
    rw [exec_hapLoopPeriod hc hup htrip (State.sensorPeriod_none hplain _) (by omega), State.effectPeriod_run hrun, if_pos hphase, State.brakePeriod, hpend]
    dsimp only
    rw [if_neg (by simp), if_pos ?_]
    rcases hend with ⟨hlow, hbelow⟩ | hlimit
    · left
      rw [if_pos hlow]
      omega
    · exact .inr (.inl hlimit)

end Sys2Proof.Machine

namespace Sys2Proof.Tests

open Sys2Proof Sys2Proof.Machine

/-- The supply of the haptic outputs was lost. -/
def vhaptLost : State := State.reset.setF HAP_BOOST_STATUS HAP_BOOST_STATUS_VHAPT_UV 1

/-- Its return clears VHAPT_UV. -/
theorem test_vhaptRestored : exec (.vhaptRestored 200) vhaptLost =
    .next ((vhaptLost.setF HAP_BOOST_STATUS HAP_BOOST_STATUS_VHAPT_UV 0).setF HAP_BOOST_STATUS HAP_BOOST_STATUS_VHAPT 200) :=
  hapticPeriods.2.2.2.2.1 200 vhaptLost (by decide)

end Sys2Proof.Tests
end

section
/-! SUPPORT and the proof of O36: touch commands and the frame boundary (R371 to R374, R382, R386 to R388). -/

namespace Sys2Proof.Machine

/-- A panel that comes takes effect at the frame boundary (R372). -/
def TouchCtl.takePanel (c : TouchCtl) : TouchCtl :=
  match c.next with
  | none => c
  | some q =>
    let changed := c.panel.any (fun (o : Panel) => decide (o.ntx ≠ q.ntx ∨ o.nrx ≠ q.nrx ∨ o.map ≠ q.map))
    { c with panel := some q, next := none, contacts := c.contacts.map (fun (x : Contact) => { x with lost := true }),
             restart := c.restart || changed, discarded := c.discarded || changed, candidates := [] }

/-- Settles O36: an admitted command and the frame boundary are the cases that the premises name. -/
theorem touchCommands : Obligations.TouchCommands := by
  unfold Obligations.TouchCommands
  refine ⟨?panel, ?region, ?applied, ?recalibrate, ?capture, ?waits, ?wake, ?start⟩
  case panel =>
    rintro pk s t p n ha rfl
    exact ha.next rfl
  case region =>
    rintro pk s t p key ha rfl hnew
    exact ha.next (if_neg (by simp [hnew]))
  case applied =>
    intro s t u key n c pk hnew ht hu
    unfold State.applyRegion
    dsimp only at ht hu ⊢
    rw [← ht, hnew]
    simp only [Option.any_none, Option.isSome_none, Bool.false_eq_true, if_false]
    rw [← hu]
  case recalibrate =>
    rintro pk s t p n ha rfl hidle
    refine ha.next ?_
    rw [effTchRecalibrate, State.touchWait, hidle]
    rfl
  case capture =>
    rintro pk s t p n ha rfl hidle
    refine ha.next ?_
    rw [effTchCapture, State.touchWait, hidle]
    rfl
  case waits => exact fun s q raw self nodes pk kind h off => ⟨rfl, rfl⟩
  case wake =>
    rintro pk s t p n ha rfl
    exact ha.next rfl
  case start =>
    intro n s hn hruns hworld hopen hidle
    have hguard : n < 4 ∧ s.tchRuns n = true ∧ ¬ s.tchSecure n = true ∧ ¬ s.closing 0 n = true ∧ ¬ (s.tctl n).scanning = true :=
      ⟨hn, hruns, by simp [hworld], by simp [hopen], by simp [hidle]⟩
    have hrun : exec (.touchFrameStart n) s = .next ((s.setTctl n { (s.tctl n).takePanel with scanning := true }).applyRegions n) :=
      congrArg Host.Outcome.next (if_pos hguard)
    constructor
    · intro hnone
      rw [hrun, TouchCtl.takePanel, hnone]
    · intro q hsome hpanel
      rw [hrun, TouchCtl.takePanel, hsome, hpanel]
      rfl

end Sys2Proof.Machine

namespace Sys2Proof.Tests

open Sys2Proof Sys2Proof.Machine

/-- A capture that waited ends at the end of the frame. -/
theorem test_recalibrationEnds : State.reset.endTouchWait (panelOf []) [] [] [] (.recal (pkt 0 1 []) none) = State.reset.complete (pkt 0 1 []) .ok :=
  (touchCommands.2.2.2.2.2.1 State.reset (panelOf []) [] [] [] (pkt 0 1 []) 0 0 0).2

end Sys2Proof.Tests
end

section
/-! SUPPORT and the proof of O37: touch frames, suspect nodes, stuck contacts, saved baselines and wake scans (R375 to R381, R389, R390). -/

namespace Sys2Proof.Machine

/-- Counts of 16 bits are as they are under the limit. -/
theorem map_min_of_all {raw : List Nat} (h : raw.all (fun v => decide (v ≤ 65535)) = true) : raw.map (fun v => min 65535 v) = raw := by
  have hle : ∀ v ∈ raw, min 65535 v = v := fun v hv => Nat.min_eq_right (of_decide_eq_true (List.all_eq_true.mp h v hv))
  rw [List.map_congr_left hle, List.map_id']

/-- Settles O37: each event is the case that the premises name. -/
theorem touchFrames : Obligations.TouchFrames := by
  unfold Obligations.TouchFrames
  refine ⟨?frame, ?ended, ?track, ?stable, ?stuck, ?save, ?scan, ?clear⟩
  case frame =>
    intro n raw self listen s q hpanel hn hruns hworld hscan hlen
    refine congrArg Host.Outcome.next ?_
    rw [hpanel]
    exact if_pos ⟨hn, hruns, by simp [hworld], hscan, hlen⟩
  case ended => exact fun c q b nodes after ps ev => ⟨rfl, rfl, rfl, rfl⟩
  case track =>
    intro now q d i raw x hfirm hlit hfree
    unfold settleNode
    rw [if_neg (by simp [hfirm]), if_neg (by simp [hlit, hfree]), if_neg (by decide), if_neg (by decide)]
    rfl
  case stable =>
    rintro n i s t l hn hsuspect rfl rfl
    exact congrArg Host.Outcome.next (if_pos ⟨hn, hsuspect⟩)
  case stuck =>
    intro n id s x r g hfind hregion hfree hcfg hlimit
    refine congrArg Host.Outcome.next ?_
    dsimp only
    rw [hfind]
    dsimp only
    rw [hregion]
    dsimp only
    rw [if_neg (by simp [hfree, hcfg, hlimit])]
  case save =>
    intro n s hn hruns hworld
    exact congrArg Host.Outcome.next (if_pos ⟨hn, by decide, hruns, by simp [hworld]⟩)
  case scan =>
    rintro n cycles raw s w rfl hn hgestures hruns hsave hlen hall
    have hguard : n < 4 ∧ (s.tctl n).wake.gestures ≠ 0 ∧ ¬ s.tchRuns n = true ∧ s.getF LEDG_STATUS LEDG_STATUS_SAVE = 0 ∧
        raw.length = (s.tctl n).wake.pins.length := ⟨hn, hgestures, by simp [hruns], hsave, hlen⟩
    constructor
    · intro hbases
      refine congrArg Host.Outcome.next ((if_pos hguard).trans ?_)
      dsimp only
      rw [map_min_of_all hall, if_pos hbases]
    · intro hbases
      refine congrArg Host.Outcome.next ((if_pos hguard).trans ?_)
      dsimp only
      rw [map_min_of_all hall, if_neg hbases]
  case clear =>
    rintro s t hw rfl
    exact congrArg Host.Outcome.next hw.regWrite

end Sys2Proof.Machine

namespace Sys2Proof.Tests

open Sys2Proof Sys2Proof.Machine

/-- The manager's write of PENDING reaches it. -/
theorem test_wakePendingClear : ∃ t : State, exec (.wakePendingClear 0) cvuReady = .next { t with tch := { t.tch with wakePin := false } } :=
  ⟨_, touchFrames.2.2.2.2.2.2.2 cvuReady _ (by unfold State.MgrWrites State.Writes; decide) rfl⟩

end Sys2Proof.Tests
end

section
/-! SUPPORT and the proof of O38: audio ports, endpoints, the graph and its blocks (R417, R419, R420, R423 to R430). -/

namespace Sys2Proof.Machine

/-- A change with STAGE set joins the staged set of its sender (R427). -/
theorem State.queueGraph_staged (s : State) (pk : Pkt) (op : Nat) (p : List Byte) : s.queueGraph pk op true p =
    ({ s with aud := { s.aud with staged := tabSet (fun _ => []) s.aud.staged (s.ownerOf pk.fn) (s.stagedOf (s.ownerOf pk.fn) ++ [(op, p)]) } }).complete
      pk .ok := rfl

/-- One without it waits, where nothing else does (R427). -/
theorem State.queueGraph_alone {s : State} (h : s.aud.changes = []) (pk : Pkt) (op : Nat) (p : List Byte) :
    s.queueGraph pk op false p = { s with aud := { s.aud with changes := [⟨s.ownerOf pk.fn, op, p, pk⟩] } } := by
  unfold State.queueGraph
  rw [h]
  rfl

/-- Settles O38: an admitted command, an edge and a block are the cases that the premises name. -/
theorem audioGraph : Obligations.AudioGraph := by
  unfold Obligations.AudioGraph
  refine ⟨?port, ?endpoint, ?settle, ?node, ?route, ?boundary, ?commit, ?edge, ?lost, ?block⟩
  case port =>
    rintro pk s t p n ha rfl
    exact ha.next rfl
  case endpoint =>
    intro pk s t p e ha he hnew
    have hindex : epIndex p = e := he.symm
    refine ha.next ?_
    unfold effAudSetEndpoint
    dsimp only
    rw [hindex, if_neg (by simp [hnew])]
  case settle =>
    intro s t e c pk hpend hsilent hroutes ht htroutes hnow
    rw [State.settleEp, hpend]
    dsimp only
    rw [if_pos hsilent, ← ht, htroutes, hnow]
    rfl
  case node =>
    rintro pk s t p o ha rfl
    refine ⟨fun hstage => ha.next ?_, fun hstage hidle => ha.next ?_⟩
    · rw [effAudSetNode, hstage, State.queueGraph_staged]
    · rw [effAudSetNode, hstage, State.queueGraph_alone hidle]
  case route =>
    rintro pk s t p o ha rfl
    refine ⟨fun hstage => ha.next ?_, fun hstage hidle => ha.next ?_⟩
    · rw [effAudSetRoute, hstage, State.queueGraph_staged]
    · rw [effAudSetRoute, hstage, State.queueGraph_alone hidle]
  case boundary =>
    rintro s t c hop hstill rfl
    unfold State.boundary
    simp only [if_neg hop, hstill, Bool.false_and, Bool.false_eq_true, if_false]
  case commit =>
    intro pk s t p ha hnew
    exact ha.next (if_neg (by simp [hnew]))
  case edge =>
    rintro n ps rate d s hup hslave hlocked rfl rfl
    have hguard : ¬ (¬ s.domainUp 21 = true ∨ ¬ s.slavePort n = true) := by simp [hup, hslave]
    constructor
    · intro hps hnear
      refine congrArg Host.Outcome.next ((if_neg hguard).trans ?_)
      dsimp only
      rw [hlocked, if_neg (by simp), if_pos ⟨hps, hnear⟩, if_neg (by decide)]
    · intro hfar
      refine congrArg Host.Outcome.next ((if_neg hguard).trans ?_)
      dsimp only
      rw [hlocked, if_neg (by simp), if_neg (fun h => absurd h.2 (Nat.not_le.mpr hfar))]
  case lost =>
    intro n s hup hslave
    exact ⟨fun hlocked => congrArg Host.Outcome.next (if_pos ⟨hup, hslave, hlocked⟩),
      fun hlost hedges => congrArg Host.Outcome.next (if_pos ⟨hup, hslave, hlost, hedges⟩)⟩
  case block =>
    intro ins chime poison s a b c d hup ha hb hc hd
    change execAudioBlock ins chime poison s = _
    unfold execAudioBlock
    rw [if_neg (by simp [hup]), hd, hc, hb, ha]

end Sys2Proof.Machine

namespace Sys2Proof.Tests

open Sys2Proof Sys2Proof.Machine

/-- Port 7 is a slave, and the audio domain is up. -/
def portSlave : State := (State.reset.setF PCU_DOMAIN_UP PCU_DOMAIN_UP_MASK (2 ^ 21)).setPort 7 { cfg := ⟨2, 0, 0, 0, 0, 0⟩ }

/-- It loses its clock. -/
theorem test_tdmPortLost : ∃ t : State, exec (.tdmPortLost 7) portSlave = .next (t.postMgr 0x8902 7 1 0) :=
  ⟨_, (audioGraph.2.2.2.2.2.2.2.2.1 7 portSlave (by decide) (by decide)).1 (by decide)⟩

end Sys2Proof.Tests
end

section
/-! SUPPORT for O5 and O7: what a command leaves as it is, and how the shapes of the model's definitions keep it. -/

namespace Sys2Proof.Machine

/-- What a command leaves as it is: the queue, the timebase, and the Strongroom's binding table. -/
def State.kept (s : State) : List Instr × Nat × Option Binding := (s.pending, s.now, s.strg.bind)

/-- Every next state of an outcome keeps what `s` has. -/
def NextKept (s : State) (o : Host.Outcome State Fault Refusal) : Prop := ∀ t, o = .next t → t.kept = s.kept

/-- The state of an answer, if there is one, keeps what `s` has. -/
def SomeKept (s : State) (o : Option State) : Prop := ∀ t, o = some t → t.kept = s.kept

/-- Not by `rfl`, as is `kept_fold`: a step that `simp` takes by definition the kernel checks by comparing whole records, register file and all. -/
@[simp] theorem kept_mk {pending now freeCount regs wideLow wideHigh lastRead out fns flight slips rrPos rrTaken insts shm mem esc err ledg bnd outs coll
    strg hap tch aud rnd fab fw pwr pmu dbg} :
    State.kept ⟨pending, now, freeCount, regs, wideLow, wideHigh, lastRead, out, fns, flight, slips, rrPos, rrTaken, insts, shm, mem, esc, err, ledg,
      bnd, outs, coll, strg, hap, tch, aud, rnd, fab, fw, pwr, pmu, dbg⟩ = (pending, now, strg.bind) := (rfl)

@[simp] theorem kept_fold {s : State} : (s.pending, s.now, s.strg.bind) = s.kept := (rfl)

@[simp] theorem kept_ite {c : Prop} [Decidable c] {s t : State} : (if c then s else t).kept = if c then s.kept else t.kept := apply_ite ..

@[simp] theorem nextKept_next {s t : State} : NextKept s (.next t) ↔ t.kept = s.kept := by simp [NextKept]

@[simp] theorem nextKept_fault {s : State} {f : Fault} : NextKept s (.fault f) := by simp [NextKept]

@[simp] theorem nextKept_refused {s : State} {r : Refusal} : NextKept s (.refused r) := by simp [NextKept]

@[simp] theorem nextKept_ite {s : State} {c : Prop} [Decidable c] {a b : Host.Outcome State Fault Refusal} :
    NextKept s (if c then a else b) ↔ if c then NextKept s a else NextKept s b := by split <;> rfl

@[simp] theorem someKept_some {s t : State} : SomeKept s (some t) ↔ t.kept = s.kept := by simp [SomeKept]

@[simp] theorem someKept_none {s : State} : SomeKept s none := by simp [SomeKept]

@[simp] theorem foldl_kept {α : Type*} {f : State → α → State} {l : List α} {s : State} (hf : ∀ t x, (f t x).kept = t.kept) :
    (l.foldl f s).kept = s.kept := by
  induction l generalizing s with
  | nil => rfl
  | cons x l ih => rw [List.foldl_cons, ih, hf]

theorem kept_of_fst {β : Type*} {p : State × β} {s u : State} {v : β} (e : p = (u, v)) (h : p.1.kept = s.kept) : u.kept = s.kept := by
  rwa [e] at h

theorem kept_of_snd {β : Type*} {p : β × State} {s u : State} {v : β} (e : p = (v, u)) (h : p.2.kept = s.kept) : u.kept = s.kept := by
  rwa [e] at h

theorem SomeKept.trans {s t : State} {o : Option State} (h : SomeKept t o) (e : t.kept = s.kept) : SomeKept s o := fun u hu => (h u hu).trans e

theorem SomeKept.map {α : Type*} {s : State} {o : Option α} {f : α → State} (h : ∀ x, (f x).kept = s.kept) : SomeKept s (o.map f) := by
  cases o <;> simp [h]

theorem SomeKept.bind {s : State} {o : Option State} {f : State → Option State} (h : SomeKept s o) (hf : ∀ t, SomeKept t (f t)) :
    SomeKept s (o.bind f) := by
  cases o with
  | none => simp
  | some t => exact (hf t).trans (h t rfl)

theorem foldl_kept_fst {α β : Type*} {f : State × β → α → State × β} {l : List α} {p : State × β} (hf : ∀ t x, (f t x).1.kept = t.1.kept) :
    (l.foldl f p).1.kept = p.1.kept := by
  induction l generalizing p with
  | nil => rfl
  | cons x l ih => rw [List.foldl_cons, ih, hf]

theorem foldl_kept_snd {α β : Type*} {f : β × State → α → β × State} {l : List α} {p : β × State} (hf : ∀ t x, (f t x).2.kept = t.2.kept) :
    (l.foldl f p).2.kept = p.2.kept := by
  induction l generalizing p with
  | nil => rfl
  | cons x l ih => rw [List.foldl_cons, ih, hf]

end Sys2Proof.Machine
end

section
/-! SUPPORT for O5 and O7, the operations of the state: the queue, the timebase and the binding table stay. -/

namespace Sys2Proof.Machine

@[simp] theorem State.setReg_kept {s : State} {a1 a2} : (s.setReg a1 a2).kept = s.kept := by simp [State.setReg]

@[simp] theorem State.setF_kept {s : State} {a1 a2 a3} : (s.setF a1 a2 a3).kept = s.kept := by simp [State.setF]

@[simp] theorem State.setReg64_kept {s : State} {a1 a2} : (s.setReg64 a1 a2).kept = s.kept := by simp [State.setReg64]

@[simp] theorem State.count_kept {s : State} {a1 a2} : (s.count a1 a2).kept = s.kept := by simp [State.count]

@[simp] theorem State.countF_kept {s : State} {a1 a2 a3} : (s.countF a1 a2 a3).kept = s.kept := by simp [State.countF]

@[simp] theorem State.setBit_kept {s : State} {a1 a2 a3} : (s.setBit a1 a2 a3).kept = s.kept := by simp [State.setBit]

@[simp] theorem State.fresh_kept {s : State} : s.fresh.2.kept = s.kept := by simp [State.fresh]

@[simp] theorem State.setFn_kept {s : State} {a1 a2} : (s.setFn a1 a2).kept = s.kept := by simp [State.setFn]

@[simp] theorem State.setInst_kept {s : State} {a1 a2} : (s.setInst a1 a2).kept = s.kept := by simp [State.setInst]

@[simp] theorem State.emit_kept {s : State} {a1} : (s.emit a1).kept = s.kept := by simp [State.emit]

@[simp] theorem State.signalReplies_kept {s : State} {a1} : (s.signalReplies a1).kept = s.kept := by simp [State.signalReplies]

@[simp] theorem State.writeEntry_kept {s : State} {a1 a2} : (s.writeEntry a1 a2).kept = s.kept := by
  unfold State.writeEntry
  split <;> simp

@[simp] theorem State.pushReply_kept {s : State} {a1 a2} : (s.pushReply a1 a2).kept = s.kept := by simp [State.pushReply]

@[simp] theorem State.dropNotice_kept {s : State} {a1} : (s.dropNotice a1).kept = s.kept := by simp [State.dropNotice]

@[simp] theorem State.mkNotice_kept {s : State} {a1 a2 a3 a4 a5} : (s.mkNotice a1 a2 a3 a4 a5).2.kept = s.kept := by
  simp [State.mkNotice]

@[simp] theorem State.writeNotice_kept {s : State} {a1 a2} : (s.writeNotice a1 a2).kept = s.kept := by simp [State.writeNotice]

@[simp] theorem State.writeLost_kept {s : State} {a1} : (s.writeLost a1).kept = s.kept := by simp [State.writeLost]

@[simp] theorem State.post_kept {s : State} {a1 a2 a3 a4 a5} : (s.post a1 a2 a3 a4 a5).kept = s.kept := by simp [State.post]

@[simp] theorem State.toFabricManager_kept {s : State} {a1 a2 a3} : (s.toFabricManager a1 a2 a3).kept = s.kept := by
  simp [State.toFabricManager]

@[simp] theorem State.postMgr_kept {s : State} {a1 a2 a3 a4} : (s.postMgr a1 a2 a3 a4).kept = s.kept := by simp [State.postMgr]

@[simp] theorem State.flushReplies_kept {s : State} {a1 a2} : (State.flushReplies a1 s a2).kept = s.kept := by
  induction a1 generalizing s with
  | zero => rfl
  | succ n ih => unfold State.flushReplies; (repeat' split) <;> simp [ih]

@[simp] theorem State.flushNotices_kept {s : State} {a1 a2} : (State.flushNotices a1 s a2).kept = s.kept := by
  induction a1 generalizing s with
  | zero => rfl
  | succ n ih => unfold State.flushNotices; (repeat' split) <;> simp [ih]

@[simp] theorem State.flushHeld_kept {s : State} {a1} : (s.flushHeld a1).kept = s.kept := by simp [State.flushHeld]

@[simp] theorem State.badWrite_kept {s : State} {a1 a2} : (s.badWrite a1 a2).kept = s.kept := by simp [State.badWrite]

@[simp] theorem State.windowReply_kept {s : State} {a1} : (s.windowReply a1).kept = s.kept := by simp [State.windowReply]

@[simp] theorem State.complete_kept {s : State} {a1 a2 a3 a4 a5} : (s.complete a1 a2 a3 a4 a5).kept = s.kept := by
  simp [State.complete]

@[simp] theorem State.letIn_kept {s : State} {a1 a2 a3 a4 a5} : (s.letIn a1 a2 a3 a4 a5).kept = s.kept := by simp [State.letIn]

@[simp] theorem State.fetched_kept {s : State} {a1 a2 a3} : (s.fetched a1 a2 a3).kept = s.kept := by simp [State.fetched]

@[simp] theorem State.commit_kept {s : State} {a1} : (s.commit a1).kept = s.kept := by simp [State.commit]

@[simp] theorem State.noteWrites_kept {s : State} {a1 a2} : (s.noteWrites a1 a2).kept = s.kept := by simp [State.noteWrites]

@[simp] theorem State.completeAll_kept {s : State} {a1 a2 a3} : (s.completeAll a1 a2 a3).kept = s.kept := by
  simp [State.completeAll]

@[simp] theorem State.setShelf_kept {s : State} {a1 a2} : (s.setShelf a1 a2).kept = s.kept := by simp [State.setShelf]

@[simp] theorem State.setObj_kept {s : State} {a1 a2} : (s.setObj a1 a2).kept = s.kept := by simp [State.setObj]

@[simp] theorem State.spoil_kept {s : State} {a1} : (s.spoil a1).kept = s.kept := by simp [State.spoil]

@[simp] theorem State.putBytes_kept {s : State} {a1 a2 a3} : (s.putBytes a1 a2 a3).kept = s.kept := by simp [State.putBytes]

@[simp] theorem State.touch_kept {s : State} {a1 a2 a3} : (s.touch a1 a2 a3).kept = s.kept := by simp [State.touch]

@[simp] theorem State.forwardWrite_kept {s : State} {a1 a2 a3} : (s.forwardWrite a1 a2 a3).kept = s.kept := by
  unfold State.forwardWrite
  split <;> simp

@[simp] theorem State.writeObj_kept {s : State} {a1 a2 a3} : (s.writeObj a1 a2 a3).kept = s.kept := by simp [State.writeObj]

@[simp] theorem State.ledgAppend_kept {s : State} {a1 a2 a3 a4} : (s.ledgAppend a1 a2 a3 a4).kept = s.kept := by
  simp [State.ledgAppend]

@[simp] theorem State.powerEvent_kept {s : State} {a1 a2 a3} : (s.powerEvent a1 a2 a3).kept = s.kept := by simp [State.powerEvent]

@[simp] theorem State.tellError_kept {s : State} {a1 a2} : (s.tellError a1 a2).kept = s.kept := by simp [State.tellError]

@[simp] theorem State.noteT2_kept {s : State} {a1 a2 a3} : (s.noteT2 a1 a2 a3).kept = s.kept := by simp [State.noteT2]

@[simp] theorem State.noteT3_kept {s : State} {a1 a2} : (s.noteT3 a1 a2).kept = s.kept := by simp [State.noteT3]

@[simp] theorem State.setRec_kept {s : State} {a1 a2} : (s.setRec a1 a2).kept = s.kept := by simp [State.setRec]

@[simp] theorem State.ledgRecord_kept {s : State} {a1} : (s.ledgRecord a1).kept = s.kept := by simp [State.ledgRecord]

@[simp] theorem State.foldRecord_kept {s : State} {a1 a2 a3 a4} : (s.foldRecord a1 a2 a3 a4).kept = s.kept := by
  simp [State.foldRecord]

@[simp] theorem State.newRecord_kept {s : State} {a1} : (s.newRecord a1).kept = s.kept := by
  unfold State.newRecord
  split <;> simp

@[simp] theorem State.nextErrSeq_kept {s : State} : (s.nextErrSeq).kept = s.kept := by simp [State.nextErrSeq]

@[simp] theorem State.record_kept {s : State} {a1 a2 a3 a4 a5 a6 a7 a8} : (s.record a1 a2 a3 a4 a5 a6 a7 a8).state.kept = s.kept := by
  unfold State.record
  dsimp only
  split <;> simp

@[simp] theorem State.setSlip_kept {s : State} {a1 a2} : (s.setSlip a1 a2).kept = s.kept := by simp [State.setSlip]

@[simp] theorem State.endWaiters_kept {s : State} {a1 a2 a3 a4} : (s.endWaiters a1 a2 a3 a4).kept = s.kept := by
  simp [State.endWaiters]

@[simp] theorem State.handSlip_kept {s : State} {a1} : (s.handSlip a1).kept = s.kept := by
  unfold State.handSlip
  split <;> simp

@[simp] theorem State.breakSlip_kept {s : State} {a1 a2} : (s.breakSlip a1 a2).kept = s.kept := by simp [State.breakSlip]

@[simp] theorem State.breakSlips_kept {s : State} {a1 a2 a3} : (s.breakSlips a1 a2 a3).kept = s.kept := by simp [State.breakSlips]

end Sys2Proof.Machine
end

section
/-! SUPPORT for O5 and O7, the Folio code: the queue, the timebase and the binding table stay. -/

namespace Sys2Proof.Machine

@[simp] theorem State.setBeatError_kept {s : State} {a1 a2 a3} : (s.setBeatError a1 a2 a3).kept = s.kept := by
  simp [State.setBeatError]

@[simp] theorem State.settleBeat_kept {s : State} {a1 a2} : (s.settleBeat a1 a2).kept = s.kept := by simp [State.settleBeat]

@[simp] theorem State.takeInjection_kept {s : State} {a1 a2 a3} : (s.takeInjection a1 a2 a3).kept = s.kept := by
  unfold State.takeInjection
  dsimp only
  (repeat' split) <;> simp

@[simp] theorem State.countCorrected_kept {s : State} {a1 a2} : (s.countCorrected a1 a2).kept = s.kept := by
  unfold State.countCorrected
  dsimp only
  (repeat' split) <;> simp

@[simp] theorem State.noteRead_kept {s : State} {a1 a2 a3} : (s.noteRead a1 a2 a3).kept = s.kept := by
  refine foldl_kept fun t x => ?_
  dsimp only
  (repeat' split) <;> simp

@[simp] theorem State.store_kept {s : State} {a1 a2 a3} : (s.store a1 a2 a3).kept = s.kept := by simp [State.store]

@[simp] theorem State.countUncorrectable_kept {s : State} {a1 a2} : (s.countUncorrectable a1 a2).kept = s.kept := by
  simp [State.countUncorrectable]

@[simp] theorem State.postUe_kept {s : State} {a1 a2} : (s.postUe a1 a2).kept = s.kept := by
  unfold State.postUe
  split <;> simp

end Sys2Proof.Machine
end

section
/-! SUPPORT for O5 and O7, operands of packets: the queue, the timebase and the binding table stay. -/

namespace Sys2Proof.Machine

@[simp] theorem State.readBlock_kept {s : State} {a1 a2} : (s.readBlock a1 a2).kept = s.kept := by
  unfold State.readBlock
  dsimp only
  (repeat' split) <;> simp

@[simp] theorem State.tellReads_kept {s : State} {a1} : (s.tellReads a1).kept = s.kept := by
  unfold State.tellReads
  split <;> simp

@[simp] theorem runPkt_kept {s : State} {a1 a2 a3 f} (hf : ∀ p t, (f p t).kept = t.kept) : (runPkt a1 a2 s a3 f).kept = s.kept := by
  unfold runPkt
  dsimp only
  (repeat' split) <;> simp [hf]

end Sys2Proof.Machine
end

section
/-! SUPPORT for O5 and O7, grants: the queue, the timebase and the binding table stay. -/

namespace Sys2Proof.Machine

@[simp] theorem State.postOwner_kept {s : State} {a1 a2 a3 a4 a5} : (s.postOwner a1 a2 a3 a4 a5).kept = s.kept := by
  simp [State.postOwner]

@[simp] theorem State.capChangedFn_kept {s : State} {a1} : (s.capChangedFn a1).kept = s.kept := by simp [State.capChangedFn]

@[simp] theorem State.capChanged_kept {s : State} {a1} : (s.capChanged a1).kept = s.kept := by simp [State.capChanged]

end Sys2Proof.Machine
end

section
/-! SUPPORT for O5 and O7, counters: the queue, the timebase and the binding table stay. -/

namespace Sys2Proof.Machine

@[simp] theorem State.setCnt_kept {s : State} {a1 a2} : (s.setCnt a1 a2).kept = s.kept := by simp [State.setCnt]

@[simp] theorem State.setCntValue_kept {s : State} {a1 a2} : (s.setCntValue a1 a2).kept = s.kept := by simp [State.setCntValue]

@[simp] theorem State.resetCounter_kept {s : State} {a1} : (s.resetCounter a1).kept = s.kept := by simp [State.resetCounter]

@[simp] theorem State.clearCounters_kept {s : State} {a1} : (s.clearCounters a1).kept = s.kept := by simp [State.clearCounters]

@[simp] theorem State.giveCounter_kept {s : State} {a1 a2} : (s.giveCounter a1 a2).kept = s.kept := by simp [State.giveCounter]

@[simp] theorem State.allotCounters_kept {s : State} {a1 a2} : (s.allotCounters a1 a2).kept = s.kept := by
  simp [State.allotCounters]

@[simp] theorem State.tellLost_kept {s : State} {a1 a2} : (s.tellLost a1 a2).kept = s.kept := by simp [State.tellLost]

@[simp] theorem State.putSample_kept {s : State} {a1 a2} : (s.putSample a1 a2).kept = s.kept := by
  unfold State.putSample
  dsimp only
  (repeat' split) <;> simp

@[simp] theorem State.advanceCounter_kept {s : State} {a1 a2 a3} : (s.advanceCounter a1 a2 a3).kept = s.kept := by
  simp [State.advanceCounter]

@[simp] theorem State.occur_kept {s : State} {a1} : (s.occur a1).kept = s.kept := by simp [State.occur]

@[simp] theorem State.fixedCount_kept {s : State} {a1 a2} : (s.fixedCount a1 a2).kept = s.kept := by simp [State.fixedCount]

@[simp] theorem State.fixedMeasured_kept {s : State} {a1} : (s.fixedMeasured a1).kept = s.kept := by simp [State.fixedMeasured]

@[simp] theorem State.measuredCount_kept {s : State} {a1 a2 a3} : (s.measuredCount a1 a2 a3).kept = s.kept := by
  simp [State.measuredCount]

@[simp] theorem execPmuSample_kept {s : State} {a1 a2 a3 a4 a5 a6 a7 a8 a9 a10} : NextKept s (execPmuSample a1 a2 a3 a4 a5 a6 a7 a8 a9 a10 s) := by
  simp [execPmuSample]

@[simp] theorem effPmuSetCounter_kept {s : State} {a1 a2} : (effPmuSetCounter a1 a2 s).kept = s.kept := by simp [effPmuSetCounter]

@[simp] theorem execPmuSetCounter_kept {s : State} {a1} : NextKept s (execPmuSetCounter a1 s) := by simp [execPmuSetCounter]

@[simp] theorem effPmuControl_kept {s : State} {a1 a2} : (effPmuControl a1 a2 s).kept = s.kept := by simp [effPmuControl]

@[simp] theorem execPmuControl_kept {s : State} {a1} : NextKept s (execPmuControl a1 s) := by simp [execPmuControl]

@[simp] theorem effPmuSetSamples_kept {s : State} {a1 a2} : (effPmuSetSamples a1 a2 s).kept = s.kept := by simp [effPmuSetSamples]

@[simp] theorem execPmuSetSamples_kept {s : State} {a1} : NextKept s (execPmuSetSamples a1 s) := by simp [execPmuSetSamples]

@[simp] theorem effPmuSetDump_kept {s : State} {a1 a2} : (effPmuSetDump a1 a2 s).kept = s.kept := by simp [effPmuSetDump]

@[simp] theorem execPmuSetDump_kept {s : State} {a1} : NextKept s (execPmuSetDump a1 s) := by simp [execPmuSetDump]

@[simp] theorem execPmuDumpPeriod_kept {s : State} {a1 a2 a3 a4} : NextKept s (execPmuDumpPeriod a1 a2 a3 a4 s) := by
  unfold execPmuDumpPeriod
  dsimp only
  split <;> simp

end Sys2Proof.Machine
end

section
/-! SUPPORT for O5 and O7, the Bindery: the queue, the timebase and the binding table stay. -/

namespace Sys2Proof.Machine

@[simp] theorem State.setLayer_kept {s : State} {a1 a2} : (s.setLayer a1 a2).kept = s.kept := by simp [State.setLayer]

@[simp] theorem State.setPipe_kept {s : State} {a1 a2} : (s.setPipe a1 a2).kept = s.kept := by simp [State.setPipe]

@[simp] theorem State.setOutp_kept {s : State} {a1 a2} : (s.setOutp a1 a2).kept = s.kept := by simp [State.setOutp]

@[simp] theorem State.abort_kept {s : State} {a1 a2} : (s.abort a1 a2).kept = s.kept := by simp [State.abort]

@[simp] theorem setLayerReady_kept {s : State} {a1 a2 a3} : (setLayerReady a1 a2 a3 s).kept = s.kept := by
  unfold setLayerReady
  split <;> simp

@[simp] theorem effBndSetLayer_kept {s : State} {a1 a2} : (effBndSetLayer a1 a2 s).kept = s.kept := by simp [effBndSetLayer]

@[simp] theorem execBndSetLayer_kept {s : State} {a1} : NextKept s (execBndSetLayer a1 s) := by simp [execBndSetLayer]

@[simp] theorem flipReady_kept {s : State} {a1 a2 a3 a4} : (flipReady a1 a2 a3 a4 s).kept = s.kept := by
  unfold flipReady
  split <;> simp

@[simp] theorem effBndFlip_kept {s : State} {a1 a2} : (effBndFlip a1 a2 s).kept = s.kept := by simp [effBndFlip]

@[simp] theorem execBndFlip_kept {s : State} {a1} : NextKept s (execBndFlip a1 s) := by simp [execBndFlip]

@[simp] theorem effBndSetLut_kept {s : State} {a1 a2} : (effBndSetLut a1 a2 s).kept = s.kept := by simp [effBndSetLut]

@[simp] theorem execBndSetLut_kept {s : State} {a1} : NextKept s (execBndSetLut a1 s) := by simp [execBndSetLut]

@[simp] theorem State.setPose_kept {s : State} {a1} : (s.setPose a1).kept = s.kept := by simp [State.setPose]

@[simp] theorem effBndSetPose_kept {s : State} {a1 a2} : (effBndSetPose a1 a2 s).kept = s.kept := by simp [effBndSetPose]

@[simp] theorem execBndSetPose_kept {s : State} {a1} : NextKept s (execBndSetPose a1 s) := by simp [execBndSetPose]

@[simp] theorem execMotionSample_kept {s : State} {a1} : NextKept s (execMotionSample a1 s) := by simp [execMotionSample]

@[simp] theorem execPoseStale_kept {s : State} : NextKept s (execPoseStale s) := by
  unfold execPoseStale
  rw [nextKept_next]
  split
  · simp only [kept_ite, foldl_kept, State.postOwner_kept, State.postMgr_kept, State.setF_kept, implies_true, ite_self]
  · rfl

@[simp] theorem State.dropBuffer_kept {s : State} {a1} : (s.dropBuffer a1).kept = s.kept := by
  unfold State.dropBuffer
  split <;> simp

@[simp] theorem State.applySet_kept {s : State} {a1 a2} : (s.applySet a1 a2).kept = s.kept := by
  unfold State.applySet
  split <;> simp

@[simp] theorem State.applyLut_kept {s : State} {a1 a2} : (s.applyLut a1 a2).kept = s.kept := by simp [State.applyLut]

@[simp] theorem State.applyFlip_kept {s : State} {a1 a2 a3} : (s.applyFlip a1 a2 a3).kept = s.kept := by
  unfold State.applyFlip
  split <;> simp

@[simp] theorem State.countLate_kept {s : State} {a1 a2 a3 a4 a5} : (s.countLate a1 a2 a3 a4 a5).kept = s.kept := by
  simp [State.countLate]

@[simp] theorem State.applyLate_kept {s : State} {a1 a2 a3} : (s.applyLate a1 a2 a3).kept = s.kept := by
  unfold State.applyLate
  dsimp only
  split <;> simp

@[simp] theorem State.latchLayer_kept {s : State} {a1 a2 a3} : (s.latchLayer a1 a2 a3).kept = s.kept := by simp [State.latchLayer]

@[simp] theorem State.applyRegamma_kept {s : State} {a1 a2} : (s.applyRegamma a1 a2).kept = s.kept := by simp [State.applyRegamma]

@[simp] theorem State.latchPipe_kept {s : State} {a1 a2 a3} : (s.latchPipe a1 a2 a3).kept = s.kept := by simp [State.latchPipe]

@[simp] theorem State.latchSafe_kept {s : State} {a1 a2} : (s.latchSafe a1 a2).kept = s.kept := by simp [State.latchSafe]

@[simp] theorem State.latchBindery_kept {s : State} {a1 a2} : (s.latchBindery a1 a2).kept = s.kept := by simp [State.latchBindery]

@[simp] theorem execFlipPreviousReleased_kept {s : State} {a1} : NextKept s (execFlipPreviousReleased a1 s) := by
  simp [execFlipPreviousReleased]

@[simp] theorem State.dropLayersIf_kept {s : State} {a1} : (s.dropLayersIf a1).kept = s.kept := by simp [State.dropLayersIf]

@[simp] theorem State.dropLayers_kept {s : State} {a1} : (s.dropLayers a1).kept = s.kept := by simp [State.dropLayers]

@[simp] theorem State.forgetBindery_kept {s : State} {a1} : (s.forgetBindery a1).kept = s.kept := by simp [State.forgetBindery]

end Sys2Proof.Machine
end

section
/-! SUPPORT for O5 and O7, the guarantee plane: the queue, the timebase and the binding table stay. -/

namespace Sys2Proof.Machine

@[simp] theorem State.writeExpected_kept {s : State} {a1} : (s.writeExpected a1).kept = s.kept := by simp [State.writeExpected]

end Sys2Proof.Machine
end

section
/-! SUPPORT for O5 and O7, the gates of registers: the queue, the timebase and the binding table stay. -/

namespace Sys2Proof.Machine

@[simp] theorem State.gated_kept {s : State} {a1 a2 f} (hf : ∀ t, (f t).kept = t.kept) : (s.gated a1 a2 f).kept = s.kept := by
  simp [State.gated, hf]

@[simp] theorem State.regWrite_kept {s : State} {a1 a2 a3 a4 f} (hf : ∀ t, (f t).kept = t.kept) : (s.regWrite a1 a2 a3 a4 f).kept = s.kept := by
  simp [State.regWrite, hf]

end Sys2Proof.Machine
end

section
/-! SUPPORT for O5 and O7, Collation: the queue, the timebase and the binding table stay. -/

namespace Sys2Proof.Machine

@[simp] theorem State.setCvuHolder_kept {s : State} {a1 a2} : (s.setCvuHolder a1 a2).kept = s.kept := by simp [State.setCvuHolder]

@[simp] theorem State.setCvuValue_kept {s : State} {a1 a2} : (s.setCvuValue a1 a2).kept = s.kept := by simp [State.setCvuValue]

@[simp] theorem State.cvuFeed_kept {s : State} {a1 a2} : (s.cvuFeed a1 a2).kept = s.kept := by simp [State.cvuFeed]

@[simp] theorem State.cvuStart_kept {s : State} {a1} : (s.cvuStart a1).kept = s.kept := by simp [State.cvuStart]

@[simp] theorem State.cvuReset_kept {s : State} {a1} : (s.cvuReset a1).kept = s.kept := by simp [State.cvuReset]

@[simp] theorem State.cvuWrite_kept {s : State} {a1 a2 a3 a4 f} (hf : ∀ t, (f t).kept = t.kept) : (s.cvuWrite a1 a2 a3 a4 f).kept = s.kept := by
  simp [State.cvuWrite, hf]

@[simp] theorem State.writeCvuCfg_kept {s : State} {a1 a2 a3} : (s.writeCvuCfg a1 a2 a3).kept = s.kept := by
  simp [State.writeCvuCfg]

@[simp] theorem State.writeCvuData_kept {s : State} {a1 a2 a3 a4 a5} : (s.writeCvuData a1 a2 a3 a4 a5).kept = s.kept := by
  simp [State.writeCvuData]

@[simp] theorem State.writeCvuValue_kept {s : State} {a1 a2 a3} : (s.writeCvuValue a1 a2 a3).kept = s.kept := by
  simp [State.writeCvuValue]

@[simp] theorem State.writeCvuExpect_kept {s : State} {a1 a2 a3} : (s.writeCvuExpect a1 a2 a3).kept = s.kept := by
  simp [State.writeCvuExpect]

@[simp] theorem State.aliveAccept_kept {s : State} {a1 a2} : (s.aliveAccept a1 a2).kept = s.kept := by simp [State.aliveAccept]

@[simp] theorem State.aliveJudge_kept {s : State} {a1 a2} : (s.aliveJudge a1 a2).kept = s.kept := by simp [State.aliveJudge]

@[simp] theorem State.aliveNext_kept {s : State} {a1} : (s.aliveNext a1).kept = s.kept := by simp [State.aliveNext]

@[simp] theorem State.writeCvuAlive_kept {s : State} {a1 a2 a3} : (s.writeCvuAlive a1 a2 a3).kept = s.kept := by
  simp [State.writeCvuAlive]

@[simp] theorem execCvuStart_kept {s : State} {a1 a2} : NextKept s (execCvuStart a1 a2 s) := by simp [execCvuStart]

@[simp] theorem execCvuAlgChange_kept {s : State} {a1 a2 a3} : NextKept s (execCvuAlgChange a1 a2 a3 s) := by
  simp [execCvuAlgChange]

@[simp] theorem execCvuData8_kept {s : State} {a1 a2 a3} : NextKept s (execCvuData8 a1 a2 a3 s) := by simp [execCvuData8]

@[simp] theorem execCvuData16_kept {s : State} {a1 a2 a3} : NextKept s (execCvuData16 a1 a2 a3 s) := by simp [execCvuData16]

@[simp] theorem execCvuData32_kept {s : State} {a1 a2 a3} : NextKept s (execCvuData32 a1 a2 a3 s) := by simp [execCvuData32]

@[simp] theorem execCvuValueWrite_kept {s : State} {a1 a2 a3} : NextKept s (execCvuValueWrite a1 a2 a3 s) := by
  simp [execCvuValueWrite]

@[simp] theorem execCvuExpectWrite_kept {s : State} {a1 a2 a3} : NextKept s (execCvuExpectWrite a1 a2 a3 s) := by
  simp [execCvuExpectWrite]

@[simp] theorem execCvuAliveValue_kept {s : State} {a1 a2 a3} : NextKept s (execCvuAliveValue a1 a2 a3 s) := by
  simp [execCvuAliveValue]

@[simp] theorem execCvuAliveNext_kept {s : State} {a1 a2} : NextKept s (execCvuAliveNext a1 a2 s) := by simp [execCvuAliveNext]

@[simp] theorem execCvuAliveReset_kept {s : State} {a1 a2} : NextKept s (execCvuAliveReset a1 a2 s) := by simp [execCvuAliveReset]

@[simp] theorem effCollAssignUnit_kept {s : State} {a1 a2} : (effCollAssignUnit a1 a2 s).kept = s.kept := by
  simp [effCollAssignUnit]

@[simp] theorem execCollAssignUnit_kept {s : State} {a1} : NextKept s (execCollAssignUnit a1 s) := by simp [execCollAssignUnit]

@[simp] theorem effCollCompute_kept {s : State} {a1 a2} : (effCollCompute a1 a2 s).kept = s.kept := by
  unfold effCollCompute
  dsimp only
  split <;> simp

@[simp] theorem execCollCompute_kept {s : State} {a1} : NextKept s (execCollCompute a1 s) := by simp [execCollCompute]

@[simp] theorem State.loseUnits_kept {s : State} {a1 a2} : (s.loseUnits a1 a2).kept = s.kept := by simp [State.loseUnits]

@[simp] theorem State.setWin_kept {s : State} {a1 a2} : (s.setWin a1 a2).kept = s.kept := by simp [State.setWin]

@[simp] theorem State.queueWin_kept {s : State} {a1 a2} : (s.queueWin a1 a2).kept = s.kept := by simp [State.queueWin]

@[simp] theorem effCollSetWindow_kept {s : State} {a1 a2} : (effCollSetWindow a1 a2 s).kept = s.kept := by simp [effCollSetWindow]

@[simp] theorem execCollSetWindow_kept {s : State} {a1} : NextKept s (execCollSetWindow a1 s) := by simp [execCollSetWindow]

@[simp] theorem effCollExpect_kept {s : State} {a1 a2} : (effCollExpect a1 a2 s).kept = s.kept := by simp [effCollExpect]

@[simp] theorem execCollExpect_kept {s : State} {a1} : NextKept s (execCollExpect a1 s) := by simp [execCollExpect]

@[simp] theorem State.showWin_kept {s : State} {a1 a2} : (s.showWin a1 a2).kept = s.kept := by
  unfold State.showWin
  split <;> simp

@[simp] theorem State.clearFails_kept {s : State} {a1 a2} : (s.clearFails a1 a2).kept = s.kept := by simp [State.clearFails]

@[simp] theorem State.turnWinOff_kept {s : State} {a1 a2} : (s.turnWinOff a1 a2).kept = s.kept := by simp [State.turnWinOff]

@[simp] theorem State.applyWinPend_kept {s : State} {a1 a2 a3 a4} : (s.applyWinPend a1 a2 a3 a4).kept = s.kept := by
  unfold State.applyWinPend
  split <;> simp

@[simp] theorem State.latchWindows_kept {s : State} {a1 a2} : (s.latchWindows a1 a2).kept = s.kept := by simp [State.latchWindows]

@[simp] theorem State.latchRuns_kept {s : State} {a1 a2} : (s.latchRuns a1 a2).kept = s.kept := by
  refine foldl_kept fun t x => ?_
  dsimp only
  split <;> simp

@[simp] theorem State.markLate_kept {s : State} {a1 a2} : (s.markLate a1 a2).kept = s.kept := by
  refine foldl_kept fun t x => ?_
  split <;> simp

@[simp] theorem State.feedWindows_kept {s : State} {a1 a2 a3 a4} : (s.feedWindows a1 a2 a3 a4).kept = s.kept := by
  refine foldl_kept fun t x => ?_
  dsimp only
  split <;> simp

@[simp] theorem State.fitWindows_kept {s : State} {a1} : (s.fitWindows a1).kept = s.kept := by
  refine foldl_kept fun t x => ?_
  split <;> simp

@[simp] theorem State.loseSupplier_kept {s : State} {a1 a2} : (s.loseSupplier a1 a2).kept = s.kept := by simp [State.loseSupplier]

@[simp] theorem State.forgetWindows_kept {s : State} {a1} : (s.forgetWindows a1).kept = s.kept := by simp [State.forgetWindows]

end Sys2Proof.Machine
end

section
/-! SUPPORT for O5 and O7, the outputs: the queue, the timebase and the binding table stay. -/

namespace Sys2Proof.Machine

@[simp] theorem State.postOut_kept {s : State} {a1 a2 a3 a4 a5} : (s.postOut a1 a2 a3 a4 a5).kept = s.kept := by
  simp [State.postOut]

@[simp] theorem State.dropPermit_kept {s : State} {a1} : (s.dropPermit a1).kept = s.kept := by
  simp only [State.dropPermit, kept_mk, kept_fold, State.setF_kept]

@[simp] theorem State.setPixPll_kept {s : State} {a1 a2} : (s.setPixPll a1 a2).kept = s.kept := by simp [State.setPixPll]

@[simp] theorem State.settleWear_kept {s : State} {a1} : (s.settleWear a1).kept = s.kept := by simp [State.settleWear]

@[simp] theorem State.stopOne_kept {s : State} {a1} : (s.stopOne a1).kept = s.kept := by simp [State.stopOne]

@[simp] theorem State.endChange_kept {s : State} {a1 a2 a3 a4} : (s.endChange a1 a2 a3 a4).kept = s.kept := by
  unfold State.endChange
  (repeat' split) <;> simp

@[simp] theorem State.linkStopped_kept {s : State} {a1 a2} : (s.linkStopped a1 a2).kept = s.kept := by simp [State.linkStopped]

@[simp] theorem beginChange_kept {s : State} {a1 a2 a3} : (beginChange a1 a2 a3 s).kept = s.kept := by simp [beginChange]

@[simp] theorem effOutSetTiming_kept {s : State} {a1 a2} : (effOutSetTiming a1 a2 s).kept = s.kept := by simp [effOutSetTiming]

@[simp] theorem execOutSetTiming_kept {s : State} {a1} : NextKept s (execOutSetTiming a1 s) := by simp [execOutSetTiming]

@[simp] theorem execOutLinkStopped_kept {s : State} {a1} : NextKept s (execOutLinkStopped a1 s) := by
  unfold execOutLinkStopped
  split <;> simp

@[simp] theorem execOutPllLocked_kept {s : State} {a1 a2} : NextKept s (execOutPllLocked a1 a2 s) := by
  unfold execOutPllLocked
  split <;> simp

@[simp] theorem State.linkResult_kept {s : State} {a1 a2} : (s.linkResult a1 a2).kept = s.kept := by simp [State.linkResult]

@[simp] theorem execOutLinkTrained_kept {s : State} {a1 a2 a3} : NextKept s (execOutLinkTrained a1 a2 a3 s) := by
  unfold execOutLinkTrained
  split <;> simp

@[simp] theorem State.putTiming_kept {s : State} {a1 a2 a3} : (s.putTiming a1 a2 a3).kept = s.kept := by simp [State.putTiming]

@[simp] theorem State.startTiming_kept {s : State} {a1 a2} : (s.startTiming a1 a2).kept = s.kept := by simp [State.startTiming]

@[simp] theorem State.restartOutput_kept {s : State} {a1} : (s.restartOutput a1).kept = s.kept := by simp [State.restartOutput]

@[simp] theorem State.stopForDrop_kept {s : State} {a1} : (s.stopForDrop a1).kept = s.kept := by simp [State.stopForDrop]

@[simp] theorem State.stateTolerance_kept {s : State} {a1} : (s.stateTolerance a1).kept = s.kept := by simp [State.stateTolerance]

@[simp] theorem State.underrun_kept {s : State} {a1 a2} : (s.underrun a1 a2).kept = s.kept := by simp [State.underrun]

@[simp] theorem State.poisonBeat_kept {s : State} {a1 a2 a3} : (s.poisonBeat a1 a2 a3).kept = s.kept := by simp [State.poisonBeat]

@[simp] theorem execOutLineStart_kept {s : State} {a1 a2 a3} : NextKept s (execOutLineStart a1 a2 a3 s) := by
  unfold execOutLineStart
  dsimp only
  (repeat' split) <;> simp

@[simp] theorem execTeEdge_kept {s : State} {a1} : NextKept s (execTeEdge a1 s) := by simp [execTeEdge]

@[simp] theorem execTePeriodMissed_kept {s : State} {a1} : NextKept s (execTePeriodMissed a1 s) := by simp [execTePeriodMissed]

@[simp] theorem execHpdPlug_kept {s : State} {a1} : NextKept s (execHpdPlug a1 s) := by simp [execHpdPlug]

@[simp] theorem execHpdUnplug_kept {s : State} {a1} : NextKept s (execHpdUnplug a1 s) := by
  unfold execHpdUnplug
  rw [nextKept_next]
  split
  · rw [State.postOut_kept]
    (repeat' split) <;> simp only [State.setOutp_kept, State.count_kept, State.setF_kept]
  · rfl

@[simp] theorem execHpdIrq_kept {s : State} {a1} : NextKept s (execHpdIrq a1 s) := by simp [execHpdIrq]

@[simp] theorem auxAnswer_kept {s : State} {a1 a2 a3 a4 a5 a6 a7} : (auxAnswer a1 a2 a3 a4 a5 a6 a7 s).kept = s.kept := by
  simp [auxAnswer]

@[simp] theorem effOutAux_kept {s : State} {a1 a2 a3 a4 a5} : (effOutAux a1 a2 a3 a4 a5 s).kept = s.kept := by simp [effOutAux]

@[simp] theorem execOutAux_kept {s : State} {a1 a2 a3 a4} : NextKept s (execOutAux a1 a2 a3 a4 s) := by simp [execOutAux]

@[simp] theorem State.forgetAux_kept {s : State} {a1} : (s.forgetAux a1).kept = s.kept := by simp [State.forgetAux]

@[simp] theorem State.writeAdvance_kept {s : State} {a1 a2} : (s.writeAdvance a1 a2).1.kept = s.kept := by
  unfold State.writeAdvance
  (repeat' split) <;> simp

@[simp] theorem State.writeTimingReg_kept {s : State} {a1 a2 a3} : SomeKept s (s.writeTimingReg a1 a2 a3) := by
  unfold State.writeTimingReg
  dsimp only
  (repeat' split) <;> simp

end Sys2Proof.Machine
end

section
/-! SUPPORT for O5 and O7, the Strongroom: the queue, the timebase and the binding table stay. -/

namespace Sys2Proof.Machine

@[simp] theorem State.setAlert_kept {s : State} {a1 a2} : (s.setAlert a1 a2).kept = s.kept := by simp [State.setAlert]

@[simp] theorem State.showChimes_kept {s : State} : (s.showChimes).kept = s.kept := by simp [State.showChimes]

@[simp] theorem State.setVoices_kept {s : State} {a1 a2} : (s.setVoices a1 a2).kept = s.kept := by simp [State.setVoices]

@[simp] theorem State.chimeStart_kept {s : State} {a1} : (s.chimeStart a1).kept = s.kept := by
  unfold State.chimeStart
  dsimp only
  (repeat' split) <;> simp

@[simp] theorem State.chimeFill_kept {s : State} : (s.chimeFill).kept = s.kept := by simp [State.chimeFill]

@[simp] theorem State.chimeStop_kept {s : State} {a1} : (s.chimeStop a1).kept = s.kept := by simp [State.chimeStop]

@[simp] theorem execChimeVoiceFree_kept {s : State} {a1} : NextKept s (execChimeVoiceFree a1 s) := by simp [execChimeVoiceFree]

@[simp] theorem State.respond_kept {s : State} {a1 a2 a3 a4 a5 a6} : (s.respond a1 a2 a3 a4 a5 a6).kept = s.kept := by
  simp [State.respond]

@[simp] theorem State.endResponse_kept {s : State} {a1 a2 a3} : (s.endResponse a1 a2 a3).kept = s.kept := by
  simp [State.endResponse]

@[simp] theorem State.takeOutcome_kept {s : State} {a1 a2 a3} : (s.takeOutcome a1 a2 a3).kept = s.kept := by
  simp [State.takeOutcome]

@[simp] theorem State.escalate_kept {s : State} {a1 a2 a3} : (s.escalate a1 a2 a3).kept = s.kept := by simp [State.escalate]

@[simp] theorem State.settleEscalation_kept {s : State} {a1 a2} : (s.settleEscalation a1 a2).kept = s.kept := by
  simp [State.settleEscalation]

@[simp] theorem State.setGpc_kept {s : State} {a1 a2} : (s.setGpc a1 a2).kept = s.kept := by simp [State.setGpc]

@[simp] theorem execGpcOutcome_kept {s : State} {a1 a2} : NextKept s (execGpcOutcome a1 a2 s) := by
  unfold execGpcOutcome
  dsimp only
  split <;> simp

@[simp] theorem State.postBoth_kept {s : State} {a1 a2 a3 a4 a5 a6} : (s.postBoth a1 a2 a3 a4 a5 a6).kept = s.kept := by
  simp [State.postBoth]

@[simp] theorem State.winAct_kept {s : State} {a1 a2 a3 a4 a5} : (s.winAct a1 a2 a3 a4 a5).kept = s.kept := by simp [State.winAct]

@[simp] theorem execWindowOutcome_kept {s : State} {a1 a2} : NextKept s (execWindowOutcome a1 a2 s) := by
  unfold execWindowOutcome
  dsimp only
  (repeat' split) <;> simp

@[simp] theorem strgPkt_kept {s : State} {a1 a2 a3 f} (hf : ∀ p t, (f p t).kept = t.kept) : (strgPkt a1 a2 s a3 f).kept = s.kept := by
  unfold strgPkt
  dsimp only
  (repeat' split) <;> simp [hf]

@[simp] theorem effStrgGetInfo_kept {s : State} {a1 a2} : (effStrgGetInfo a1 a2 s).kept = s.kept := by simp [effStrgGetInfo]

@[simp] theorem execStrgGetInfo_kept {s : State} {a1} : NextKept s (execStrgGetInfo a1 s) := by simp [execStrgGetInfo]

@[simp] theorem effStrgSetTelltale_kept {s : State} {a1 a2} : (effStrgSetTelltale a1 a2 s).kept = s.kept := by
  simp [effStrgSetTelltale]

@[simp] theorem execStrgSetTelltale_kept {s : State} {a1} : NextKept s (execStrgSetTelltale a1 s) := by simp [execStrgSetTelltale]

@[simp] theorem State.forgetTelltales_kept {s : State} {a1} : (s.forgetTelltales a1).kept = s.kept := by
  simp [State.forgetTelltales]

@[simp] theorem State.failTelltale_kept {s : State} {a1} : (s.failTelltale a1).kept = s.kept := by simp [State.failTelltale]

@[simp] theorem State.loseController_kept {s : State} {a1} : (s.loseController a1).kept = s.kept := by simp [State.loseController]

@[simp] theorem execTelltaleRefreshExpiry_kept {s : State} {a1} : NextKept s (execTelltaleRefreshExpiry a1 s) := by
  simp [execTelltaleRefreshExpiry]

@[simp] theorem execBlinkPhaseUpdate_kept {s : State} {a1} : NextKept s (execBlinkPhaseUpdate a1 s) := by
  simp [execBlinkPhaseUpdate]

@[simp] theorem State.putTelltale_kept {s : State} {a1 a2 a3} : (s.putTelltale a1 a2 a3).kept = s.kept := by
  simp [State.putTelltale]

@[simp] theorem State.latchTelltales_kept {s : State} {a1 a2} : (s.latchTelltales a1 a2).kept = s.kept := by
  simp [State.latchTelltales]

@[simp] theorem State.latchCheckers_kept {s : State} {a1 a2} : (s.latchCheckers a1 a2).kept = s.kept := by
  simp [State.latchCheckers]

@[simp] theorem State.feedChecker_kept {s : State} {a1 a2 a3 a4} : (s.feedChecker a1 a2 a3 a4).kept = s.kept := by
  unfold State.feedChecker
  dsimp only
  split <;> simp

@[simp] theorem State.startChecking_kept {s : State} {a1} : (s.startChecking a1).kept = s.kept := by simp [State.startChecking]

@[simp] theorem effStrgChime_kept {s : State} {a1 a2} : (effStrgChime a1 a2 s).kept = s.kept := by simp [effStrgChime]

@[simp] theorem execStrgChime_kept {s : State} {a1} : NextKept s (execStrgChime a1 s) := by simp [execStrgChime]

@[simp] theorem effStrgKeyLoad_kept {s : State} {a1 a2} : (effStrgKeyLoad a1 a2 s).kept = s.kept := by simp [effStrgKeyLoad]

@[simp] theorem execStrgKeyLoad_kept {s : State} {a1} : NextKept s (execStrgKeyLoad a1 s) := by simp [execStrgKeyLoad]

@[simp] theorem effStrgPermitTiming_kept {s : State} {a1 a2} : (effStrgPermitTiming a1 a2 s).kept = s.kept := by
  simp [effStrgPermitTiming]

@[simp] theorem execStrgPermitTiming_kept {s : State} {a1} : NextKept s (execStrgPermitTiming a1 s) := by
  simp [execStrgPermitTiming]

@[simp] theorem execPermitExpiry_kept {s : State} {a1} : NextKept s (execPermitExpiry a1 s) := by simp [execPermitExpiry]

end Sys2Proof.Machine
end

section
/-! SUPPORT for O5 and O7, haptics: the queue, the timebase and the binding table stay. -/

namespace Sys2Proof.Machine

@[simp] theorem State.showHap_kept {s : State} {a1} : (s.showHap a1).kept = s.kept := by simp [State.showHap]

@[simp] theorem State.setHap_kept {s : State} {a1 a2} : (s.setHap a1 a2).kept = s.kept := by simp [State.setHap]

@[simp] theorem State.settleBoost_kept {s : State} : (s.settleBoost).kept = s.kept := by simp [State.settleBoost]

@[simp] theorem execBoostUp_kept {s : State} : NextKept s (execBoostUp s) := by simp [execBoostUp]

@[simp] theorem execVhvSag_kept {s : State} {a1} : NextKept s (execVhvSag a1 s) := by simp [execVhvSag]

@[simp] theorem execVhvSagEnd_kept {s : State} {a1} : NextKept s (execVhvSagEnd a1 s) := by simp [execVhvSagEnd]

@[simp] theorem State.endPending_kept {s : State} {a1 a2 a3} : (s.endPending a1 a2 a3).kept = s.kept := by
  unfold State.endPending
  (repeat' split) <;> simp

@[simp] theorem State.endEffect_kept {s : State} {a1 a2} : (s.endEffect a1 a2).kept = s.kept := by
  unfold State.endEffect
  (repeat' split) <;> simp

@[simp] theorem State.brakePassively_kept {s : State} {a1} : (s.brakePassively a1).kept = s.kept := by
  unfold State.brakePassively
  split <;> simp

@[simp] theorem State.clearCal_kept {s : State} {a1} : (s.clearCal a1).kept = s.kept := by simp [State.clearCal]

@[simp] theorem State.hapOwnerChange_kept {s : State} {a1} : (s.hapOwnerChange a1).kept = s.kept := by simp [State.hapOwnerChange]

@[simp] theorem State.dropHaptics_kept {s : State} : (s.dropHaptics).kept = s.kept := by simp [State.dropHaptics]

@[simp] theorem execVhaptLoss_kept {s : State} {a1} : NextKept s (execVhaptLoss a1 s) := by simp [execVhaptLoss]

@[simp] theorem execVhaptRestored_kept {s : State} {a1} : NextKept s (execVhaptRestored a1 s) := by simp [execVhaptRestored]

@[simp] theorem effHapSetChannel_kept {s : State} {a1 a2} : (effHapSetChannel a1 a2 s).kept = s.kept := by simp [effHapSetChannel]

@[simp] theorem execHapSetChannel_kept {s : State} {a1} : NextKept s (execHapSetChannel a1 s) := by simp [execHapSetChannel]

@[simp] theorem State.copyToWake_kept {s : State} {a1 a2 a3} : (s.copyToWake a1 a2 a3).kept = s.kept := by simp [State.copyToWake]

@[simp] theorem effHapLoadEffect_kept {s : State} {a1 a2} : (effHapLoadEffect a1 a2 s).kept = s.kept := by simp [effHapLoadEffect]

@[simp] theorem execHapLoadEffect_kept {s : State} {a1} : NextKept s (execHapLoadEffect a1 s) := by simp [execHapLoadEffect]

@[simp] theorem State.dropTrigger_kept {s : State} {a1} : (s.dropTrigger a1).kept = s.kept := by simp [State.dropTrigger]

@[simp] theorem State.hapQueue_kept {s : State} {a1 a2 a3 a4} : (s.hapQueue a1 a2 a3 a4).kept = s.kept := by
  unfold State.hapQueue
  dsimp only
  split <;> simp

@[simp] theorem State.hapTrigger_kept {s : State} {a1 a2} : (s.hapTrigger a1 a2).kept = s.kept := by simp [State.hapTrigger]

@[simp] theorem effHapPlay_kept {s : State} {a1 a2} : (effHapPlay a1 a2 s).kept = s.kept := by simp [effHapPlay]

@[simp] theorem execHapPlay_kept {s : State} {a1} : NextKept s (execHapPlay a1 s) := by simp [execHapPlay]

@[simp] theorem effHapStop_kept {s : State} {a1 a2} : (effHapStop a1 a2 s).kept = s.kept := by
  unfold effHapStop
  dsimp only
  split <;> simp

@[simp] theorem execHapStop_kept {s : State} {a1} : NextKept s (execHapStop a1 s) := by simp [execHapStop]

@[simp] theorem effHapCalibrate_kept {s : State} {a1 a2} : (effHapCalibrate a1 a2 s).kept = s.kept := by simp [effHapCalibrate]

@[simp] theorem execHapCalibrate_kept {s : State} {a1} : NextKept s (execHapCalibrate a1 s) := by simp [execHapCalibrate]

@[simp] theorem State.forgetHaptics_kept {s : State} {a1} : (s.forgetHaptics a1).kept = s.kept := by simp [State.forgetHaptics]

@[simp] theorem State.wakePlay_kept {s : State} {a1 a2 a3} : (s.wakePlay a1 a2 a3).kept = s.kept := by simp [State.wakePlay]

end Sys2Proof.Machine
end

section
/-! SUPPORT for O5 and O7, touch: the queue, the timebase and the binding table stay. -/

namespace Sys2Proof.Machine

@[simp] theorem State.showTouch_kept {s : State} {a1} : (s.showTouch a1).kept = s.kept := by simp [State.showTouch]

@[simp] theorem State.setTctl_kept {s : State} {a1 a2} : (s.setTctl a1 a2).kept = s.kept := by simp [State.setTctl]

@[simp] theorem effTchSetPanel_kept {s : State} {a1 a2} : (effTchSetPanel a1 a2 s).kept = s.kept := by simp [effTchSetPanel]

@[simp] theorem execTchSetPanel_kept {s : State} {a1} : NextKept s (execTchSetPanel a1 s) := by simp [execTchSetPanel]

@[simp] theorem State.setRegion_kept {s : State} {a1 a2} : (s.setRegion a1 a2).kept = s.kept := by simp [State.setRegion]

@[simp] theorem effTchSetRegion_kept {s : State} {a1 a2} : (effTchSetRegion a1 a2 s).kept = s.kept := by simp [effTchSetRegion]

@[simp] theorem execTchSetRegion_kept {s : State} {a1} : NextKept s (execTchSetRegion a1 s) := by simp [execTchSetRegion]

@[simp] theorem State.orphanContacts_kept {s : State} {a1 a2 a3} : (s.orphanContacts a1 a2 a3).kept = s.kept := by
  simp [State.orphanContacts]

@[simp] theorem State.freeRegion_kept {s : State} {a1} : (s.freeRegion a1).kept = s.kept := by
  unfold State.freeRegion
  dsimp only
  split <;> simp

@[simp] theorem State.applyRegion_kept {s : State} {a1 a2} : (s.applyRegion a1 a2).kept = s.kept := by
  unfold State.applyRegion
  split <;> simp

@[simp] theorem State.applyRegions_kept {s : State} {a1} : (s.applyRegions a1).kept = s.kept := by simp [State.applyRegions]

@[simp] theorem State.dropRegions_kept {s : State} {a1} : (s.dropRegions a1).kept = s.kept := by simp [State.dropRegions]

@[simp] theorem execTouchFrameStart_kept {s : State} {a1} : NextKept s (execTouchFrameStart a1 s) := by simp [execTouchFrameStart]

@[simp] theorem State.reportRegion_kept {s : State} {a1 a2 a3 a4} : (s.reportRegion a1 a2 a3 a4).kept = s.kept := by
  unfold State.reportRegion
  dsimp only
  (repeat' split) <;> simp

@[simp] theorem State.fireReflex_kept {s : State} {a1 a2 a3} : (s.fireReflex a1 a2 a3).kept = s.kept := by
  unfold State.fireReflex
  split <;> simp

@[simp] theorem State.noiseStep_kept {s : State} {a1 a2 a3} : (s.noiseStep a1 a2 a3).kept = s.kept := by simp [State.noiseStep]

@[simp] theorem State.endTouchWait_kept {s : State} {a1 a2 a3 a4 a5} : (s.endTouchWait a1 a2 a3 a4 a5).kept = s.kept := by
  unfold State.endTouchWait
  split <;> simp

@[simp] theorem State.countTouchFrame_kept {s : State} {a1 a2 a3} : (s.countTouchFrame a1 a2 a3).kept = s.kept := by
  simp [State.countTouchFrame]

@[simp] theorem State.noteFresh_kept {s : State} {a1 a2 a3} : (s.noteFresh a1 a2 a3).kept = s.kept := by simp [State.noteFresh]

@[simp] theorem State.noteSaturation_kept {s : State} {a1 a2 a3 a4} : (s.noteSaturation a1 a2 a3 a4).kept = s.kept := by
  simp [State.noteSaturation]

@[simp] theorem State.tellLifted_kept {s : State} {a1 a2 a3} : (s.tellLifted a1 a2 a3).kept = s.kept := by simp [State.tellLifted]

@[simp] theorem State.fireReflexes_kept {s : State} {a1 a2} : (s.fireReflexes a1 a2).kept = s.kept := by simp [State.fireReflexes]

@[simp] theorem State.endTouchFrame_kept {s : State} {a1 a2 a3 a4 a5 a6 a7 a8} : (s.endTouchFrame a1 a2 a3 a4 a5 a6 a7 a8).kept = s.kept := by
  simp [State.endTouchFrame]

@[simp] theorem State.touchFrame_kept {s : State} {a1 a2 a3 a4 a5 a6} : (s.touchFrame a1 a2 a3 a4 a5 a6).kept = s.kept := by
  simp [State.touchFrame]

@[simp] theorem execTouchFrameEnd_kept {s : State} {a1 a2 a3 a4} : NextKept s (execTouchFrameEnd a1 a2 a3 a4 s) := by
  unfold execTouchFrameEnd
  split <;> simp

@[simp] theorem execSuspectStableTimeout_kept {s : State} {a1 a2} : NextKept s (execSuspectStableTimeout a1 a2 s) := by
  simp [execSuspectStableTimeout]

@[simp] theorem execContactStuck_kept {s : State} {a1 a2} : NextKept s (execContactStuck a1 a2 s) := by
  unfold execContactStuck
  dsimp only
  (repeat' split) <;> simp

@[simp] theorem State.saveBaselines_kept {s : State} {a1} : (s.saveBaselines a1).kept = s.kept := by
  unfold State.saveBaselines
  dsimp only
  split <;> simp

@[simp] theorem execTouchBaselineSave_kept {s : State} {a1 a2} : NextKept s (execTouchBaselineSave a1 a2 s) := by
  simp [execTouchBaselineSave]

@[simp] theorem State.touchWait_kept {s : State} {a1 a2} : (s.touchWait a1 a2).kept = s.kept := by simp [State.touchWait]

@[simp] theorem effTchRecalibrate_kept {s : State} {a1 a2} : (effTchRecalibrate a1 a2 s).kept = s.kept := by
  simp [effTchRecalibrate]

@[simp] theorem execTchRecalibrate_kept {s : State} {a1} : NextKept s (execTchRecalibrate a1 s) := by simp [execTchRecalibrate]

@[simp] theorem effTchCapture_kept {s : State} {a1 a2} : (effTchCapture a1 a2 s).kept = s.kept := by simp [effTchCapture]

@[simp] theorem execTchCapture_kept {s : State} {a1} : NextKept s (execTchCapture a1 s) := by simp [execTchCapture]

@[simp] theorem State.forgetTouch_kept {s : State} {a1} : (s.forgetTouch a1).kept = s.kept := by simp [State.forgetTouch]

@[simp] theorem State.loseContacts_kept {s : State} {a1} : (s.loseContacts a1).kept = s.kept := by simp [State.loseContacts]

@[simp] theorem State.dropTouch_kept {s : State} : (s.dropTouch).kept = s.kept := by simp [State.dropTouch]

@[simp] theorem effTchSetWake_kept {s : State} {a1 a2} : (effTchSetWake a1 a2 s).kept = s.kept := by simp [effTchSetWake]

@[simp] theorem execTchSetWake_kept {s : State} {a1} : NextKept s (execTchSetWake a1 s) := by simp [execTchSetWake]

@[simp] theorem State.tellWake_kept {s : State} : (s.tellWake).kept = s.kept := by
  unfold State.tellWake
  split <;> simp

@[simp] theorem State.wakeGesture_kept {s : State} {a1 a2 a3} : (s.wakeGesture a1 a2 a3).kept = s.kept := by
  simp [State.wakeGesture]

@[simp] theorem execWakeScan_kept {s : State} {a1 a2 a3} : NextKept s (execWakeScan a1 a2 a3 s) := by simp [execWakeScan]

@[simp] theorem execWakePendingClear_kept {s : State} {a1} : NextKept s (execWakePendingClear a1 s) :=
  nextKept_next.2 (State.regWrite_kept fun t => by rw [kept_mk, kept_fold, State.setF_kept])

end Sys2Proof.Machine
end

section
/-! SUPPORT for O5 and O7, audio: the queue, the timebase and the binding table stay. -/

namespace Sys2Proof.Machine

@[simp] theorem State.showEp_kept {s : State} {a1} : (s.showEp a1).kept = s.kept := by
  unfold State.showEp
  dsimp only
  split <;> simp

@[simp] theorem State.setEp_kept {s : State} {a1 a2} : (s.setEp a1 a2).kept = s.kept := by simp [State.setEp]

@[simp] theorem State.showPort_kept {s : State} {a1} : (s.showPort a1).kept = s.kept := by simp [State.showPort]

@[simp] theorem State.setPort_kept {s : State} {a1 a2} : (s.setPort a1 a2).kept = s.kept := by simp [State.setPort]

@[simp] theorem State.showNode_kept {s : State} {a1 a2} : (s.showNode a1 a2).kept = s.kept := by simp [State.showNode]

@[simp] theorem State.showAud_kept {s : State} : (s.showAud).kept = s.kept := by simp [State.showAud]

@[simp] theorem State.putNode_kept {s : State} {a1 a2} : (s.putNode a1 a2).kept = s.kept := by simp [State.putNode]

@[simp] theorem State.freeNode_kept {s : State} {a1} : (s.freeNode a1).kept = s.kept := by
  unfold State.freeNode
  split <;> simp

@[simp] theorem State.putRoute_kept {s : State} {a1 a2} : (s.putRoute a1 a2).kept = s.kept := by simp [State.putRoute]

@[simp] theorem effAudSetPort_kept {s : State} {a1 a2} : (effAudSetPort a1 a2 s).kept = s.kept := by simp [effAudSetPort]

@[simp] theorem execAudSetPort_kept {s : State} {a1} : NextKept s (execAudSetPort a1 s) := by simp [execAudSetPort]

@[simp] theorem execTdmFsEdge_kept {s : State} {a1 a2} : NextKept s (execTdmFsEdge a1 a2 s) := by simp [execTdmFsEdge]

@[simp] theorem execTdmPortLost_kept {s : State} {a1} : NextKept s (execTdmPortLost a1 s) := by simp [execTdmPortLost]

@[simp] theorem execTdmPortRelock_kept {s : State} {a1} : NextKept s (execTdmPortRelock a1 s) := by simp [execTdmPortRelock]

@[simp] theorem effAudSetEndpoint_kept {s : State} {a1 a2} : (effAudSetEndpoint a1 a2 s).kept = s.kept := by
  simp [effAudSetEndpoint]

@[simp] theorem execAudSetEndpoint_kept {s : State} {a1} : NextKept s (execAudSetEndpoint a1 s) := by simp [execAudSetEndpoint]

@[simp] theorem State.newNode_kept {s : State} {a1 a2} : (s.newNode a1 a2).kept = s.kept := by simp [State.newNode]

@[simp] theorem State.newRoute_kept {s : State} {a1 a2 a3 a4 a5} : (s.newRoute a1 a2 a3 a4 a5).kept = s.kept := by
  simp [State.newRoute]

@[simp] theorem State.applyNode_kept {s : State} {a1 a2} : (s.applyNode a1 a2).kept = s.kept := by
  unfold State.applyNode
  dsimp only
  split <;> simp

@[simp] theorem State.applyRoute_kept {s : State} {a1 a2} : (s.applyRoute a1 a2).kept = s.kept := by
  unfold State.applyRoute
  dsimp only
  split <;> simp

@[simp] theorem State.applyGraph_kept {s : State} {a1 a2 a3} : (s.applyGraph a1 a2 a3).kept = s.kept := by simp [State.applyGraph]

@[simp] theorem State.graphComing_kept {s : State} : (s.graphComing).kept = s.kept := by simp [State.graphComing]

@[simp] theorem State.queueGraph_kept {s : State} {a1 a2 a3 a4} : (s.queueGraph a1 a2 a3 a4).kept = s.kept := by
  simp [State.queueGraph]

@[simp] theorem effAudSetNode_kept {s : State} {a1 a2} : (effAudSetNode a1 a2 s).kept = s.kept := by simp [effAudSetNode]

@[simp] theorem execAudSetNode_kept {s : State} {a1} : NextKept s (execAudSetNode a1 s) := by simp [execAudSetNode]

@[simp] theorem effAudSetRoute_kept {s : State} {a1 a2} : (effAudSetRoute a1 a2 s).kept = s.kept := by simp [effAudSetRoute]

@[simp] theorem execAudSetRoute_kept {s : State} {a1} : NextKept s (execAudSetRoute a1 s) := by simp [execAudSetRoute]

@[simp] theorem effAudCommit_kept {s : State} {a1 a2} : (effAudCommit a1 a2 s).kept = s.kept := by simp [effAudCommit]

@[simp] theorem execAudCommit_kept {s : State} {a1} : NextKept s (execAudCommit a1 s) := by simp [execAudCommit]

@[simp] theorem State.forgetAudio_kept {s : State} {a1} : (s.forgetAudio a1).kept = s.kept := by simp [State.forgetAudio]

@[simp] theorem State.commitGraph_kept {s : State} {a1} : (s.commitGraph a1).kept = s.kept := by
  unfold State.commitGraph
  dsimp only
  split <;> simp

@[simp] theorem State.boundary_kept {s : State} {a1} : (s.boundary a1).kept = s.kept := by simp [State.boundary]

@[simp] theorem State.aimRoutes_kept {s : State} : (s.aimRoutes).kept = s.kept := by simp [State.aimRoutes]

@[simp] theorem State.settleEp_kept {s : State} {a1} : (s.settleEp a1).kept = s.kept := by
  unfold State.settleEp
  (repeat' split) <;> simp

@[simp] theorem State.openDelay_kept {s : State} {a1} : (s.openDelay a1).kept = s.kept := by simp [State.openDelay]

@[simp] theorem State.runNode_kept {s : State} {a1 a2} : (s.runNode a1 a2).kept = s.kept := by
  unfold State.runNode
  split <;> simp

@[simp] theorem State.runNodes_kept {s : State} {a1 a2 a3} : (State.runNodes a1 a2 a3 s).kept = s.kept := by
  induction a2 generalizing s a3 with
  | zero => rfl
  | succ k ih => unfold State.runNodes; split <;> simp [ih]

@[simp] theorem State.needPeriod_kept {s : State} {a1 a2} : (s.needPeriod a1 a2).kept = s.kept := by simp [State.needPeriod]

@[simp] theorem State.endPeriod_kept {s : State} {a1 a2} : (s.endPeriod a1 a2).kept = s.kept := by simp [State.endPeriod]

@[simp] theorem State.runStream_kept {s : State} {a1 a2 a3 a4} : (State.runStream a1 a2 a3 a4 s).kept = s.kept := by
  induction a3 generalizing s a4 with
  | zero => rfl
  | succ k ih => unfold State.runStream; dsimp only; split <;> simp [ih]

@[simp] theorem State.runSource_kept {s : State} {a1 a2} : (s.runSource a1 a2).kept = s.kept := by
  unfold State.runSource
  split <;> simp

@[simp] theorem State.runSink_kept {s : State} {a1 a2} : (s.runSink a1 a2).kept = s.kept := by
  unfold State.runSink
  split <;> simp

@[simp] theorem State.stepRoutes_kept {s : State} : (s.stepRoutes).kept = s.kept := by simp [State.stepRoutes]

@[simp] theorem State.stepNodes_kept {s : State} : (s.stepNodes).kept = s.kept := by simp [State.stepNodes]

@[simp] theorem execAudioBlock_kept {s : State} {a1 a2 a3} : NextKept s (execAudioBlock a1 a2 a3 s) := by simp [execAudioBlock]

@[simp] theorem State.closeAudio_kept {s : State} {a1 a2} : (s.closeAudio a1 a2).kept = s.kept := by simp [State.closeAudio]

@[simp] theorem State.trimAudio_kept {s : State} {a1 a2} : (s.trimAudio a1 a2).kept = s.kept := by simp [State.trimAudio]

@[simp] theorem State.closePort_kept {s : State} {a1} : (s.closePort a1).kept = s.kept := by simp [State.closePort]

end Sys2Proof.Machine
end

section
/-! SUPPORT for O5 and O7, containment: the queue, the timebase and the binding table stay. -/

namespace Sys2Proof.Machine

@[simp] theorem State.forgetRegistrar_kept {s : State} {a1} : (s.forgetRegistrar a1).kept = s.kept := by
  simp [State.forgetRegistrar]

@[simp] theorem State.forgetWork_kept {s : State} {a1} : (s.forgetWork a1).kept = s.kept := by simp [State.forgetWork]

@[simp] theorem State.forget_kept {s : State} {a1} : (s.forget a1).kept = s.kept := by simp [State.forget]

@[simp] theorem State.endPkt_kept {s : State} {a1 a2 a3} : (s.endPkt a1 a2 a3).kept = s.kept := by simp [State.endPkt]

@[simp] theorem State.endAll_kept {s : State} {a1 a2 a3} : (s.endAll a1 a2 a3).kept = s.kept := by simp [State.endAll]

@[simp] theorem State.enterContained_kept {s : State} {a1 a2 a3} : (s.enterContained a1 a2 a3).kept = s.kept := by
  simp [State.enterContained]

@[simp] theorem State.fault1_kept {s : State} {a1 a2 a3 a4 a5 a6} : (s.fault1 a1 a2 a3 a4 a5 a6).kept = s.kept := by
  simp [State.fault1]

@[simp] theorem State.storeReply_kept {s : State} {a1 a2 a3 a4 a5 a6} : (s.storeReply a1 a2 a3 a4 a5 a6).kept = s.kept := by
  unfold State.storeReply
  split <;> simp

end Sys2Proof.Machine
end

section
/-! SUPPORT for O5 and O7, the haptic loop: the queue, the timebase and the binding table stay. -/

namespace Sys2Proof.Machine

@[simp] theorem State.hapFault_kept {s : State} {a1 a2} : (s.hapFault a1 a2).kept = s.kept := by simp [State.hapFault]

@[simp] theorem State.writeHapRecord_kept {s : State} {a1 a2} : (s.writeHapRecord a1 a2).kept = s.kept := by
  simp [State.writeHapRecord]

@[simp] theorem execCalibrationComplete_kept {s : State} {a1 a2 a3 a4 a5 a6} : NextKept s (execCalibrationComplete a1 a2 a3 a4 a5 a6 s) := by
  unfold execCalibrationComplete
  split <;> simp

@[simp] theorem State.sensorPeriod_kept {s : State} {a1 a2} : (s.sensorPeriod a1 a2).kept = s.kept := by simp [State.sensorPeriod]

@[simp] theorem State.startEffect_kept {s : State} {a1 a2} : (s.startEffect a1 a2).kept = s.kept := by
  unfold State.startEffect
  (repeat' split) <;> simp

@[simp] theorem State.brakePeriod_kept {s : State} {a1 a2 a3} : (s.brakePeriod a1 a2 a3).kept = s.kept := by
  simp [State.brakePeriod]

@[simp] theorem State.drivePeriod_kept {s : State} {a1 a2 a3} : (s.drivePeriod a1 a2 a3).kept = s.kept := by
  simp [State.drivePeriod]

@[simp] theorem execHapLoopPeriod_kept {s : State} {a1 a2} : NextKept s (execHapLoopPeriod a1 a2 s) := by
  unfold execHapLoopPeriod
  dsimp only
  (repeat' split) <;> simp

end Sys2Proof.Machine
end

section
/-! SUPPORT for O5 and O7, composing: the queue, the timebase and the binding table stay. -/

namespace Sys2Proof.Machine

@[simp] theorem State.reshow_kept {s : State} {a1 a2 a3 a4} : (s.reshow a1 a2 a3 a4).kept = s.kept := by simp [State.reshow]

@[simp] theorem State.showNow_kept {s : State} {a1 a2} : (s.showNow a1 a2).kept = s.kept := by simp [State.showNow]

@[simp] theorem State.hideLayer_kept {s : State} {a1} : (s.hideLayer a1).kept = s.kept := by simp [State.hideLayer]

@[simp] theorem State.layerUnderrun_kept {s : State} {a1 a2 a3 a4} : (s.layerUnderrun a1 a2 a3 a4).kept = s.kept := by
  simp [State.layerUnderrun]

@[simp] theorem State.layerPoison_kept {s : State} {a1 a2 a3 a4} : (s.layerPoison a1 a2 a3 a4).kept = s.kept := by
  simp [State.layerPoison]

@[simp] theorem State.noteBlock_kept {s : State} {a1 a2} : (s.noteBlock a1 a2).kept = s.kept := by simp [State.noteBlock]

@[simp] theorem State.fetchLine_kept {s : State} {a1 a2 a3 a4 a5 a6 a7 a8 a9} : (s.fetchLine a1 a2 a3 a4 a5 a6 a7 a8 a9).kept = s.kept := by
  unfold State.fetchLine
  dsimp only
  split <;> simp

@[simp] theorem State.reportFill_kept {s : State} {a1 a2 a3} : (s.reportFill a1 a2 a3).kept = s.kept := by
  unfold State.reportFill
  dsimp only
  split <;> simp

@[simp] theorem State.startBand_kept {s : State} {a1 a2 a3 a4 a5 a6} : (s.startBand a1 a2 a3 a4 a5 a6).kept = s.kept := by
  unfold State.startBand
  split <;> simp

@[simp] theorem State.putLine_kept {s : State} {a1 a2 a3 a4 a5 a6} : (s.putLine a1 a2 a3 a4 a5 a6).kept = s.kept := by
  simp [State.putLine]

@[simp] theorem State.composeLine_kept {s : State} {a1 a2} : (s.composeLine a1 a2).kept = s.kept := by simp [State.composeLine]

@[simp] theorem State.takeScene_kept {s : State} {a1} : (s.takeScene a1).kept = s.kept := by
  unfold State.takeScene
  dsimp only
  (repeat' split) <;> simp

@[simp] theorem execBndComposeLine_kept {s : State} {a1 a2} : NextKept s (execBndComposeLine a1 a2 s) := by
  simp [execBndComposeLine]

end Sys2Proof.Machine
end

section
/-! SUPPORT for O5 and O7, the latch: the queue, the timebase and the binding table stay. -/

namespace Sys2Proof.Machine

@[simp] theorem State.recharge_kept {s : State} {a1} : (s.recharge a1).kept = s.kept := by simp [State.recharge]

@[simp] theorem State.latchPlane_kept {s : State} {a1 a2} : (s.latchPlane a1 a2).kept = s.kept := by simp [State.latchPlane]

@[simp] theorem State.noteLatch_kept {s : State} {a1 a2} : (s.noteLatch a1 a2).kept = s.kept := by simp [State.noteLatch]

@[simp] theorem State.latch_kept {s : State} {a1} : (s.latch a1).kept = s.kept := by simp [State.latch]

@[simp] theorem execOutLatch_kept {s : State} {a1} : NextKept s (execOutLatch a1 s) := by
  unfold execOutLatch
  (repeat' split) <;> simp

@[simp] theorem execOutTimingStarted_kept {s : State} {a1} : NextKept s (execOutTimingStarted a1 s) := by
  unfold execOutTimingStarted
  split <;> simp

@[simp] theorem State.carryFrame_kept {s : State} {a1 a2} : (s.carryFrame a1 a2).kept = s.kept := by simp [State.carryFrame]

@[simp] theorem State.frameStart_kept {s : State} {a1} : (s.frameStart a1).kept = s.kept := by simp [State.frameStart]

@[simp] theorem execOutFrameStart_kept {s : State} {a1} : NextKept s (execOutFrameStart a1 s) := by
  unfold execOutFrameStart
  dsimp only
  (repeat' split) <;> simp

end Sys2Proof.Machine
end

section
/-! SUPPORT for O5 and O7, the Registrar: the queue, the timebase and the binding table stay. -/

namespace Sys2Proof.Machine

@[simp] theorem State.wipe_kept {s : State} {a1 a2 a3} : (s.wipe a1 a2 a3).kept = s.kept := by simp [State.wipe]

@[simp] theorem State.startMove_kept {s : State} {a1 a2 a3 a4} : (s.startMove a1 a2 a3 a4).kept = s.kept := by
  simp [State.startMove]

@[simp] theorem State.cancelMove_kept {s : State} {a1 a2} : (s.cancelMove a1 a2).kept = s.kept := by
  unfold State.cancelMove
  dsimp only
  split <;> simp

@[simp] theorem State.cancelMoves_kept {s : State} {a1 a2} : (s.cancelMoves a1 a2).kept = s.kept := by simp [State.cancelMoves]

@[simp] theorem execGranuleCopyPassDone_kept {s : State} {a1 a2} : NextKept s (execGranuleCopyPassDone a1 a2 s) := by
  unfold execGranuleCopyPassDone
  (repeat' split) <;> simp

@[simp] theorem execGranuleFlip_kept {s : State} {a1 a2} : NextKept s (execGranuleFlip a1 a2 s) := by
  unfold execGranuleFlip
  (repeat' split) <;> simp

@[simp] theorem execMoveReadDrain_kept {s : State} {a1 a2} : NextKept s (execMoveReadDrain a1 a2 s) := by simp [execMoveReadDrain]

@[simp] theorem execMoveTimeLimit_kept {s : State} {a1 a2} : NextKept s (execMoveTimeLimit a1 a2 s) := by
  unfold execMoveTimeLimit
  (repeat' split) <;> simp

@[simp] theorem execStorageDrainComplete_kept {s : State} {a1} : NextKept s (execStorageDrainComplete a1 s) := by
  simp [execStorageDrainComplete]

@[simp] theorem execPlacementEpoch_kept {s : State} : NextKept s (execPlacementEpoch s) := by
  unfold execPlacementEpoch
  split
  · simp
  · simp only [nextKept_next, kept_mk, kept_fold, State.setF_kept, foldl_kept, State.post_kept, implies_true]

@[simp] theorem execEpochDecisionsPublished_kept {s : State} {a1 a2 a3 a4} : NextKept s (execEpochDecisionsPublished a1 a2 a3 a4 s) := by
  unfold execEpochDecisionsPublished
  split
  · simp
  · rw [nextKept_next]
    split
    · refine (foldl_kept fun t x => by simp).trans ((foldl_kept fun t x => by simp).trans ((foldl_kept fun t x => ?_).trans (by simp)))
      split <;> simp
    · rfl

@[simp] theorem execEpochOverrun_kept {s : State} : NextKept s (execEpochOverrun s) := by simp [execEpochOverrun]

@[simp] theorem execXdevWaitExpiry_kept {s : State} {a1} : NextKept s (execXdevWaitExpiry a1 s) := by simp [execXdevWaitExpiry]

@[simp] theorem State.chooseDva_kept {s : State} {a1 a2 a3} : (s.chooseDva a1 a2 a3).2.kept = s.kept := by
  unfold State.chooseDva
  dsimp only
  (repeat' split) <;> simp

@[simp] theorem State.newObject_kept {s : State} {a1 a2 a3 a4 a5 a6 a7 a8 a9} : (s.newObject a1 a2 a3 a4 a5 a6 a7 a8 a9).kept = s.kept := by
  simp [State.newObject]

@[simp] theorem effShmAlloc_kept {s : State} {a1 a2} : (effShmAlloc a1 a2 s).kept = s.kept := by
  unfold effShmAlloc
  dsimp only
  split
  next h => rw [State.complete_kept, State.newObject_kept, kept_of_snd h State.chooseDva_kept]
  next => rfl

@[simp] theorem execShmAlloc_kept {s : State} {a1} : NextKept s (execShmAlloc a1 s) := by simp [execShmAlloc]

@[simp] theorem State.freeObject_kept {s : State} {a1} : (s.freeObject a1).kept = s.kept := by
  unfold State.freeObject
  split <;> simp

@[simp] theorem State.waitPeer_kept {s : State} {a1} : (s.waitPeer a1).kept = s.kept := by simp [State.waitPeer]

@[simp] theorem State.finish_kept {s : State} {a1 a2 a3 a4 a5} : (s.finish a1 a2 a3 a4 a5).kept = s.kept := by simp [State.finish]

@[simp] theorem effShmFree_kept {s : State} {a1 a2} : (effShmFree a1 a2 s).kept = s.kept := by simp [effShmFree]

@[simp] theorem execShmFree_kept {s : State} {a1} : NextKept s (execShmFree a1 s) := by simp [execShmFree]

@[simp] theorem effShmAllocSparse_kept {s : State} {a1 a2} : (effShmAllocSparse a1 a2 s).kept = s.kept := by
  unfold effShmAllocSparse
  dsimp only
  split
  next h => rw [State.complete_kept, State.newObject_kept, kept_of_snd h State.chooseDva_kept]
  next => rfl

@[simp] theorem execShmAllocSparse_kept {s : State} {a1} : NextKept s (execShmAllocSparse a1 s) := by simp [execShmAllocSparse]

@[simp] theorem effShmSetResidency_kept {s : State} {a1 a2} : (effShmSetResidency a1 a2 s).kept = s.kept := by
  unfold effShmSetResidency
  dsimp only
  (repeat' split) <;> simp

@[simp] theorem execShmSetResidency_kept {s : State} {a1} : NextKept s (execShmSetResidency a1 s) := by simp [execShmSetResidency]

@[simp] theorem State.clearOut_kept {s : State} {a1 a2 a3} : (s.clearOut a1 a2 a3).1.kept = s.kept := by
  refine foldl_kept_fst fun t x => ?_
  (repeat' split) <;> simp

@[simp] theorem State.applyHint_kept {s : State} {a1 a2} : (s.applyHint a1 a2).kept = s.kept := by simp [State.applyHint]

@[simp] theorem effShmHint_kept {s : State} {a1 a2} : (effShmHint a1 a2 s).kept = s.kept := by
  unfold effShmHint
  dsimp only
  split <;> simp

@[simp] theorem execShmHint_kept {s : State} {a1} : NextKept s (execShmHint a1 s) := by simp [execShmHint]

@[simp] theorem effShmUpload_kept {s : State} {a1 a2 a3} : (effShmUpload a1 a2 a3 s).kept = s.kept := by
  unfold effShmUpload
  dsimp only
  (repeat' split) <;> simp

@[simp] theorem execShmUpload_kept {s : State} {a1 a2} : NextKept s (execShmUpload a1 a2 s) := by simp [execShmUpload]

@[simp] theorem effShmDownload_kept {s : State} {a1 a2 a3} : (effShmDownload a1 a2 a3 s).kept = s.kept := by
  unfold effShmDownload
  dsimp only
  (repeat' split) <;> simp

@[simp] theorem execShmDownload_kept {s : State} {a1 a2} : NextKept s (execShmDownload a1 a2 s) := by simp [execShmDownload]

@[simp] theorem effShmQuery_kept {s : State} {a1 a2} : (effShmQuery a1 a2 s).kept = s.kept := by
  unfold effShmQuery
  split <;> simp

@[simp] theorem execShmQuery_kept {s : State} {a1} : NextKept s (execShmQuery a1 s) := by simp [execShmQuery]

@[simp] theorem State.putRegion_kept {s : State} {a1 a2 a3 a4 a5 a6} : (s.putRegion a1 a2 a3 a4 a5 a6).kept = s.kept := by
  simp [State.putRegion]

@[simp] theorem State.withdrawRegion_kept {s : State} {a1 a2} : (s.withdrawRegion a1 a2).kept = s.kept := by
  unfold State.withdrawRegion
  dsimp only
  split <;> simp

@[simp] theorem effMemSetRegion_kept {s : State} {a1 a2} : (effMemSetRegion a1 a2 s).kept = s.kept := by simp [effMemSetRegion]

@[simp] theorem execMemSetRegion_kept {s : State} {a1} : NextKept s (execMemSetRegion a1 s) := by simp [execMemSetRegion]

@[simp] theorem effMemSetReserve_kept {s : State} {a1 a2} : (effMemSetReserve a1 a2 s).kept = s.kept := by simp [effMemSetReserve]

@[simp] theorem execMemSetReserve_kept {s : State} {a1} : NextKept s (execMemSetReserve a1 s) := by simp [execMemSetReserve]

@[simp] theorem State.dropShadows_kept {s : State} {a1} : (s.dropShadows a1).kept = s.kept := by simp [State.dropShadows]

@[simp] theorem effMemLockBank_kept {s : State} {a1 a2} : (effMemLockBank a1 a2 s).kept = s.kept := by simp [effMemLockBank]

@[simp] theorem execMemLockBank_kept {s : State} {a1} : NextKept s (execMemLockBank a1 s) := by simp [execMemLockBank]

@[simp] theorem effMemUnlockBank_kept {s : State} {a1 a2} : (effMemUnlockBank a1 a2 s).kept = s.kept := by simp [effMemUnlockBank]

@[simp] theorem execMemUnlockBank_kept {s : State} {a1} : NextKept s (execMemUnlockBank a1 s) := by simp [execMemUnlockBank]

end Sys2Proof.Machine
end

section
/-! SUPPORT for O5 and O7, memory: the queue, the timebase and the binding table stay. -/

namespace Sys2Proof.Machine

@[simp] theorem State.settlePermit_kept {s : State} : (s.settlePermit).kept = s.kept := by simp [State.settlePermit]

@[simp] theorem State.leaveRefresh_kept {s : State} {a1 a2} : (s.leaveRefresh a1 a2).kept = s.kept := by simp [State.leaveRefresh]

@[simp] theorem State.abandonStep_kept {s : State} : (s.abandonStep).kept = s.kept := by simp [State.abandonStep]

@[simp] theorem execTolMessage_kept {s : State} {a1} : NextKept s (execTolMessage a1 s) := by simp [execTolMessage]

@[simp] theorem execTolLost_kept {s : State} {a1} : NextKept s (execTolLost a1 s) := by simp [execTolLost]

@[simp] theorem execSelfRefreshEntry_kept {s : State} {a1} : NextKept s (execSelfRefreshEntry a1 s) := by
  simp [execSelfRefreshEntry]

@[simp] theorem execSelfRefreshExit_kept {s : State} {a1 a2 a3} : NextKept s (execSelfRefreshExit a1 a2 a3 s) := by
  simp [execSelfRefreshExit]

@[simp] theorem execMr4Poll_kept {s : State} {a1 a2 a3} : NextKept s (execMr4Poll a1 a2 a3 s) := by simp [execMr4Poll]

@[simp] theorem State.setLane_kept {s : State} {a1 a2} : (s.setLane a1 a2).kept = s.kept := by simp [State.setLane]

@[simp] theorem State.endStep_kept {s : State} {a1 a2} : (s.endStep a1 a2).kept = s.kept := by simp [State.endStep]

@[simp] theorem execRetrainStep_kept {s : State} {a1 a2} : NextKept s (execRetrainStep a1 a2 s) := by simp [execRetrainStep]

@[simp] theorem execRetrainStarved_kept {s : State} {a1} : NextKept s (execRetrainStarved a1 s) := by simp [execRetrainStarved]

@[simp] theorem State.trainDram_kept {s : State} {a1 a2 a3} : (s.trainDram a1 a2 a3).kept = s.kept := by
  refine (foldl_kept fun t c => ?_).trans ?_
  · dsimp only
    split <;> simp
  · simp only [kept_mk, kept_fold, State.setF_kept]

@[simp] theorem State.beginScrub_kept {s : State} : (s.beginScrub).kept = s.kept := by simp [State.beginScrub]

@[simp] theorem execScrubPeriodEnd_kept {s : State} : NextKept s (execScrubPeriodEnd s) := by simp [execScrubPeriodEnd]

@[simp] theorem State.writeInject_kept {s : State} {a1 a2} : (s.writeInject a1 a2).kept = s.kept := by simp [State.writeInject]

@[simp] theorem execFolioInjectArm_kept {s : State} {a1 a2} : NextKept s (execFolioInjectArm a1 a2 s) := by
  simp [execFolioInjectArm]

@[simp] theorem execDramTraining_kept {s : State} {a1 a2 a3} : NextKept s (execDramTraining a1 a2 a3 s) := by
  simp [execDramTraining]

end Sys2Proof.Machine
end

section
/-! SUPPORT for O5 and O7, Render: the queue, the timebase and the binding table stay. -/

namespace Sys2Proof.Machine

@[simp] theorem State.resolveBlock_kept {s : State} {a1 a2 a3 a4 a5 a6} : (s.resolveBlock a1 a2 a3 a4 a5 a6).kept = s.kept := by
  simp [State.resolveBlock]

@[simp] theorem State.noteCode_kept {s : State} : (s.noteCode).kept = s.kept := by simp [State.noteCode]

@[simp] theorem State.evictOne_kept {s : State} {a1} : SomeKept s (s.evictOne a1) :=
  SomeKept.map fun g => by simp

@[simp] theorem State.evictFor_kept {s : State} {a1 a2 a3} : SomeKept s (State.evictFor a1 a2 a3 s) := by
  induction a3 generalizing s with
  | zero => simp [State.evictFor]
  | succ n ih =>
    unfold State.evictFor
    split
    · exact State.evictOne_kept.bind fun t => ih
    · split
      · exact State.evictOne_kept.bind fun t => ih
      · simp

@[simp] theorem State.trimCode_kept {s : State} {a1} : (State.trimCode a1 s).kept = s.kept := by
  induction a1 generalizing s with
  | zero => rfl
  | succ n ih =>
    unfold State.trimCode
    split
    · split
      next h => rw [ih, State.evictOne_kept _ h]
      next => rfl
    · rfl

@[simp] theorem State.program_kept {s : State} {a1 a2 a3} : (s.program a1 a2 a3).1.kept = s.kept := by
  unfold State.program
  dsimp only
  split
  · simp
  · split
    · simp
    · split_ifs
      · simp
      · simp
      · simp
      · split
        · simp
        next h => simp [State.evictFor_kept _ h]

@[simp] theorem effRndCompile_kept {s : State} {a1 a2} : (effRndCompile a1 a2 s).kept = s.kept := by
  unfold effRndCompile
  dsimp only
  split <;> next h => rw [State.complete_kept, kept_of_fst h State.program_kept, State.noteRead_kept]

@[simp] theorem execRndCompile_kept {s : State} {a1} : NextKept s (execRndCompile a1 s) := by simp [execRndCompile]

@[simp] theorem State.expandBlock_kept {s : State} {a1 a2 a3 a4 a5 a6 a7} : (s.expandBlock a1 a2 a3 a4 a5 a6 a7).kept = s.kept := by
  simp [State.expandBlock]

@[simp] theorem State.expandImages_kept {s : State} {a1 a2} : (s.expandImages a1 a2).kept = s.kept := by
  refine foldl_kept fun t x => ?_
  dsimp only
  split <;> simp

@[simp] theorem State.noteArena_kept {s : State} : (s.noteArena).kept = s.kept := by simp [State.noteArena]

@[simp] theorem State.noteWork_kept {s : State} : (s.noteWork).kept = s.kept := by simp [State.noteWork]

@[simp] theorem State.trimArena_kept {s : State} : (s.trimArena).kept = s.kept := by simp [State.trimArena]

@[simp] theorem State.setWork_kept {s : State} {a1 a2} : (s.setWork a1 a2).kept = s.kept := by simp [State.setWork]

@[simp] theorem State.noteCluster_kept {s : State} : (s.noteCluster).kept = s.kept := by simp [State.noteCluster]

@[simp] theorem State.beginWork_kept {s : State} {a1} : (s.beginWork a1).kept = s.kept := by
  unfold State.beginWork
  split <;> simp

@[simp] theorem State.firstChunk_kept {s : State} {a1} : (s.firstChunk a1).kept = s.kept := by
  unfold State.firstChunk
  split <;> simp

@[simp] theorem execArenaChunkFreed_kept {s : State} : NextKept s (execArenaChunkFreed s) := by simp [execArenaChunkFreed]

@[simp] theorem State.dropWork_kept {s : State} {a1} : (s.dropWork a1).kept = s.kept := by simp [State.dropWork]

@[simp] theorem State.failWork_kept {s : State} {a1 a2} : (s.failWork a1 a2).kept = s.kept := by simp [State.failWork]

@[simp] theorem State.prepare_kept {s : State} {a1 a2 a3 a4 a5} : (s.prepare a1 a2 a3 a4 a5).1.kept = s.kept := by
  induction a5 generalizing s with
  | nil => rfl
  | cons x l ih =>
    unfold State.prepare
    split
    next h => exact kept_of_fst h State.program_kept
    next h =>
      split
      · exact kept_of_fst h State.program_kept
      · split <;> next hu => exact (kept_of_fst hu ih).trans (kept_of_fst h State.program_kept)

@[simp] theorem State.addWork_kept {s : State} {a1 a2 a3 a4 a5 a6} : (s.addWork a1 a2 a3 a4 a5 a6).kept = s.kept := by
  simp [State.addWork]

@[simp] theorem effRndPass_kept {s : State} {a1 a2} : (effRndPass a1 a2 s).kept = s.kept := by
  unfold effRndPass
  dsimp only
  split
  · rfl
  · split
    · simp
    · split
      next h => rw [State.complete_kept, kept_of_fst h State.prepare_kept]
      next h =>
        split
        · rw [State.complete_kept, kept_of_fst h State.prepare_kept]
        · rw [State.firstChunk_kept, State.addWork_kept, kept_of_fst h State.prepare_kept]

@[simp] theorem execRndPass_kept {s : State} {a1} : NextKept s (execRndPass a1 s) := by simp [execRndPass]

@[simp] theorem State.applyBlocks_kept {s : State} {a1 a2 a3} : (s.applyBlocks a1 a2 a3).kept = s.kept := by
  simp [State.applyBlocks]

@[simp] theorem execPartialRender_kept {s : State} {a1 a2 a3} : NextKept s (execPartialRender a1 a2 a3 s) := by
  unfold execPartialRender
  (repeat' split) <;> simp

@[simp] theorem State.feedbackBit_kept {s : State} {a1} : (s.feedbackBit a1).kept = s.kept := by
  unfold State.feedbackBit
  (repeat' split) <;> simp

@[simp] theorem State.bvhReport_kept {s : State} {a1 a2} : (s.bvhReport a1 a2).kept = s.kept := by
  refine foldl_kept_fst (p := (s, [])) fun t v => ?_
  dsimp only
  (repeat' split) <;> simp

@[simp] theorem State.noteUnits_kept {s : State} {a1 a2} : (s.noteUnits a1 a2).kept = s.kept := by
  unfold State.noteUnits
  split <;> simp

@[simp] theorem execPassComplete_kept {s : State} {a1 a2 a3} : NextKept s (execPassComplete a1 a2 a3 s) := by
  unfold execPassComplete
  dsimp only
  (repeat' split) <;> simp

@[simp] theorem effRndDispatch_kept {s : State} {a1 a2} : (effRndDispatch a1 a2 s).kept = s.kept := by
  unfold effRndDispatch
  dsimp only
  split
  · rfl
  · split
    next h => rw [State.complete_kept, kept_of_fst h State.prepare_kept]
    next h => rw [State.beginWork_kept, State.addWork_kept, kept_of_fst h State.prepare_kept]

@[simp] theorem execRndDispatch_kept {s : State} {a1} : NextKept s (execRndDispatch a1 s) := by simp [execRndDispatch]

@[simp] theorem execDispatchComplete_kept {s : State} {a1 a2} : NextKept s (execDispatchComplete a1 a2 s) := by
  unfold execDispatchComplete
  (repeat' split) <;> simp

@[simp] theorem effRndSetArena_kept {s : State} {a1 a2} : (effRndSetArena a1 a2 s).kept = s.kept := by simp [effRndSetArena]

@[simp] theorem execRndSetArena_kept {s : State} {a1} : NextKept s (execRndSetArena a1 s) := by simp [execRndSetArena]

@[simp] theorem execTileWatchdog_kept {s : State} {a1 a2} : NextKept s (execTileWatchdog a1 a2 s) := by
  unfold execTileWatchdog
  (repeat' split) <;> simp

@[simp] theorem execClusterStallTimeout_kept {s : State} {a1} : NextKept s (execClusterStallTimeout a1 s) := by
  unfold execClusterStallTimeout
  (repeat' split) <;> simp

@[simp] theorem execRemoteSegmentLost_kept {s : State} {a1 a2} : NextKept s (execRemoteSegmentLost a1 a2 s) := by
  unfold execRemoteSegmentLost
  (repeat' split) <;> simp

end Sys2Proof.Machine
end

section
/-! SUPPORT for O5 and O7, Escapement: the queue, the timebase and the binding table stay. -/

namespace Sys2Proof.Machine

@[simp] theorem State.setTarget_kept {s : State} {a1 a2} : (s.setTarget a1 a2).kept = s.kept := by simp [State.setTarget]

@[simp] theorem State.endRound_kept {s : State} {a1} : (s.endRound a1).kept = s.kept := by simp [State.endRound]

@[simp] theorem execEscRoundEnd_kept {s : State} {a1} : NextKept s (execEscRoundEnd a1 s) := by simp [execEscRoundEnd]

@[simp] theorem State.accessFault_kept {s : State} {a1 a2 a3} : (s.accessFault a1 a2 a3).kept = s.kept := by
  unfold State.accessFault
  split <;> simp

@[simp] theorem State.readBeat_kept {s : State} {a1} : (s.readBeat a1).kept = s.kept := by
  unfold State.readBeat
  dsimp only
  (repeat' split) <;> simp

@[simp] theorem State.writeBeat_kept {s : State} {a1 a2} : (s.writeBeat a1 a2).kept = s.kept := by simp [State.writeBeat]

@[simp] theorem State.access_kept {s : State} {a1} : (s.access a1).kept = s.kept := by
  unfold State.access
  (repeat' split) <;> simp

@[simp] theorem State.noteGrant_kept {s : State} {a1 a2 a3 a4} : (s.noteGrant a1 a2 a3 a4).kept = s.kept := by
  simp [State.noteGrant]

@[simp] theorem execEscGrant_kept {s : State} {a1 a2} : NextKept s (execEscGrant a1 a2 s) := by
  unfold execEscGrant
  dsimp only
  (repeat' split) <;> simp

end Sys2Proof.Machine
end

section
/-! SUPPORT for O5 and O7, the fabric: the queue, the timebase and the binding table stay. -/

namespace Sys2Proof.Machine

@[simp] theorem State.startChange_kept {s : State} : (s.startChange).kept = s.kept := by simp [State.startChange]

@[simp] theorem State.linkChange_kept {s : State} {a1 a2 a3 a4} : (s.linkChange a1 a2 a3 a4).kept = s.kept := by
  unfold State.linkChange
  simp only [State.startChange_kept, State.postMgr_kept, kept_mk, kept_fold, State.setReg_kept]

@[simp] theorem execFabLinkUp_kept {s : State} {a1 a2 a3} : NextKept s (execFabLinkUp a1 a2 a3 s) := by simp [execFabLinkUp]

@[simp] theorem State.downLink_kept {s : State} {a1 a2} : (s.downLink a1 a2).kept = s.kept := by simp [State.downLink]

@[simp] theorem execFabLinkLoss_kept {s : State} {a1} : NextKept s (execFabLinkLoss a1 s) := by simp [execFabLinkLoss]

@[simp] theorem State.downAllLinks_kept {s : State} : (s.downAllLinks).kept = s.kept := by simp [State.downAllLinks]

@[simp] theorem State.writeFabCtrl_kept {s : State} {a1 a2} : (s.writeFabCtrl a1 a2).kept = s.kept := by simp [State.writeFabCtrl]

@[simp] theorem execFlitResend_kept {s : State} {a1 a2} : NextKept s (execFlitResend a1 a2 s) := by simp [execFlitResend]

@[simp] theorem execFlitDiscovery_kept {s : State} {a1 a2} : NextKept s (execFlitDiscovery a1 a2 s) := by simp [execFlitDiscovery]

@[simp] theorem State.flushFabric_kept {s : State} : (s.flushFabric).kept = s.kept := by simp [State.flushFabric]

@[simp] theorem State.dropUnreachable_kept {s : State} : (s.dropUnreachable).kept = s.kept := by simp [State.dropUnreachable]

@[simp] theorem State.installMap_kept {s : State} {a1 a2} : (s.installMap a1 a2).kept = s.kept := by simp [State.installMap]

@[simp] theorem State.showLink_kept {s : State} {a1 a2} : (s.showLink a1 a2).kept = s.kept := by simp [State.showLink]

@[simp] theorem State.tellMap_kept {s : State} {a1 a2 a3} : (s.tellMap a1 a2 a3).kept = s.kept := by simp [State.tellMap]

@[simp] theorem State.endRoleWaits_kept {s : State} {a1} : (s.endRoleWaits a1).kept = s.kept := by simp [State.endRoleWaits]

@[simp] theorem State.endWakeWaits_kept {s : State} : (s.endWakeWaits).kept = s.kept := by simp [State.endWakeWaits]

@[simp] theorem State.converge_kept {s : State} {a1 a2} : (s.converge a1 a2).kept = s.kept := by simp [State.converge]

@[simp] theorem execFabricConverged_kept {s : State} : NextKept s (execFabricConverged s) := by simp [execFabricConverged]

@[simp] theorem State.sendFlit_kept {s : State} {a1 a2} : (s.sendFlit a1 a2).kept = s.kept := by simp [State.sendFlit]

@[simp] theorem State.takeFlit_kept {s : State} {a1 a2 a3 f} (hf : ∀ p t, (f p t).kept = t.kept) : (s.takeFlit a1 a2 a3 f).kept = s.kept := by
  simp [State.takeFlit, hf]

@[simp] theorem State.dataFlits_kept {s : State} {a1 a2 a3 a4} : (s.dataFlits a1 a2 a3 a4).kept = s.kept := by
  induction a2 generalizing s a3 a4 with
  | zero => rfl
  | succ k ih =>
    cases a4 with
    | zero => rfl
    | succ n =>
      exact ih.trans (State.sendFlit_kept.trans State.noteRead_kept)

@[simp] theorem execFlitObjectRead_kept {s : State} {a1 a2} : NextKept s (execFlitObjectRead a1 a2 s) := by
  unfold execFlitObjectRead
  split
  · simp
  · refine nextKept_next.2 (State.takeFlit_kept fun f t => ?_)
    split <;> simp

@[simp] theorem State.setMirror_kept {s : State} {a1} : (s.setMirror a1).kept = s.kept := by simp [State.setMirror]

@[simp] theorem execFlitObjectData_kept {s : State} {a1 a2} : NextKept s (execFlitObjectData a1 a2 s) := by
  unfold execFlitObjectData
  split
  · simp
  · refine nextKept_next.2 (State.takeFlit_kept fun f t => ?_)
    dsimp only
    (repeat' split) <;> simp

@[simp] theorem execFlitObjectWrite_kept {s : State} {a1 a2} : NextKept s (execFlitObjectWrite a1 a2 s) := by
  unfold execFlitObjectWrite
  split
  · simp
  · refine nextKept_next.2 (State.takeFlit_kept fun f t => ?_)
    dsimp only
    (repeat' split) <;> simp

@[simp] theorem execFlitWriteAck_kept {s : State} {a1 a2} : NextKept s (execFlitWriteAck a1 a2 s) := by simp [execFlitWriteAck]

@[simp] theorem State.setCalendar_kept {s : State} {a1 a2} : (s.setCalendar a1 a2).kept = s.kept := by simp [State.setCalendar]

@[simp] theorem execFlitTime_kept {s : State} {a1 a2} : NextKept s (execFlitTime a1 a2 s) := by
  unfold execFlitTime
  dsimp only
  (repeat' split) <;> simp

@[simp] theorem execFabricTimeHold_kept {s : State} : NextKept s (execFabricTimeHold s) := by simp [execFabricTimeHold]

@[simp] theorem effFabSetRole_kept {s : State} {a1 a2} : (effFabSetRole a1 a2 s).kept = s.kept := by simp [effFabSetRole]

@[simp] theorem execFabSetRole_kept {s : State} {a1} : NextKept s (execFabSetRole a1 s) := by simp [execFabSetRole]

@[simp] theorem effFabSetRelay_kept {s : State} {a1 a2} : (effFabSetRelay a1 a2 s).kept = s.kept := by simp [effFabSetRelay]

@[simp] theorem execFabSetRelay_kept {s : State} {a1} : NextKept s (execFabSetRelay a1 s) := by simp [execFabSetRelay]

@[simp] theorem State.writeRelayHead_kept {s : State} {a1 a2} : (s.writeRelayHead a1 a2).kept = s.kept := by
  simp [State.writeRelayHead]

@[simp] theorem execFlitMgmtReply_kept {s : State} {a1 a2 a3 a4 a5} : NextKept s (execFlitMgmtReply a1 a2 a3 a4 a5 s) := by
  unfold execFlitMgmtReply
  (repeat' split) <;> simp

@[simp] theorem effFabWake_kept {s : State} {a1 a2} : (effFabWake a1 a2 s).kept = s.kept := by
  unfold effFabWake
  dsimp only
  (repeat' split) <;> simp

@[simp] theorem execFabWake_kept {s : State} {a1} : NextKept s (execFabWake a1 s) := by simp [execFabWake]

@[simp] theorem effFabQuery_kept {s : State} {a1 a2} : (effFabQuery a1 a2 s).kept = s.kept := by simp [effFabQuery]

@[simp] theorem execFabQuery_kept {s : State} {a1} : NextKept s (execFabQuery a1 s) := by simp [execFabQuery]

end Sys2Proof.Machine
end

section
/-! SUPPORT for O5 and O7, power: the queue, the timebase and the binding table stay. -/

namespace Sys2Proof.Machine

@[simp] theorem State.setMotion_kept {s : State} {a1 a2} : (s.setMotion a1 a2).kept = s.kept := by simp [State.setMotion]

@[simp] theorem State.setPlls_kept {s : State} {a1 a2} : (s.setPlls a1 a2).kept = s.kept := by simp [State.setPlls]

@[simp] theorem State.moveDomain_kept {s : State} {a1 a2} : (s.moveDomain a1 a2).kept = s.kept := by
  unfold State.moveDomain
  split <;> simp

@[simp] theorem State.replyWithdrawn_kept {s : State} {a1 a2} : (s.replyWithdrawn a1 a2).kept = s.kept := by
  simp [State.replyWithdrawn]

@[simp] theorem State.answerVotes_kept {s : State} : (s.answerVotes).kept = s.kept := by simp [State.answerVotes]

@[simp] theorem State.settlePower_kept {s : State} : (s.settlePower).kept = s.kept := by simp [State.settlePower]

@[simp] theorem State.putVotes_kept {s : State} {a1 a2} : (s.putVotes a1 a2).kept = s.kept := by simp [State.putVotes]

@[simp] theorem State.withdrawVotes_kept {s : State} {a1 a2} : (s.withdrawVotes a1 a2).kept = s.kept := by
  simp [State.withdrawVotes]

@[simp] theorem State.strgVote_kept {s : State} : (s.strgVote).kept = s.kept := by simp [State.strgVote]

@[simp] theorem State.wakeChannels_kept {s : State} {a1} : (s.wakeChannels a1).kept = s.kept := by simp [State.wakeChannels]

@[simp] theorem State.onRise_kept {s : State} {a1} : (s.onRise a1).kept = s.kept := by simp [State.onRise]

@[simp] theorem State.dropOutputs_kept {s : State} {a1} : (s.dropOutputs a1).kept = s.kept := by simp [State.dropOutputs]

@[simp] theorem State.noteTemps_kept {s : State} : (s.noteTemps).kept = s.kept := by
  unfold State.noteTemps
  dsimp only
  split <;> simp

@[simp] theorem State.onDrop_kept {s : State} {a1} : (s.onDrop a1).kept = s.kept := by simp [State.onDrop]

@[simp] theorem execDomainDrop_kept {s : State} {a1} : NextKept s (execDomainDrop a1 s) := by
  unfold execDomainDrop
  (repeat' split) <;> simp

@[simp] theorem State.atState_kept {s : State} {a1} : (s.atState a1).kept = s.kept := by simp [State.atState]

@[simp] theorem State.failVotes_kept {s : State} {a1} : (s.failVotes a1).kept = s.kept := by simp [State.failVotes]

@[simp] theorem State.failChannels_kept {s : State} {a1} : (s.failChannels a1).kept = s.kept := by simp [State.failChannels]

@[simp] theorem execDomainStepReady_kept {s : State} {a1} : NextKept s (execDomainStepReady a1 s) := by
  unfold execDomainStepReady
  (repeat' split) <;> simp

@[simp] theorem State.beginWake_kept {s : State} {a1} : (s.beginWake a1).kept = s.kept := by
  unfold State.beginWake
  (repeat' split) <;> simp

@[simp] theorem State.writePcuWake_kept {s : State} {a1 a2} : (s.writePcuWake a1 a2).kept = s.kept := by simp [State.writePcuWake]

@[simp] theorem execPcuWake_kept {s : State} {a1 a2} : NextKept s (execPcuWake a1 a2 s) := by simp [execPcuWake]

@[simp] theorem execManagementWake_kept {s : State} {a1} : NextKept s (execManagementWake a1 s) := by simp [execManagementWake]

@[simp] theorem execDormantWriteDrop_kept {s : State} {a1 a2} : NextKept s (execDormantWriteDrop a1 a2 s) := by
  simp [execDormantWriteDrop]

@[simp] theorem State.tellWoken_kept {s : State} {a1 a2} : (s.tellWoken a1 a2).kept = s.kept := by simp [State.tellWoken]

@[simp] theorem execWakeFromDormant_kept {s : State} : NextKept s (execWakeFromDormant s) := by simp [execWakeFromDormant]

@[simp] theorem execWakeFromHairspring_kept {s : State} : NextKept s (execWakeFromHairspring s) := by
  simp [execWakeFromHairspring]

@[simp] theorem effPwrVote_kept {s : State} {a1 a2} : (effPwrVote a1 a2 s).kept = s.kept := by simp [effPwrVote]

@[simp] theorem execPwrVote_kept {s : State} {a1} : NextKept s (execPwrVote a1 s) := by simp [execPwrVote]

@[simp] theorem effPwrClearFail_kept {s : State} {a1 a2} : (effPwrClearFail a1 a2 s).kept = s.kept := by simp [effPwrClearFail]

@[simp] theorem execPwrClearFail_kept {s : State} {a1} : NextKept s (execPwrClearFail a1 s) := by simp [execPwrClearFail]

@[simp] theorem effPwrMemIdlePermit_kept {s : State} {a1 a2} : (effPwrMemIdlePermit a1 a2 s).kept = s.kept := by
  simp [effPwrMemIdlePermit]

@[simp] theorem execPwrMemIdlePermit_kept {s : State} {a1} : NextKept s (execPwrMemIdlePermit a1 s) := by
  simp [execPwrMemIdlePermit]

@[simp] theorem effPwrSetState_kept {s : State} {a1 a2} : (effPwrSetState a1 a2 s).kept = s.kept := by simp [effPwrSetState]

@[simp] theorem execPwrSetState_kept {s : State} {a1} : NextKept s (execPwrSetState a1 s) := by simp [execPwrSetState]

@[simp] theorem execDrainComplete_kept {s : State} : NextKept s (execDrainComplete s) := by
  unfold execDrainComplete
  (repeat' split) <;> simp

@[simp] theorem State.sleepChannels_kept {s : State} : (s.sleepChannels).kept = s.kept := by simp [State.sleepChannels]

@[simp] theorem State.retainAll_kept {s : State} : (s.retainAll).kept = s.kept := by simp [State.retainAll]

@[simp] theorem State.tellXtal_kept {s : State} : (s.tellXtal).kept = s.kept := by simp [State.tellXtal]

@[simp] theorem execXtal32Qualified_kept {s : State} : NextKept s (execXtal32Qualified s) := by simp [execXtal32Qualified]

@[simp] theorem execXtal32QualifyTimeout_kept {s : State} : NextKept s (execXtal32QualifyTimeout s) := by
  simp [execXtal32QualifyTimeout]

end Sys2Proof.Machine
end

section
/-! SUPPORT for O5 and O7, hand-overs: the queue, the timebase and the binding table stay. -/

namespace Sys2Proof.Machine

@[simp] theorem effStrgHandover_kept {s : State} {a1 a2} : (effStrgHandover a1 a2 s).kept = s.kept := by simp [effStrgHandover]

@[simp] theorem execStrgHandover_kept {s : State} {a1} : NextKept s (execStrgHandover a1 s) := by simp [execStrgHandover]

@[simp] theorem State.resetRegs_kept {s : State} {a1} : (s.resetRegs a1).kept = s.kept := by simp [State.resetRegs]

@[simp] theorem State.resetUnit_kept {s : State} {a1 a2} : (s.resetUnit a1 a2).kept = s.kept := by simp [State.resetUnit]

@[simp] theorem State.markWorld_kept {s : State} {a1 a2 a3} : (s.markWorld a1 a2 a3).kept = s.kept := by simp [State.markWorld]

@[simp] theorem State.showUnit_kept {s : State} {a1 a2} : (s.showUnit a1 a2).kept = s.kept := by simp [State.showUnit]

@[simp] theorem execHandoverQuiesced_kept {s : State} : NextKept s (execHandoverQuiesced s) := by
  unfold execHandoverQuiesced
  split
  · simp
  · rw [nextKept_next]
    split
    · split
      · rfl
      · simp only [State.postMgr_kept, State.complete_kept, foldl_kept, State.capChanged_kept, implies_true, State.strgVote_kept,
          State.showUnit_kept, State.markWorld_kept, kept_mk, kept_fold, State.resetUnit_kept]
    · rfl

@[simp] theorem strgRequest_kept {op pk} {s u : State} (e : strgRequest op pk s = some (.next u)) : u.kept = s.kept := by
  unfold strgRequest at e
  split_ifs at e <;> injection e with e
  · exact execStrgGetInfo_kept u e
  · exact execStrgSetTelltale_kept u e
  · exact execStrgChime_kept u e
  · exact execStrgHandover_kept u e
  · exact execStrgKeyLoad_kept u e
  · exact execStrgPermitTiming_kept u e

@[simp] theorem execStrgReqDoorbell_kept {s : State} {a1} : NextKept s (execStrgReqDoorbell a1 s) := by
  refine nextKept_next.2 (State.regWrite_kept fun t => ?_)
  split
  · simp
  · dsimp only
    split
    next h => exact (strgRequest_kept h).trans State.setF_kept
    next => exact State.windowReply_kept.trans State.setF_kept

end Sys2Proof.Machine
end

section
/-! SUPPORT for O5 and O7, the Ledger: the queue, the timebase and the binding table stay. -/

namespace Sys2Proof.Machine

@[simp] theorem State.tellLedger_kept {s : State} : (s.tellLedger).kept = s.kept := by simp [State.tellLedger]

@[simp] theorem State.ledgerEvent_kept {s : State} {a1 a2 a3} : (s.ledgerEvent a1 a2 a3).kept = s.kept := by
  simp [State.ledgerEvent]

@[simp] theorem State.writeCounters_kept {s : State} {a1} : (s.writeCounters a1).kept = s.kept := by simp [State.writeCounters]

@[simp] theorem State.writeHeldErrors_kept {s : State} {a1} : (s.writeHeldErrors a1).kept = s.kept := by
  simp [State.writeHeldErrors]

@[simp] theorem State.writeWearMap_kept {s : State} {a1} : (s.writeWearMap a1).kept = s.kept := by simp [State.writeWearMap]

@[simp] theorem State.writeWearAcc_kept {s : State} {a1} : (s.writeWearAcc a1).kept = s.kept := by simp [State.writeWearAcc]

@[simp] theorem State.writeRetrain_kept {s : State} {a1} : (s.writeRetrain a1).kept = s.kept := by simp [State.writeRetrain]

@[simp] theorem State.ledgerUpdate_kept {s : State} : (s.ledgerUpdate).kept = s.kept := by simp [State.ledgerUpdate]

@[simp] theorem execLedgerPeriodicUpdate_kept {s : State} : NextKept s (execLedgerPeriodicUpdate s) := by
  simp [execLedgerPeriodicUpdate]

@[simp] theorem execWearSaveBufferAdd_kept {s : State} : NextKept s (execWearSaveBufferAdd s) := by simp [execWearSaveBufferAdd]

@[simp] theorem execRetrainHourRecord_kept {s : State} : NextKept s (execRetrainHourRecord s) := by simp [execRetrainHourRecord]

@[simp] theorem execVsaveArmed_kept {s : State} {a1} : NextKept s (execVsaveArmed a1 s) := by
  unfold execVsaveArmed
  split <;> simp

@[simp] theorem execVsaveArmTimeout_kept {s : State} : NextKept s (execVsaveArmTimeout s) := by simp [execVsaveArmTimeout]

@[simp] theorem execSagDetected_kept {s : State} {a1 a2 a3} : NextKept s (execSagDetected a1 a2 a3 s) := by simp [execSagDetected]

@[simp] theorem execVddaoRecovered_kept {s : State} : NextKept s (execVddaoRecovered s) := by simp [execVddaoRecovered]

@[simp] theorem effLedgRead_kept {s : State} {a1 a2} : (effLedgRead a1 a2 s).kept = s.kept := by simp [effLedgRead]

@[simp] theorem execLedgRead_kept {s : State} {a1} : NextKept s (execLedgRead a1 s) := by simp [execLedgRead]

@[simp] theorem effLedgSetCalendar_kept {s : State} {a1 a2} : (effLedgSetCalendar a1 a2 s).kept = s.kept := by
  unfold effLedgSetCalendar
  rw [State.complete_kept, kept_ite, State.emit_kept, ite_self, State.setCalendar_kept]

@[simp] theorem execLedgSetCalendar_kept {s : State} {a1} : NextKept s (execLedgSetCalendar a1 s) := by simp [execLedgSetCalendar]

@[simp] theorem effLedgFlush_kept {s : State} {a1 a2} : (effLedgFlush a1 a2 s).kept = s.kept := by simp [effLedgFlush]

@[simp] theorem execLedgFlush_kept {s : State} {a1} : NextKept s (execLedgFlush a1 s) := by simp [execLedgFlush]

@[simp] theorem effLedgGetCalendar_kept {s : State} {a1 a2} : (effLedgGetCalendar a1 a2 s).kept = s.kept := by
  simp [effLedgGetCalendar]

@[simp] theorem execLedgGetCalendar_kept {s : State} {a1} : NextKept s (execLedgGetCalendar a1 s) := by simp [execLedgGetCalendar]

end Sys2Proof.Machine
end

section
/-! SUPPORT for O5 and O7, reclaiming: the queue, the timebase and the binding table stay. -/

namespace Sys2Proof.Machine

@[simp] theorem State.endResize_kept {s : State} {a1 a2 a3} : (s.endResize a1 a2 a3).kept = s.kept := by
  unfold State.endResize
  split <;> simp

@[simp] theorem State.settleResizes_kept {s : State} : (s.settleResizes).kept = s.kept := by simp [State.settleResizes]

@[simp] theorem State.hideObject_kept {s : State} {a1 a2} : (s.hideObject a1 a2).kept = s.kept := by simp [State.hideObject]

@[simp] theorem State.removeLayer_kept {s : State} {a1} : (s.removeLayer a1).kept = s.kept := by
  unfold State.removeLayer
  dsimp only
  split <;> simp

@[simp] theorem Taken.take_kept {t : Taken} {n field unit g : Nat} {f : State → State} (hf : ∀ s, (f s).kept = s.kept) :
    (t.take n field unit g f).state.kept = t.state.kept :=
  State.post_kept.trans (hf _)

@[simp] theorem Taken.takeObject_kept {t : Taken} {n field i : Nat} : (t.takeObject n field i).state.kept = t.state.kept := by
  unfold Taken.takeObject
  split
  · exact Taken.take_kept fun s => by simp
  · rfl

@[simp] theorem taken_foldl_kept {α : Type} {f : Taken → α → Taken} {l : List α} {t : Taken} (hf : ∀ t x, (f t x).state.kept = t.state.kept) :
    (l.foldl f t).state.kept = t.state.kept := by
  induction l generalizing t with
  | nil => rfl
  | cons x l ih => rw [List.foldl_cons, ih, hf]

@[simp] theorem takeMemory_kept {n k : Nat} {t : Taken} : (takeMemory n k t).state.kept = t.state.kept := by
  induction k generalizing t with
  | zero => rfl
  | succ k ih =>
    unfold takeMemory
    (repeat' split) <;> simp [ih]

@[simp] theorem takeLayers_kept {n field k : Nat} {units : Layer → List Nat} {t : Taken} :
    (takeLayers n field units k t).state.kept = t.state.kept := by
  induction k generalizing t with
  | zero => rfl
  | succ k ih =>
    unfold takeLayers
    dsimp only
    generalize (if field = 11 then _ else _ : Nat) = limit
    split
    · rfl
    · split
      · exact ih.trans ((taken_foldl_kept fun t x => Taken.take_kept fun s => rfl).trans State.removeLayer_kept)
      · rfl

@[simp] theorem State.reclaim_kept {s : State} {n : Nat} : (s.reclaim n).state.kept = s.kept := by
  refine (taken_foldl_kept fun t x => ?_).trans ((taken_foldl_kept fun t x => ?_).trans ((taken_foldl_kept fun t x => ?_).trans
    ((taken_foldl_kept fun t x => ?_).trans ((taken_foldl_kept fun t x => ?_).trans (State.trimAudio_kept.trans
      (takeLayers_kept.trans (takeLayers_kept.trans ((taken_foldl_kept fun t x => ?_).trans ((taken_foldl_kept fun t x => ?_).trans
        takeMemory_kept)))))))))
  · split
    · rfl
    · exact Taken.take_kept fun s => by simp
  · split
    · rfl
    · exact Taken.take_kept fun s => by simp
  · split
    · rfl
    · exact Taken.take_kept fun s => rfl
  · exact Taken.take_kept fun s => rfl
  · exact Taken.take_kept fun s => rfl
  · exact Taken.take_kept fun s => by simp
  · exact Taken.takeObject_kept

@[simp] theorem execResizeGraceEnd_kept {s : State} {a1} : NextKept s (execResizeGraceEnd a1 s) := by simp [execResizeGraceEnd]

end Sys2Proof.Machine
end

section
/-! SUPPORT for O5 and O7, images of instances: the queue, the timebase and the binding table stay. -/

namespace Sys2Proof.Machine

@[simp] theorem State.loadObject_kept {s : State} {a1 a2 a3 a4} : SomeKept s (s.loadObject a1 a2 a3 a4) :=
  SomeKept.map fun runs => (foldl_kept fun t c => by simp).trans (by simp only [kept_mk, kept_fold, State.setShelf_kept, State.wipe_kept])

@[simp] theorem State.loadObjects_kept {s : State} {a1 a2 a3} : SomeKept s (State.loadObjects a1 a2 a3 s) := by
  induction a3 generalizing s with
  | nil => simp [State.loadObjects]
  | cons d r ih =>
    unfold State.loadObjects
    split
    next h => exact ih.trans (State.loadObject_kept _ h)
    next => simp

@[simp] theorem State.loadRings_kept {s : State} {a1 a2} : (s.loadRings a1 a2).kept = s.kept := by simp [State.loadRings]

@[simp] theorem State.loadLayers_kept {s : State} {a1 a2} : (s.loadLayers a1 a2).kept = s.kept := by simp [State.loadLayers]

@[simp] theorem State.loadCollation_kept {s : State} {a1 a2} : (s.loadCollation a1 a2).kept = s.kept := by
  simp [State.loadCollation]

@[simp] theorem State.loadAudio_kept {s : State} {a1 a2} : (s.loadAudio a1 a2).kept = s.kept := by simp [State.loadAudio]

@[simp] theorem State.loadTouch_kept {s : State} {a1 a2} : (s.loadTouch a1 a2).kept = s.kept := by simp [State.loadTouch]

@[simp] theorem State.loadCounters_kept {s : State} {a1 a2} : (s.loadCounters a1 a2).kept = s.kept := by
  refine (foldl_kept fun t r => by simp).trans (kept_mk.trans (kept_fold.trans (foldl_kept fun t x => ?_)))
  split <;> simp

@[simp] theorem State.loadTimings_kept {s : State} {a1} : (s.loadTimings a1).2.kept = s.kept := by simp [State.loadTimings]

@[simp] theorem State.loadRest_kept {s : State} {a1 a2} : (s.loadRest a1 a2).kept = s.kept := by simp [State.loadRest]

end Sys2Proof.Machine
end

section
/-! SUPPORT for O5 and O7, instances: the queue, the timebase and the binding table stay. -/

namespace Sys2Proof.Machine

@[simp] theorem State.resetRings_kept {s : State} {a1} : (s.resetRings a1).kept = s.kept := by simp [State.resetRings]

@[simp] theorem State.tellOwners_kept {s : State} {a1} : (s.tellOwners a1).kept = s.kept := by simp [State.tellOwners]

@[simp] theorem effInstCreate_kept {s : State} {a1 a2} : (effInstCreate a1 a2 s).kept = s.kept := by simp [effInstCreate]

@[simp] theorem execInstCreate_kept {s : State} {a1} : NextKept s (execInstCreate a1 s) := by simp [execInstCreate]

@[simp] theorem State.orphan_kept {s : State} {a1} : (s.orphan a1).kept = s.kept := by simp [State.orphan]

@[simp] theorem State.loseRings_kept {s : State} {a1 a2} : (s.loseRings a1 a2).kept = s.kept := by simp [State.loseRings]

@[simp] theorem State.endMigrations_kept {s : State} {a1} : (s.endMigrations a1).kept = s.kept := by simp [State.endMigrations]

@[simp] theorem State.clearInst_kept {s : State} {a1 a2} : (s.clearInst a1 a2).kept = s.kept := by simp [State.clearInst]

@[simp] theorem State.resetInst_kept {s : State} {a1} : (s.resetInst a1).kept = s.kept := by simp [State.resetInst]

@[simp] theorem State.resetBound_kept {s : State} {a1} : (s.resetBound a1).kept = s.kept := by
  unfold State.resetBound
  split <;> simp

@[simp] theorem execFunctionLevelReset_kept {s : State} {a1 a2} : NextKept s (execFunctionLevelReset a1 a2 s) := by
  unfold execFunctionLevelReset
  split <;> simp

@[simp] theorem effInstDestroy_kept {s : State} {a1 a2} : (effInstDestroy a1 a2 s).kept = s.kept := by simp [effInstDestroy]

@[simp] theorem execInstDestroy_kept {s : State} {a1} : NextKept s (execInstDestroy a1 s) := by simp [execInstDestroy]

@[simp] theorem execDestroyComplete_kept {s : State} {a1} : NextKept s (execDestroyComplete a1 s) := by
  unfold execDestroyComplete
  (repeat' split) <;> simp

@[simp] theorem State.lowerC1_kept {s : State} {a1} : (s.lowerC1 a1).kept = s.kept := by simp [State.lowerC1]

@[simp] theorem State.setGrant_kept {s : State} {a1 a2 a3 a4} : (s.setGrant a1 a2 a3 a4).kept = s.kept := by simp [State.setGrant]

@[simp] theorem effInstResize_kept {s : State} {a1 a2} : (effInstResize a1 a2 s).kept = s.kept := by simp [effInstResize]

@[simp] theorem execInstResize_kept {s : State} {a1} : NextKept s (execInstResize a1 s) := by simp [execInstResize]

@[simp] theorem State.withdraw_kept {s : State} {a1} : (s.withdraw a1).kept = s.kept := by simp [State.withdraw]

@[simp] theorem effInstFreeze_kept {s : State} {a1 a2} : (effInstFreeze a1 a2 s).kept = s.kept := by simp [effInstFreeze]

@[simp] theorem execInstFreeze_kept {s : State} {a1} : NextKept s (execInstFreeze a1 s) := by simp [execInstFreeze]

@[simp] theorem execFreezeComplete_kept {s : State} {a1} : NextKept s (execFreezeComplete a1 s) := by
  unfold execFreezeComplete
  (repeat' split) <;> simp

@[simp] theorem effInstThaw_kept {s : State} {a1 a2} : (effInstThaw a1 a2 s).kept = s.kept := by
  unfold effInstThaw
  dsimp only
  (repeat' split) <;> simp

@[simp] theorem execInstThaw_kept {s : State} {a1} : NextKept s (execInstThaw a1 s) := by simp [execInstThaw]

@[simp] theorem effInstSave_kept {s : State} {a1 a2} : (effInstSave a1 a2 s).kept = s.kept := by
  unfold effInstSave
  dsimp only
  (repeat' split) <;> simp

@[simp] theorem execInstSave_kept {s : State} {a1} : NextKept s (execInstSave a1 s) := by simp [execInstSave]

@[simp] theorem State.endRestore_kept {s : State} : (s.endRestore).kept = s.kept := by
  unfold State.endRestore
  split <;> simp

@[simp] theorem effInstRestore_kept {s : State} {a1 a2 a3} : (effInstRestore a1 a2 a3 s).kept = s.kept := by
  unfold effInstRestore
  dsimp only
  split
  · rfl
  · split
    · rfl
    next h => simp only [State.endRestore_kept, kept_mk, kept_fold, State.loadTimings_kept, State.loadRest_kept, State.commit_kept,
        State.loadObjects_kept _ h]

@[simp] theorem execInstRestore_kept {s : State} {a1 a2} : NextKept s (execInstRestore a1 a2 s) := by simp [execInstRestore]

@[simp] theorem State.ringMbox_kept {s : State} {a1 a2} : (s.ringMbox a1 a2).kept = s.kept := by simp [State.ringMbox]

@[simp] theorem execDoorbellMbox_kept {s : State} {a1 a2} : NextKept s (execDoorbellMbox a1 a2 s) := by simp [execDoorbellMbox]

@[simp] theorem State.clearFull_kept {s : State} {a1 a2} : (s.clearFull a1 a2).kept = s.kept := by simp [State.clearFull]

@[simp] theorem execMboxFullClear_kept {s : State} {a1 a2} : NextKept s (execMboxFullClear a1 a2 s) := by simp [execMboxFullClear]

@[simp] theorem State.settleLoss_kept {s : State} : (s.settleLoss).kept = s.kept := by simp [State.settleLoss]

@[simp] theorem State.restartBeat_kept {s : State} : (s.restartBeat).kept = s.kept := by simp [State.restartBeat]

@[simp] theorem State.writeMgrCtrl_kept {s : State} {a1 a2} : (s.writeMgrCtrl a1 a2).kept = s.kept := by simp [State.writeMgrCtrl]

@[simp] theorem execMgrBeat_kept {s : State} {a1} : NextKept s (execMgrBeat a1 s) := by simp [execMgrBeat]

@[simp] theorem execMgrHandover_kept {s : State} {a1} : NextKept s (execMgrHandover a1 s) := by simp [execMgrHandover]

@[simp] theorem execMgrHbPeriodWrite_kept {s : State} {a1 a2} : NextKept s (execMgrHbPeriodWrite a1 a2 s) := by
  simp [execMgrHbPeriodWrite]

@[simp] theorem execManagerLoss_kept {s : State} {a1} : NextKept s (execManagerLoss a1 s) := by simp [execManagerLoss]

@[simp] theorem execManagerLossCleared_kept {s : State} : NextKept s (execManagerLossCleared s) := by
  simp [execManagerLossCleared]

@[simp] theorem State.showStandby_kept {s : State} : (s.showStandby).kept = s.kept := by simp [State.showStandby]

@[simp] theorem State.disableRings_kept {s : State} {a1} : (s.disableRings a1).kept = s.kept := by simp [State.disableRings]

@[simp] theorem effInstTakeover_kept {s : State} {a1 a2} : (effInstTakeover a1 a2 s).kept = s.kept := by
  unfold effInstTakeover
  split
  · rfl
  · simp only [foldl_kept, State.post_kept, implies_true, State.capChangedFn_kept, State.showStandby_kept, State.settleLoss_kept, kept_mk,
      kept_fold, State.setReg_kept, State.setF_kept, State.disableRings_kept, State.endAll_kept, State.breakSlips_kept, State.commit_kept]

@[simp] theorem execInstTakeover_kept {s : State} {a1} : NextKept s (execInstTakeover a1 s) := by simp [execInstTakeover]

@[simp] theorem execTakeoverComplete_kept {s : State} : NextKept s (execTakeoverComplete s) := by
  unfold execTakeoverComplete
  split <;> simp

end Sys2Proof.Machine
end

section
/-! SUPPORT for O5 and O7, errors: the queue, the timebase and the binding table stay. -/

namespace Sys2Proof.Machine

@[simp] theorem State.endCommand_kept {s : State} {a1 a2} : (s.endCommand a1 a2).kept = s.kept := by
  unfold State.endCommand
  split <;> simp

@[simp] theorem State.raiseT3_kept {s : State} {a1 a2 a3} : (s.raiseT3 a1 a2 a3).kept = s.kept := by
  unfold State.raiseT3
  dsimp only
  (repeat' split) <;> simp

@[simp] theorem State.spoilBuffer_kept {s : State} {a1} : (s.spoilBuffer a1).kept = s.kept := by
  unfold State.spoilBuffer
  split <;> simp

@[simp] theorem State.unitReset_kept {s : State} {a1 a2 a3 a4 a5} : (s.unitReset a1 a2 a3 a4 a5).kept = s.kept := by
  unfold State.unitReset
  (repeat' split) <;> simp

@[simp] theorem State.fault2_kept {s : State} {a1 a2 a3 a4 a5 a6 a7 a8} : (s.fault2 a1 a2 a3 a4 a5 a6 a7 a8).kept = s.kept := by
  simp [State.fault2]

@[simp] theorem execErrorRecord_kept {s : State} {a1 a2 a3 a4 a5 a6 a7 a8} : NextKept s (execErrorRecord a1 a2 a3 a4 a5 a6 a7 a8 s) := by
  simp [execErrorRecord]

@[simp] theorem State.layerCut_kept {s : State} {a1 a2} : (s.layerCut a1 a2).kept = s.kept := by simp [State.layerCut]

@[simp] theorem execEscCutoff_kept {s : State} {a1 a2 a3 a4 a5 a6} : NextKept s (execEscCutoff a1 a2 a3 a4 a5 a6 s) := by
  simp [execEscCutoff]

@[simp] theorem execPllLockLoss_kept {s : State} {a1 a2} : NextKept s (execPllLockLoss a1 a2 s) := by simp [execPllLockLoss]

@[simp] theorem execRefclkStop_kept {s : State} : NextKept s (execRefclkStop s) := by simp [execRefclkStop]

@[simp] theorem execRefclkHoldoverEnd_kept {s : State} : NextKept s (execRefclkHoldoverEnd s) := by simp [execRefclkHoldoverEnd]

@[simp] theorem execD2dLinkRetrain_kept {s : State} {a1 a2 a3} : NextKept s (execD2dLinkRetrain a1 a2 a3 s) := by
  simp [execD2dLinkRetrain]

@[simp] theorem execSupplyMonitorTrip_kept {s : State} {a1 a2 a3} : NextKept s (execSupplyMonitorTrip a1 a2 a3 s) := by
  unfold execSupplyMonitorTrip
  split <;> simp

@[simp] theorem execThermalTrip_kept {s : State} {a1} : NextKept s (execThermalTrip a1 s) := by
  unfold execThermalTrip
  rw [nextKept_next, kept_ite, State.record_kept, ite_self, State.noteTemps_kept]
  refine foldl_kept fun t n => ?_
  (repeat' split) <;> simp

@[simp] theorem execStrgWatchdogExpiry_kept {s : State} : NextKept s (execStrgWatchdogExpiry s) := by
  simp [execStrgWatchdogExpiry]

@[simp] theorem State.setPolicy_kept {s : State} {a1} : (s.setPolicy a1).kept = s.kept := by
  unfold State.setPolicy
  (repeat' split) <;> simp [↓kept_mk, ↓kept_fold]

@[simp] theorem State.restartClerk_kept {s : State} {a1 a2 a3} : (s.restartClerk a1 a2 a3).kept = s.kept := by
  simp [State.restartClerk]

@[simp] theorem State.coreException_kept {s : State} {a1 a2 a3} : (s.coreException a1 a2 a3).kept = s.kept := by
  simp [State.coreException]

@[simp] theorem execClerkCoreException_kept {s : State} {a1 a2 a3} : NextKept s (execClerkCoreException a1 a2 a3 s) := by
  simp [execClerkCoreException]

@[simp] theorem execClerkRestart_kept {s : State} {a1 a2 a3} : NextKept s (execClerkRestart a1 a2 a3 s) := by
  simp [execClerkRestart]

@[simp] theorem execClerkRestartComplete_kept {s : State} {a1} : NextKept s (execClerkRestartComplete a1 s) := by
  unfold execClerkRestartComplete
  split <;> simp

@[simp] theorem State.ackRecords_kept {s : State} {a1} : (s.ackRecords a1).kept = s.kept := by simp [State.ackRecords]

@[simp] theorem execErrorAck_kept {s : State} {a1 a2} : NextKept s (execErrorAck a1 a2 s) := by simp [execErrorAck]

@[simp] theorem execErrorAckAll_kept {s : State} {a1} : NextKept s (execErrorAckAll a1 s) := by simp [execErrorAckAll]

@[simp] theorem State.setSafe_kept {s : State} : (s.setSafe).kept = s.kept := by simp [State.setSafe]

@[simp] theorem State.startSafeChime_kept {s : State} : (s.startSafeChime).kept = s.kept := by simp [State.startSafeChime]

@[simp] theorem State.enterSafe_kept {s : State} {a1} : (s.enterSafe a1).kept = s.kept := by simp [State.enterSafe]

@[simp] theorem State.takeTrigger_kept {s : State} : (s.takeTrigger).kept = s.kept := by simp [State.takeTrigger]

@[simp] theorem execSafeStateEntry_kept {s : State} : NextKept s (execSafeStateEntry s) := by
  unfold execSafeStateEntry
  split <;> simp

end Sys2Proof.Machine
end

section
/-! SUPPORT for O5 and O7, boot: the queue, the timebase and the binding table stay. -/

namespace Sys2Proof.Machine

@[simp] theorem State.startTelltales_kept {s : State} : (s.startTelltales).kept = s.kept := by simp [State.startTelltales]

@[simp] theorem State.startSafeValues_kept {s : State} : (s.startSafeValues).kept = s.kept := by simp [State.startSafeValues]

@[simp] theorem State.startSinks_kept {s : State} : (s.startSinks).kept = s.kept := by simp [State.startSinks]

@[simp] theorem State.bootRecords_kept {s : State} {a1 a2} : (s.bootRecords a1 a2).kept = s.kept := by simp [State.bootRecords]

@[simp] theorem State.startStrongroom_kept {s : State} {a1} : (s.startStrongroom a1).kept = s.kept := by
  simp [State.startStrongroom]

@[simp] theorem State.hapFromLedger_kept {s : State} : (s.hapFromLedger).kept = s.kept := by
  refine foldl_kept fun t x => ?_
  split <;> simp

@[simp] theorem State.startRegions_kept {s : State} {a1} : (s.startRegions a1).kept = s.kept := by simp [State.startRegions]

@[simp] theorem State.startArena_kept {s : State} {a1} : (s.startArena a1).kept = s.kept := by simp [State.startArena]

@[simp] theorem State.bootEnds_kept {s : State} {a1 a2 a3 a4} : (s.bootEnds a1 a2 a3 a4).kept = s.kept := by simp [State.bootEnds]

@[simp] theorem execXspiOwnRelease_kept {s : State} {a1 a2} : NextKept s (execXspiOwnRelease a1 a2 s) := by
  simp [execXspiOwnRelease]

@[simp] theorem execRollbackRaise_kept {s : State} : NextKept s (execRollbackRaise s) := by
  unfold execRollbackRaise
  split <;> simp

end Sys2Proof.Machine
end

section
/-! SUPPORT for O5 and O7, firmware: the queue, the timebase and the binding table stay. -/

namespace Sys2Proof.Machine

@[simp] theorem State.putInactive_kept {s : State} {a1} : (s.putInactive a1).kept = s.kept := by simp [State.putInactive]

@[simp] theorem State.stageFails_kept {s : State} {a1 a2 a3} : (s.stageFails a1 a2 a3).kept = s.kept := by simp [State.stageFails]

@[simp] theorem effFwStage_kept {s : State} {a1 a2 a3 a4} : (effFwStage a1 a2 a3 a4 s).kept = s.kept := by
  unfold effFwStage
  split
  · rfl
  · split
    · simp
    · (repeat' split) <;> simp only [State.stageFails_kept, State.postMgr_kept, State.complete_kept, State.setReg_kept, kept_mk, kept_fold,
        State.setF_kept, State.putInactive_kept, State.commit_kept]

@[simp] theorem execFwStage_kept {s : State} {a1 a2 a3} : NextKept s (execFwStage a1 a2 a3 s) := by simp [execFwStage]

@[simp] theorem State.beginSwitch_kept {s : State} {a1} : (s.beginSwitch a1).kept = s.kept := by simp [State.beginSwitch]

@[simp] theorem effFwSwitch_kept {s : State} {a1 a2} : (effFwSwitch a1 a2 s).kept = s.kept := by simp [effFwSwitch]

@[simp] theorem execFwSwitch_kept {s : State} {a1} : NextKept s (execFwSwitch a1 s) := by simp [execFwSwitch]

@[simp] theorem State.endSwitch_kept {s : State} {a1 a2} : (s.endSwitch a1 a2).kept = s.kept := by simp [State.endSwitch]

@[simp] theorem execFwSwitchComplete_kept {s : State} : NextKept s (execFwSwitchComplete s) := by
  unfold execFwSwitchComplete
  split <;> simp

@[simp] theorem execStrongroomSwitchTimeout_kept {s : State} : NextKept s (execStrongroomSwitchTimeout s) := by
  unfold execStrongroomSwitchTimeout
  split <;> simp

end Sys2Proof.Machine
end

section
/-! SUPPORT for O5 and O7, system commands: the queue, the timebase and the binding table stay. -/

namespace Sys2Proof.Machine

@[simp] theorem effSysNop_kept {s : State} {a1 a2} : (effSysNop a1 a2 s).kept = s.kept := by simp [effSysNop]

@[simp] theorem execSysNop_kept {s : State} {a1} : NextKept s (execSysNop a1 s) := by simp [execSysNop]

@[simp] theorem effSysFence_kept {s : State} {a1 a2} : (effSysFence a1 a2 s).kept = s.kept := by simp [effSysFence]

@[simp] theorem execSysFence_kept {s : State} {a1} : NextKept s (execSysFence a1 s) := by simp [execSysFence]

@[simp] theorem acquireSlip_kept {s : State} {a1 a2 a3} : (acquireSlip a1 a2 a3 s).kept = s.kept := by
  unfold acquireSlip
  split <;> simp

@[simp] theorem effSysSlipAcquire_kept {s : State} {a1 a2} : (effSysSlipAcquire a1 a2 s).kept = s.kept := by
  simp [effSysSlipAcquire]

@[simp] theorem execSysSlipAcquire_kept {s : State} {a1} : NextKept s (execSysSlipAcquire a1 s) := by simp [execSysSlipAcquire]

@[simp] theorem effSysSlipRelease_kept {s : State} {a1 a2} : (effSysSlipRelease a1 a2 s).kept = s.kept := by
  simp [effSysSlipRelease]

@[simp] theorem execSysSlipRelease_kept {s : State} {a1} : NextKept s (execSysSlipRelease a1 s) := by simp [execSysSlipRelease]

@[simp] theorem effSysSlipClear_kept {s : State} {a1 a2} : (effSysSlipClear a1 a2 s).kept = s.kept := by simp [effSysSlipClear]

@[simp] theorem execSysSlipClear_kept {s : State} {a1} : NextKept s (execSysSlipClear a1 s) := by simp [execSysSlipClear]

@[simp] theorem effSysSlipGrant_kept {s : State} {a1 a2} : (effSysSlipGrant a1 a2 s).kept = s.kept := by simp [effSysSlipGrant]

@[simp] theorem execSysSlipGrant_kept {s : State} {a1} : NextKept s (execSysSlipGrant a1 s) := by simp [execSysSlipGrant]

@[simp] theorem effSysSlipQuery_kept {s : State} {a1 a2} : (effSysSlipQuery a1 a2 s).kept = s.kept := by simp [effSysSlipQuery]

@[simp] theorem execSysSlipQuery_kept {s : State} {a1} : NextKept s (execSysSlipQuery a1 s) := by simp [execSysSlipQuery]

end Sys2Proof.Machine
end

section
/-! SUPPORT for O5 and O7, capability lists: the queue, the timebase and the binding table stay. -/

namespace Sys2Proof.Machine

@[simp] theorem effSysGetCaps_kept {s : State} {a1 a2} : (effSysGetCaps a1 a2 s).kept = s.kept := by simp [effSysGetCaps]

@[simp] theorem execSysGetCaps_kept {s : State} {a1} : NextKept s (execSysGetCaps a1 s) := by simp [execSysGetCaps]

end Sys2Proof.Machine
end

section
/-! SUPPORT for O5 and O7, rings: the queue, the timebase and the binding table stay. -/

namespace Sys2Proof.Machine

@[simp] theorem State.ringWrite_kept {s : State} {a1 a2 a3 a4 f} (hf : ∀ t, (f t).kept = t.kept) : (s.ringWrite a1 a2 a3 a4 f).kept = s.kept := by
  simp [State.ringWrite, hf]

@[simp] theorem State.cfgErr_kept {s : State} {a1} : (s.cfgErr a1).kept = s.kept := by simp [State.cfgErr]

@[simp] theorem State.setSqCtrl_kept {s : State} {a1 a2 a3} : (s.setSqCtrl a1 a2 a3).kept = s.kept := by simp [State.setSqCtrl]

@[simp] theorem State.tellManager_kept {s : State} : (s.tellManager).kept = s.kept := by simp [State.tellManager]

@[simp] theorem State.setCqCtrl_kept {s : State} {a1 a2} : (s.setCqCtrl a1 a2).kept = s.kept := by simp [State.setCqCtrl]

@[simp] theorem State.setRingBase_kept {s : State} {a1 a2 a3 a4} : (s.setRingBase a1 a2 a3 a4).kept = s.kept := by
  simp [State.setRingBase]

@[simp] theorem State.setVecmap_kept {s : State} {a1 a2 a3} : (s.setVecmap a1 a2 a3).kept = s.kept := by simp [State.setVecmap]

@[simp] theorem execSqEnable_kept {s : State} {a1 a2 a3 a4} : NextKept s (execSqEnable a1 a2 a3 a4 s) := by simp [execSqEnable]

@[simp] theorem execSqDisable_kept {s : State} {a1 a2 a3} : NextKept s (execSqDisable a1 a2 a3 s) := by simp [execSqDisable]

@[simp] theorem execCqEnable_kept {s : State} {a1 a2 a3} : NextKept s (execCqEnable a1 a2 a3 s) := by simp [execCqEnable]

@[simp] theorem execCqDisable_kept {s : State} {a1 a2} : NextKept s (execCqDisable a1 a2 s) := by simp [execCqDisable]

@[simp] theorem State.badDoorbell_kept {s : State} {a1 a2} : (s.badDoorbell a1 a2).kept = s.kept := by simp [State.badDoorbell]

@[simp] theorem State.ringSq_kept {s : State} {a1 a2 a3} : (s.ringSq a1 a2 a3).kept = s.kept := by simp [State.ringSq]

@[simp] theorem State.ringCq_kept {s : State} {a1 a2} : (s.ringCq a1 a2).kept = s.kept := by simp [State.ringCq]

@[simp] theorem execDoorbellSq_kept {s : State} {a1 a2 a3 a4} : NextKept s (execDoorbellSq a1 a2 a3 a4 s) := by
  simp [execDoorbellSq]

@[simp] theorem execDoorbellCq_kept {s : State} {a1 a2 a3} : NextKept s (execDoorbellCq a1 a2 a3 s) := by simp [execDoorbellCq]

@[simp] theorem State.takePacket_kept {s : State} {a1 a2 a3} : (s.takePacket a1 a2 a3).kept = s.kept := by
  unfold State.takePacket
  dsimp only
  split <;> simp

@[simp] theorem execClrkFetchPacket_kept {s : State} {a1} : NextKept s (execClrkFetchPacket a1 s) := by
  unfold execClrkFetchPacket
  dsimp only
  (repeat' split) <;> simp

@[simp] theorem execCommandTimeout_kept {s : State} {a1} : NextKept s (execCommandTimeout a1 s) := by
  unfold execCommandTimeout
  split <;> simp

@[simp] theorem execCoalesceTimeout_kept {s : State} {a1} : NextKept s (execCoalesceTimeout a1 s) := by simp [execCoalesceTimeout]

@[simp] theorem State.hostLink_kept {s : State} {a1 a2 a3 a4} : (s.hostLink a1 a2 a3 a4).kept = s.kept := by simp [State.hostLink]

@[simp] theorem execHostLinkDown_kept {s : State} {a1} : NextKept s (execHostLinkDown a1 s) := by simp [execHostLinkDown]

@[simp] theorem execHostLinkUp_kept {s : State} {a1 a2 a3} : NextKept s (execHostLinkUp a1 a2 a3 s) := by simp [execHostLinkUp]

@[simp] theorem execPerstRelease_kept {s : State} {a1} : NextKept s (execPerstRelease a1 s) := by simp [execPerstRelease]

@[simp] theorem execFlitMgmtPacket_kept {s : State} {a1 a2 a3} : NextKept s (execFlitMgmtPacket a1 a2 a3 s) := by
  simp [execFlitMgmtPacket]

@[simp] theorem effFabForward_kept {s : State} {a1 a2} : (effFabForward a1 a2 s).kept = s.kept := by simp [effFabForward]

@[simp] theorem execFabForward_kept {s : State} {a1} : NextKept s (execFabForward a1 s) := by simp [execFabForward]

end Sys2Proof.Machine
end

section
/-! SUPPORT for O5 and O7, register accesses: the queue, the timebase and the binding table stay. -/

namespace Sys2Proof.Machine

@[simp] theorem State.afterRead_kept {s : State} {a1 a2} : (s.afterRead a1 a2).kept = s.kept := by simp [State.afterRead]

@[simp] theorem State.clearRc_kept {s : State} {a1} : (s.clearRc a1).kept = s.kept := by
  unfold State.clearRc
  split <;> simp

@[simp] theorem execRcRegisterRead_kept {s : State} {a1 a2 a3} : NextKept s (execRcRegisterRead a1 a2 a3 s) := by
  simp [execRcRegisterRead]

@[simp] theorem execLowWordReadLatch_kept {s : State} {a1 a2} : NextKept s (execLowWordReadLatch a1 a2 s) := by
  unfold execLowWordReadLatch
  (repeat' split) <;> simp

@[simp] theorem State.holdLow_kept {s : State} {a1 a2} : (s.holdLow a1 a2).kept = s.kept := by simp [State.holdLow]

@[simp] theorem State.putPlain_kept {s : State} {a1 a2} : (s.putPlain a1 a2).kept = s.kept := by
  unfold State.putPlain
  (repeat' split) <;> simp

@[simp] theorem State.writePlain_kept {s : State} {a1 a2 a3} : (s.writePlain a1 a2 a3).kept = s.kept := by simp [State.writePlain]

@[simp] theorem State.writeTiming_kept {s : State} {a1 a2 a3 a4} : (s.writeTiming a1 a2 a3 a4).kept = s.kept := by
  refine State.regWrite_kept fun t => ?_
  split
  next h => exact State.writeTimingReg_kept _ h
  next => exact State.badWrite_kept

@[simp] theorem State.writeLatch_kept {s : State} {a1 a2 a3} : (s.writeLatch a1 a2 a3).kept = s.kept := by simp [State.writeLatch]

@[simp] theorem execOutTimingRegWrite_kept {s : State} {a1 a2 a3} : NextKept s (execOutTimingRegWrite a1 a2 a3 s) := by
  unfold execOutTimingRegWrite
  split <;> simp

@[simp] theorem execOutAdvanceWrite_kept {s : State} {a1 a2 a3} : NextKept s (execOutAdvanceWrite a1 a2 a3 s) := by
  simp [execOutAdvanceWrite]

@[simp] theorem State.writeMbox_kept {s : State} {a1 a2 a3 a4} : (s.writeMbox a1 a2 a3 a4).kept = s.kept := by
  simp [State.writeMbox]

@[simp] theorem State.writeMboxStatus_kept {s : State} {a1 a2 a3} : (s.writeMboxStatus a1 a2 a3).kept = s.kept := by
  simp [State.writeMboxStatus]

@[simp] theorem State.clearRingStatus_kept {s : State} {a1 a2} : (s.clearRingStatus a1 a2).kept = s.kept := by
  simp [State.clearRingStatus]

@[simp] theorem State.setBaseLow_kept {s : State} {a1 a2 a3 a4} : (s.setBaseLow a1 a2 a3 a4).kept = s.kept := by
  simp [State.setBaseLow]

@[simp] theorem State.setBaseHigh_kept {s : State} {a1 a2 a3 a4} : (s.setBaseHigh a1 a2 a3 a4).kept = s.kept := by
  unfold State.setBaseHigh
  dsimp only
  split <;> simp

@[simp] theorem State.writeRingSet_kept {s : State} {a1 a2 a3 a4} : (s.writeRingSet a1 a2 a3 a4).kept = s.kept := by
  simp [State.writeRingSet]

@[simp] theorem State.writeBell_kept {s : State} {a1 a2 a3 a4} : (s.writeBell a1 a2 a3 a4).kept = s.kept := by
  simp [State.writeBell]

@[simp] theorem State.writeUnit_kept {s : State} {a1 a2 a3 a4} : (s.writeUnit a1 a2 a3 a4).kept = s.kept := by
  simp [State.writeUnit]

@[simp] theorem State.writeWindow_kept {s : State} {a1 a2 a3} : (s.writeWindow a1 a2 a3).kept = s.kept := by
  unfold State.writeWindow
  split
  · split
    · split
      next h => exact execStrgReqDoorbell_kept _ h
      next => rfl
    · exact State.regWrite_kept fun t => by simp
  · exact State.regWrite_kept fun t => by simp

@[simp] theorem State.writeErrAck_kept {s : State} {a1 a2} : (s.writeErrAck a1 a2).kept = s.kept := by simp [State.writeErrAck]

@[simp] theorem State.writeWakeStatus_kept {s : State} {a1 a2} : (s.writeWakeStatus a1 a2).kept = s.kept := by
  refine State.regWrite_kept fun t => ?_
  split
  · rw [kept_mk, kept_fold, State.setF_kept]
  · rfl

end Sys2Proof.Machine
end

section
/-! SUPPORT for O5 and O7, the Crown port: the queue, the timebase and the binding table stay. -/

namespace Sys2Proof.Machine

@[simp] theorem State.endSession_kept {s : State} : (s.endSession).kept = s.kept := by simp [State.endSession]

@[simp] theorem refuse_kept {s : State} {a1} : (refuse s a1).1.kept = s.kept := by simp [refuse]

@[simp] theorem State.transact_kept {s : State} {a1 a2 a3 f} (hf : ∀ t, (f t).1.kept = t.kept) : (s.transact a1 a2 a3 f).kept = s.kept := by
  unfold State.transact
  (repeat' split) <;> simp [hf]

@[simp] theorem execCrownId_kept {s : State} {a1} : NextKept s (execCrownId a1 s) := by simp [execCrownId]

@[simp] theorem State.freshBytes_kept {s : State} {a1} : (State.freshBytes a1 s).2.kept = s.kept := by
  induction a1 generalizing s with
  | zero => rfl
  | succ n ih => exact ih.trans State.fresh_kept

@[simp] theorem execCrownChallenge_kept {s : State} {a1} : NextKept s (execCrownChallenge a1 s) := by
  refine nextKept_next.2 (State.transact_kept fun t => ?_)
  split_ifs
  · exact refuse_kept
  · exact refuse_kept
  · exact refuse_kept
  · simp only [kept_mk, kept_fold, State.freshBytes_kept]

@[simp] theorem execCrownResponse_kept {s : State} {a1} : NextKept s (execCrownResponse a1 s) := by
  refine nextKept_next.2 (State.transact_kept fun t => ?_)
  dsimp only
  (repeat' split) <;> simp only [refuse_kept, State.setF_kept, kept_mk, kept_fold]

@[simp] theorem execCrownAuthVerified_kept {s : State} : NextKept s (execCrownAuthVerified s) := by
  unfold execCrownAuthVerified
  split <;> simp

@[simp] theorem execCrownLockoutEnd_kept {s : State} : NextKept s (execCrownLockoutEnd s) := by simp [execCrownLockoutEnd]

@[simp] theorem execCrownEnd_kept {s : State} {a1} : NextKept s (execCrownEnd a1 s) := by simp [execCrownEnd]

@[simp] theorem execCrownSessionTimeout_kept {s : State} : NextKept s (execCrownSessionTimeout s) := by
  simp [execCrownSessionTimeout]

@[simp] theorem State.tellHalt_kept {s : State} {a1} : (s.tellHalt a1).kept = s.kept := by simp [State.tellHalt]

@[simp] theorem State.haltCore_kept {s : State} {a1 a2} : (s.haltCore a1 a2).kept = s.kept := by simp [State.haltCore]

@[simp] theorem State.askHalt_kept {s : State} {a1 a2} : (s.askHalt a1 a2).kept = s.kept := by simp [State.askHalt]

@[simp] theorem State.resumeCore_kept {s : State} {a1} : (s.resumeCore a1).kept = s.kept := by simp [State.resumeCore]

@[simp] theorem State.stepCore_kept {s : State} {a1} : (s.stepCore a1).kept = s.kept := by simp [State.stepCore]

@[simp] theorem execDbgCoreHalt_kept {s : State} {a1 a2} : NextKept s (execDbgCoreHalt a1 a2 s) := by simp [execDbgCoreHalt]

@[simp] theorem State.setWave_kept {s : State} {a1 a2} : (s.setWave a1 a2).kept = s.kept := by simp [State.setWave]

@[simp] theorem execDbgCoreResume_kept {s : State} {a1} : NextKept s (execDbgCoreResume a1 s) := by simp [execDbgCoreResume]

@[simp] theorem execDbgCoreStep_kept {s : State} {a1 a2} : NextKept s (execDbgCoreStep a1 a2 s) := by
  unfold execDbgCoreStep
  (repeat' split) <;> simp

@[simp] theorem execClerkBreakpointHit_kept {s : State} {a1 a2} : NextKept s (execClerkBreakpointHit a1 a2 s) := by
  simp [execClerkBreakpointHit]

@[simp] theorem execShaderBreakpointHit_kept {s : State} {a1 a2 a3 a4 a5} : NextKept s (execShaderBreakpointHit a1 a2 a3 a4 a5 s) := by
  simp [execShaderBreakpointHit]

@[simp] theorem State.strgHalt_kept {s : State} {a1} : (s.strgHalt a1).kept = s.kept := by simp [State.strgHalt]

@[simp] theorem execDbgStrgHalt_kept {s : State} : NextKept s (execDbgStrgHalt s) := by simp [execDbgStrgHalt]

@[simp] theorem execDbgStrgResume_kept {s : State} : NextKept s (execDbgStrgResume s) := by simp [execDbgStrgResume]

@[simp] theorem State.voteCrown_kept {s : State} {a1} : (s.voteCrown a1).kept = s.kept := by simp [State.voteCrown]

@[simp] theorem execDbgVoteWrite_kept {s : State} {a1} : NextKept s (execDbgVoteWrite a1 s) := by simp [execDbgVoteWrite]

@[simp] theorem State.crownRead_kept {s : State} {a1} : (s.crownRead a1).2.kept = s.kept := by simp [State.crownRead]

@[simp] theorem execCrownReadReg_kept {s : State} {a1} : NextKept s (execCrownReadReg a1 s) := by
  refine nextKept_next.2 (State.transact_kept fun t => ?_)
  split
  · exact refuse_kept
  · exact foldl_kept_snd fun x a => State.crownRead_kept

@[simp] theorem execCrownReadMem_kept {s : State} {a1} : NextKept s (execCrownReadMem a1 s) := by
  refine nextKept_next.2 (State.transact_kept fun t => ?_)
  dsimp only
  split
  · rw [refuse_kept]
    split <;> simp
  · exact State.noteRead_kept

@[simp] theorem execCrownWriteMem_kept {s : State} {a1} : NextKept s (execCrownWriteMem a1 s) := by
  refine nextKept_next.2 (State.transact_kept fun t => ?_)
  dsimp only
  split
  · rw [refuse_kept]
    split <;> simp
  · exact State.store_kept

end Sys2Proof.Machine
end

section
/-! The proofs of O5 and O7: what the loss of the main supplies, a cold boot and a boot do to what is kept. -/

namespace Sys2Proof.Machine

/-- The loss of the main supplies takes the binding table with it and keeps the rest. -/
def lostOf (k : List Instr × Nat × Option Binding) : List Instr × Nat × Option Binding := (k.1, k.2.1, none)

/-- `t` has what `s` keeps, or has lost the main supplies. -/
def Loses (s t : State) : Prop := t.kept = s.kept ∨ t.kept = lostOf s.kept

/-- Every next state of an outcome keeps what `s` has, or has lost the main supplies. -/
def NextLoses (s : State) (o : Host.Outcome State Fault Refusal) : Prop := ∀ t, o = .next t → Loses s t

@[simp] theorem lostOf_lostOf (k : List Instr × Nat × Option Binding) : lostOf (lostOf k) = lostOf k := rfl

theorem Loses.trans {s t u : State} (h : Loses s t) (g : Loses t u) : Loses s u := by
  rcases h with h | h <;> rcases g with g | g
  · exact .inl (g.trans h)
  · exact .inr (g.trans (congrArg lostOf h))
  · exact .inr (g.trans h)
  · exact .inr (g.trans (by rw [h, lostOf_lostOf]))

theorem Loses.foldl {α : Type*} {f : State → α → State} {l : List α} {s : State} (hf : ∀ t x, Loses t (f t x)) : Loses s (l.foldl f s) := by
  induction l generalizing s with
  | nil => exact .inl rfl
  | cons x l ih => exact (hf s x).trans ih

theorem Loses.ite {c : Prop} [Decidable c] {s t u : State} (ht : Loses s t) (hu : Loses s u) : Loses s (if c then t else u) := by
  split
  · exact ht
  · exact hu

theorem nextLoses_next {s t : State} (h : Loses s t) : NextLoses s (.next t) := by
  intro u e
  injection e with e
  exact e ▸ h

theorem State.gated_loses {s : State} {w a : Nat} {f : State → State} (hf : ∀ t, Loses t (f t)) : Loses s (s.gated w a f) := by
  unfold State.gated
  split
  · exact hf s
  · split_ifs
    · exact .inl rfl
    · exact .inl State.count_kept
    · exact .inl State.badWrite_kept
    · exact .inl State.badWrite_kept
    · exact hf s

@[simp] theorem State.onlyKept_kept (s : State) : s.onlyKept.kept = lostOf s.kept := by
  unfold State.onlyKept
  rw [kept_mk]
  rfl

@[simp] theorem State.loseMain_kept (s : State) : s.loseMain.kept = lostOf s.kept := by
  simp [State.loseMain]

@[simp] theorem State.baseFails_kept (s : State) : s.baseFails.kept = lostOf s.kept := by
  simp [State.baseFails]

@[simp] theorem State.recoveryReset_kept (s : State) : s.recoveryReset.kept = lostOf s.kept := by
  simp [State.recoveryReset]

theorem State.stepFails_loses (s : State) (d step : Nat) : Loses s (s.stepFails d step) := by
  unfold State.stepFails
  dsimp only
  split
  · refine .inl ?_
    simp only [State.setF_kept, State.setReg_kept, kept_mk, kept_fold, State.powerEvent_kept, State.setMotion_kept]
  · split
    · exact .inr (by simp)
    · split
      · exact .inr (by simp)
      · exact .inl (by simp)

theorem execDomainStepTimeout_loses (s : State) (d : Nat) : NextLoses s (execDomainStepTimeout d s) := by
  refine nextLoses_next ?_
  split
  · exact .inl rfl
  · split
    · exact .inl (by simp)
    · exact State.stepFails_loses ..
    · exact .inl rfl

theorem execStateEntryComplete_loses (s : State) : NextLoses s (execStateEntryComplete s) := by
  refine nextLoses_next ?_
  split
  next e _ =>
    split
    · exact .inl rfl
    · refine Loses.trans (t := if e.target = 2 then s.retainAll.atState 2 else s.loseMain.atState 1) ?_ (.inl ?_)
      · split
        · exact .inl (by simp)
        · exact .inr (by simp)
      · dsimp only
        split <;> simp
  next => exact .inl rfl

theorem State.writeSafeCtrl_loses (s : State) (w v : Nat) : Loses s (s.writeSafeCtrl w v) := by
  refine State.gated_loses fun t => ?_
  split
  · exact .inl rfl
  · exact Loses.ite (.inr (by simp)) (.inl (by simp))

theorem execRecoveryReset_loses (s : State) (w k : Nat) : NextLoses s (execRecoveryReset w k s) := nextLoses_next (State.writeSafeCtrl_loses ..)

theorem execPerstAssert_loses (s : State) (port : Nat) : NextLoses s (execPerstAssert port s) := by
  refine nextLoses_next ?_
  refine Loses.ite (.inl rfl) (Loses.ite (.inr ?_) (.inl ?_)) <;> simp

theorem State.writeReg_loses (s : State) (w a v : Nat) : Loses s (s.writeReg w a v) := by
  unfold State.writeReg
  split
  · exact .inl (by simp)
  · exact .inl (by simp)
  · exact .inl (by simp)
  · exact .inl (by simp)
  · split_ifs
    · exact .inl (by simp)
    · exact .inl (by simp)
    · exact .inl (by simp)
    · exact .inl (by simp)
    · exact .inl (by simp)
    · exact State.writeSafeCtrl_loses ..
    · exact .inl (by simp)
    · exact .inl (by simp)
    · exact .inl (by simp)
    · exact .inl (by simp)

theorem execRegisterWrite_loses (s : State) (w a z v : Nat) : NextLoses s (execRegisterWrite w a z v s) := by
  unfold execRegisterWrite
  dsimp only
  split
  · intro t e
    injection e
  · split
    · exact nextLoses_next (.inl rfl)
    · split
      · exact nextLoses_next (.inl (State.gated_kept fun t => by simp))
      · exact nextLoses_next (State.writeReg_loses ..)

theorem State.crownWrite_loses (s : State) (secure a v : Nat) : Loses s (s.crownWrite secure a v) := by
  unfold State.crownWrite
  split
  · exact .inl (by simp)
  · split_ifs
    · exact .inl (by simp)
    · exact .inl (by simp)
    · exact .inl (by simp)
    · exact .inl (by simp)
    · exact .inl rfl
    · exact State.writeReg_loses ..

theorem State.transact_loses {s : State} {op : Nat} {f : CrownFrame} {c : Bool} {act : State → Answer} (h : ∀ t, Loses t (act t).1) :
    Loses s (s.transact op f c act) := by
  have hfresh (t : State) : Loses t (if f.late
      then (State.emit { (act t).1 with dbg := { (act t).1.dbg with again := some (op, f, statusOf (act t).2.1, (act t).2.2) } } (.crown 0x33 []))
      else (act t).1.emit (.crown (statusOf (act t).2.1) (act t).2.2)) :=
    (h t).trans (.inl (by simp))
  unfold State.transact
  refine Loses.ite (.inl rfl) ?_
  dsimp only
  split
  · refine Loses.trans (.inl ?_) (Loses.ite (.inl State.emit_kept) (hfresh _))
    simp
  · exact hfresh s

theorem execCrownWriteReg_loses (s : State) (f : CrownFrame) : NextLoses s (execCrownWriteReg f s) := by
  refine nextLoses_next (State.transact_loses fun t => ?_)
  split
  · exact .inl refuse_kept
  · exact Loses.foldl fun x q => State.crownWrite_loses ..

@[simp] theorem State.coldLoss_kept (s : State) (off : Bool) : (s.coldLoss off).kept = (s.pending, 0, none) := by
  simp [State.coldLoss, State.reset]

/-- What the queue and the timebase hold stays. -/
def SameClock (s t : State) : Prop := t.pending = s.pending ∧ t.now = s.now

theorem SameClock.of_kept {s t : State} (h : t.kept = s.kept) : SameClock s t := ⟨congrArg (·.1) h, congrArg (·.2.1) h⟩

theorem SameClock.of_loses {s t : State} (h : Loses s t) : SameClock s t := by
  rcases h with h | h
  · exact .of_kept h
  · exact ⟨congrArg (·.1) h, congrArg (·.2.1) h⟩

theorem SameClock.trans {s t u : State} (h : SameClock s t) (g : SameClock t u) : SameClock s u := ⟨g.1.trans h.1, g.2.trans h.2⟩

theorem State.applyBinding_sameClock (s : State) (b : Binding) : SameClock s (s.applyBinding b) := by
  refine SameClock.trans (t := s.setBinding b) ⟨rfl, rfl⟩ (.of_kept ?_)
  unfold State.applyBinding
  refine (foldl_kept fun t x => by simp).trans ((foldl_kept fun t k => by simp).trans ?_)
  simp

theorem State.bind_sameClock (s : State) (slot : Nat) (fell : Bool) (x : FwSlot) :
    SameClock s (((s.bootRecords slot fell).startStrongroom x).applyBinding x.binding) :=
  (SameClock.of_kept (by simp)).trans (State.applyBinding_sameClock ..)

theorem execBootSequence_sameClock {s t : State} {own : Bool} {us : Nat} (h : execBootSequence own us s = .next t) : SameClock s t := by
  injection h with h
  rw [← h]
  split
  · exact .of_kept rfl
  · split
    · exact .of_kept (by simp)
    · split
      · exact .of_loses (State.stepFails_loses ..)
      next slot x fell _ =>
        split
        · exact .of_loses (State.stepFails_loses ..)
        · split
          · split
            · exact (State.bind_sameClock s slot fell x).trans (.of_kept State.bootEnds_kept)
            · exact .of_kept rfl
          · dsimp only
            split
            · exact .of_kept (by simp)
            · exact (State.bind_sameClock s slot fell x).trans (.of_kept (by simp))

/-- A command that cannot end the safe state keeps the queue, the timebase and the binding table. -/
theorem exec_kept {s : State} (i : Instr) (hi : ¬ Obligations.EndsSafeState i) : NextKept s (exec i s) := by
  cases i with
  | powerOnReset _ => exact absurd (by simp [Obligations.EndsSafeState]) hi
  | vsaveArmed _ => exact execVsaveArmed_kept
  | sagDetected _ _ _ => exact execSagDetected_kept
  | perstAssert _ => exact absurd (by simp [Obligations.EndsSafeState]) hi
  | perstRelease _ => exact execPerstRelease_kept
  | functionLevelReset _ _ => exact execFunctionLevelReset_kept
  | hostLinkDown _ => exact execHostLinkDown_kept
  | hostLinkUp _ _ _ => exact execHostLinkUp_kept
  | managerLoss _ => exact execManagerLoss_kept
  | mgrBeat _ => exact execMgrBeat_kept
  | mgrHandover _ => exact execMgrHandover_kept
  | mgrHbPeriodWrite _ _ => exact execMgrHbPeriodWrite_kept
  | registerWrite _ _ _ _ => exact absurd (by simp [Obligations.EndsSafeState]) hi
  | rcRegisterRead _ _ _ => exact execRcRegisterRead_kept
  | d2dLinkRetrain _ _ _ => exact execD2dLinkRetrain_kept
  | lowWordReadLatch _ _ => exact execLowWordReadLatch_kept
  | sqEnable _ _ _ _ => exact execSqEnable_kept
  | sqDisable _ _ _ => exact execSqDisable_kept
  | cqEnable _ _ _ => exact execCqEnable_kept
  | cqDisable _ _ => exact execCqDisable_kept
  | doorbellSq _ _ _ _ => exact execDoorbellSq_kept
  | doorbellCq _ _ _ => exact execDoorbellCq_kept
  | doorbellMbox _ _ => exact execDoorbellMbox_kept
  | mboxFullClear _ _ => exact execMboxFullClear_kept
  | clrkFetchPacket _ => exact execClrkFetchPacket_kept
  | commandTimeout _ => exact execCommandTimeout_kept
  | coalesceTimeout _ => exact execCoalesceTimeout_kept
  | sysNop _ => exact execSysNop_kept
  | sysGetCaps _ => exact execSysGetCaps_kept
  | sysFence _ => exact execSysFence_kept
  | sysSlipAcquire _ => exact execSysSlipAcquire_kept
  | sysSlipRelease _ => exact execSysSlipRelease_kept
  | sysSlipClear _ => exact execSysSlipClear_kept
  | sysSlipGrant _ => exact execSysSlipGrant_kept
  | sysSlipQuery _ => exact execSysSlipQuery_kept
  | instCreate _ => exact execInstCreate_kept
  | instResize _ => exact execInstResize_kept
  | resizeGraceEnd _ => exact execResizeGraceEnd_kept
  | instFreeze _ => exact execInstFreeze_kept
  | freezeComplete _ => exact execFreezeComplete_kept
  | instSave _ => exact execInstSave_kept
  | instRestore _ _ => exact execInstRestore_kept
  | instThaw _ => exact execInstThaw_kept
  | instDestroy _ => exact execInstDestroy_kept
  | destroyComplete _ => exact execDestroyComplete_kept
  | instTakeover _ => exact execInstTakeover_kept
  | shmAlloc _ => exact execShmAlloc_kept
  | shmFree _ => exact execShmFree_kept
  | storageDrainComplete _ => exact execStorageDrainComplete_kept
  | shmHint _ => exact execShmHint_kept
  | shmUpload _ _ => exact execShmUpload_kept
  | shmDownload _ _ => exact execShmDownload_kept
  | shmQuery _ => exact execShmQuery_kept
  | shmAllocSparse _ => exact execShmAllocSparse_kept
  | shmSetResidency _ => exact execShmSetResidency_kept
  | memSetRegion _ => exact execMemSetRegion_kept
  | memSetReserve _ => exact execMemSetReserve_kept
  | memLockBank _ => exact execMemLockBank_kept
  | memUnlockBank _ => exact execMemUnlockBank_kept
  | epochDecisionsPublished _ _ _ _ => exact execEpochDecisionsPublished_kept
  | granuleCopyPassDone _ _ => exact execGranuleCopyPassDone_kept
  | granuleFlip _ _ => exact execGranuleFlip_kept
  | moveReadDrain _ _ => exact execMoveReadDrain_kept
  | moveTimeLimit _ _ => exact execMoveTimeLimit_kept
  | xdevWaitExpiry _ => exact execXdevWaitExpiry_kept
  | remoteSegmentLost _ _ => exact execRemoteSegmentLost_kept
  | rndCompile _ => exact execRndCompile_kept
  | rndPass _ => exact execRndPass_kept
  | partialRender _ _ _ => exact execPartialRender_kept
  | passComplete _ _ _ => exact execPassComplete_kept
  | rndDispatch _ => exact execRndDispatch_kept
  | dispatchComplete _ _ => exact execDispatchComplete_kept
  | rndSetArena _ => exact execRndSetArena_kept
  | tileWatchdog _ _ => exact execTileWatchdog_kept
  | clusterStallTimeout _ => exact execClusterStallTimeout_kept
  | bndSetLayer _ => exact execBndSetLayer_kept
  | bndFlip _ => exact execBndFlip_kept
  | bndSetLut _ => exact execBndSetLut_kept
  | bndSetPose _ => exact execBndSetPose_kept
  | motionSample _ => exact execMotionSample_kept
  | bndComposeLine _ _ => exact execBndComposeLine_kept
  | outSetTiming _ => exact execOutSetTiming_kept
  | outLinkStopped _ => exact execOutLinkStopped_kept
  | outPllLocked _ _ => exact execOutPllLocked_kept
  | outLinkTrained _ _ _ => exact execOutLinkTrained_kept
  | outTimingStarted _ => exact execOutTimingStarted_kept
  | outAux _ _ _ _ => exact execOutAux_kept
  | outTimingRegWrite _ _ _ => exact execOutTimingRegWrite_kept
  | outAdvanceWrite _ _ _ => exact execOutAdvanceWrite_kept
  | outLineStart _ _ _ => exact execOutLineStart_kept
  | outLatch _ => exact execOutLatch_kept
  | flipPreviousReleased _ => exact execFlipPreviousReleased_kept
  | outFrameStart _ => exact execOutFrameStart_kept
  | teEdge _ => exact execTeEdge_kept
  | tePeriodMissed _ => exact execTePeriodMissed_kept
  | hpdPlug _ => exact execHpdPlug_kept
  | hpdUnplug _ => exact execHpdUnplug_kept
  | hpdIrq _ => exact execHpdIrq_kept
  | tolMessage _ => exact execTolMessage_kept
  | tolLost _ => exact execTolLost_kept
  | escGrant _ _ => exact execEscGrant_kept
  | escRoundEnd _ => exact execEscRoundEnd_kept
  | escCutoff _ _ _ _ _ _ => exact execEscCutoff_kept
  | selfRefreshEntry _ => exact execSelfRefreshEntry_kept
  | selfRefreshExit _ _ _ => exact execSelfRefreshExit_kept
  | retrainStep _ _ => exact execRetrainStep_kept
  | retrainStarved _ => exact execRetrainStarved_kept
  | mr4Poll _ _ _ => exact execMr4Poll_kept
  | folioInjectArm _ _ => exact execFolioInjectArm_kept
  | dramTraining _ _ _ => exact execDramTraining_kept
  | collSetWindow _ => exact execCollSetWindow_kept
  | collExpect _ => exact execCollExpect_kept
  | collAssignUnit _ => exact execCollAssignUnit_kept
  | collCompute _ => exact execCollCompute_kept
  | cvuStart _ _ => exact execCvuStart_kept
  | cvuAlgChange _ _ _ => exact execCvuAlgChange_kept
  | cvuData8 _ _ _ => exact execCvuData8_kept
  | cvuData16 _ _ _ => exact execCvuData16_kept
  | cvuData32 _ _ _ => exact execCvuData32_kept
  | cvuValueWrite _ _ _ => exact execCvuValueWrite_kept
  | cvuExpectWrite _ _ _ => exact execCvuExpectWrite_kept
  | cvuAliveValue _ _ _ => exact execCvuAliveValue_kept
  | cvuAliveNext _ _ => exact execCvuAliveNext_kept
  | cvuAliveReset _ _ => exact execCvuAliveReset_kept
  | windowOutcome _ _ => exact execWindowOutcome_kept
  | gpcOutcome _ _ => exact execGpcOutcome_kept
  | strgGetInfo _ => exact execStrgGetInfo_kept
  | strgSetTelltale _ => exact execStrgSetTelltale_kept
  | strgChime _ => exact execStrgChime_kept
  | strgHandover _ => exact execStrgHandover_kept
  | strgKeyLoad _ => exact execStrgKeyLoad_kept
  | strgPermitTiming _ => exact execStrgPermitTiming_kept
  | permitExpiry _ => exact execPermitExpiry_kept
  | strgReqDoorbell _ => exact execStrgReqDoorbell_kept
  | telltaleRefreshExpiry _ => exact execTelltaleRefreshExpiry_kept
  | blinkPhaseUpdate _ => exact execBlinkPhaseUpdate_kept
  | chimeVoiceFree _ => exact execChimeVoiceFree_kept
  | tchSetPanel _ => exact execTchSetPanel_kept
  | tchSetRegion _ => exact execTchSetRegion_kept
  | tchRecalibrate _ => exact execTchRecalibrate_kept
  | tchSetWake _ => exact execTchSetWake_kept
  | tchCapture _ => exact execTchCapture_kept
  | touchFrameStart _ => exact execTouchFrameStart_kept
  | touchFrameEnd _ _ _ _ => exact execTouchFrameEnd_kept
  | suspectStableTimeout _ _ => exact execSuspectStableTimeout_kept
  | contactStuck _ _ => exact execContactStuck_kept
  | touchBaselineSave _ _ => exact execTouchBaselineSave_kept
  | wakeScan _ _ _ => exact execWakeScan_kept
  | wakePendingClear _ => exact execWakePendingClear_kept
  | hapSetChannel _ => exact execHapSetChannel_kept
  | hapLoadEffect _ => exact execHapLoadEffect_kept
  | hapPlay _ => exact execHapPlay_kept
  | hapStop _ => exact execHapStop_kept
  | hapCalibrate _ => exact execHapCalibrate_kept
  | calibrationComplete _ _ _ _ _ _ => exact execCalibrationComplete_kept
  | hapLoopPeriod _ _ => exact execHapLoopPeriod_kept
  | vhvSag _ => exact execVhvSag_kept
  | vhaptLoss _ => exact execVhaptLoss_kept
  | audSetPort _ => exact execAudSetPort_kept
  | audSetEndpoint _ => exact execAudSetEndpoint_kept
  | audSetNode _ => exact execAudSetNode_kept
  | audSetRoute _ => exact execAudSetRoute_kept
  | audCommit _ => exact execAudCommit_kept
  | audioBlock _ _ _ => exact execAudioBlock_kept
  | tdmPortLost _ => exact execTdmPortLost_kept
  | tdmPortRelock _ => exact execTdmPortRelock_kept
  | pwrVote _ => exact execPwrVote_kept
  | pwrSetState _ => exact execPwrSetState_kept
  | pwrMemIdlePermit _ => exact execPwrMemIdlePermit_kept
  | pwrClearFail _ => exact execPwrClearFail_kept
  | pcuWake _ _ => exact execPcuWake_kept
  | dormantWriteDrop _ _ => exact execDormantWriteDrop_kept
  | domainStepReady _ => exact execDomainStepReady_kept
  | domainStepTimeout _ => exact absurd (by simp [Obligations.EndsSafeState]) hi
  | domainDrop _ => exact execDomainDrop_kept
  | pllLockLoss _ _ => exact execPllLockLoss_kept
  | fabLinkUp _ _ _ => exact execFabLinkUp_kept
  | fabLinkLoss _ => exact execFabLinkLoss_kept
  | flitResend _ _ => exact execFlitResend_kept
  | flitDiscovery _ _ => exact execFlitDiscovery_kept
  | flitObjectRead _ _ => exact execFlitObjectRead_kept
  | flitObjectData _ _ => exact execFlitObjectData_kept
  | flitObjectWrite _ _ => exact execFlitObjectWrite_kept
  | flitWriteAck _ _ => exact execFlitWriteAck_kept
  | flitMgmtPacket _ _ _ => exact execFlitMgmtPacket_kept
  | flitMgmtReply _ _ _ _ _ => exact execFlitMgmtReply_kept
  | flitTime _ _ => exact execFlitTime_kept
  | managementWake _ => exact execManagementWake_kept
  | fabSetRole _ => exact execFabSetRole_kept
  | fabForward _ => exact execFabForward_kept
  | fabSetRelay _ => exact execFabSetRelay_kept
  | fabWake _ => exact execFabWake_kept
  | fabQuery _ => exact execFabQuery_kept
  | ledgRead _ => exact execLedgRead_kept
  | ledgSetCalendar _ => exact execLedgSetCalendar_kept
  | ledgFlush _ => exact execLedgFlush_kept
  | ledgGetCalendar _ => exact execLedgGetCalendar_kept
  | pmuSetCounter _ => exact execPmuSetCounter_kept
  | pmuControl _ => exact execPmuControl_kept
  | pmuSetDump _ => exact execPmuSetDump_kept
  | pmuSetSamples _ => exact execPmuSetSamples_kept
  | pmuDumpPeriod _ _ _ _ => exact execPmuDumpPeriod_kept
  | pmuSample _ _ _ _ _ _ _ _ _ _ => exact execPmuSample_kept
  | crownId _ => exact execCrownId_kept
  | crownChallenge _ => exact execCrownChallenge_kept
  | crownResponse _ => exact execCrownResponse_kept
  | crownReadReg _ => exact execCrownReadReg_kept
  | crownWriteReg _ => exact absurd (by simp [Obligations.EndsSafeState]) hi
  | crownReadMem _ => exact execCrownReadMem_kept
  | crownWriteMem _ => exact execCrownWriteMem_kept
  | crownEnd _ => exact execCrownEnd_kept
  | dbgCoreHalt _ _ => exact execDbgCoreHalt_kept
  | dbgCoreResume _ => exact execDbgCoreResume_kept
  | dbgCoreStep _ _ => exact execDbgCoreStep_kept
  | clerkBreakpointHit _ _ => exact execClerkBreakpointHit_kept
  | shaderBreakpointHit _ _ _ _ _ => exact execShaderBreakpointHit_kept
  | dbgVoteWrite _ => exact execDbgVoteWrite_kept
  | errorRecord _ _ _ _ _ _ _ _ => exact execErrorRecord_kept
  | errorAck _ _ => exact execErrorAck_kept
  | errorAckAll _ => exact execErrorAckAll_kept
  | clerkCoreException _ _ _ => exact execClerkCoreException_kept
  | clerkRestart _ _ _ => exact execClerkRestart_kept
  | supplyMonitorTrip _ _ _ => exact execSupplyMonitorTrip_kept
  | thermalTrip _ => exact execThermalTrip_kept
  | recoveryReset _ _ => exact absurd (by simp [Obligations.EndsSafeState]) hi
  | bootSequence _ _ => exact absurd (by simp [Obligations.EndsSafeState]) hi
  | xspiOwnRelease _ _ => exact execXspiOwnRelease_kept
  | fwStage _ _ _ => exact execFwStage_kept
  | fwSwitch _ => exact execFwSwitch_kept
  | tdmFsEdge _ _ => exact execTdmFsEdge_kept
  | vhvSagEnd _ => exact execVhvSagEnd_kept
  | vhaptRestored _ => exact execVhaptRestored_kept
  | clerkRestartComplete _ => exact execClerkRestartComplete_kept
  | xtal32Qualified => exact execXtal32Qualified_kept
  | xtal32QualifyTimeout => exact execXtal32QualifyTimeout_kept
  | vsaveArmTimeout => exact execVsaveArmTimeout_kept
  | vddaoRecovered => exact execVddaoRecovered_kept
  | vsaveExhausted => exact absurd (by simp [Obligations.EndsSafeState]) hi
  | ledgerPeriodicUpdate => exact execLedgerPeriodicUpdate_kept
  | wearSaveBufferAdd => exact execWearSaveBufferAdd_kept
  | retrainHourRecord => exact execRetrainHourRecord_kept
  | managerLossCleared => exact execManagerLossCleared_kept
  | placementEpoch => exact execPlacementEpoch_kept
  | epochOverrun => exact execEpochOverrun_kept
  | arenaChunkFreed => exact execArenaChunkFreed_kept
  | poseStale => exact execPoseStale_kept
  | scrubPeriodEnd => exact execScrubPeriodEnd_kept
  | handoverQuiesced => exact execHandoverQuiesced_kept
  | boostUp => exact execBoostUp_kept
  | drainComplete => exact execDrainComplete_kept
  | wakeFromDormant => exact execWakeFromDormant_kept
  | wakeFromHairspring => exact execWakeFromHairspring_kept
  | refclkStop => exact execRefclkStop_kept
  | fabricConverged => exact execFabricConverged_kept
  | fabricTimeHold => exact execFabricTimeHold_kept
  | crownAuthVerified => exact execCrownAuthVerified_kept
  | crownSessionTimeout => exact execCrownSessionTimeout_kept
  | crownLockoutEnd => exact execCrownLockoutEnd_kept
  | dbgStrgHalt => exact execDbgStrgHalt_kept
  | dbgStrgResume => exact execDbgStrgResume_kept
  | strgWatchdogExpiry => exact execStrgWatchdogExpiry_kept
  | safeStateEntry => exact execSafeStateEntry_kept
  | rollbackRaise => exact execRollbackRaise_kept
  | strongroomSwitchTimeout => exact execStrongroomSwitchTimeout_kept
  | refclkHoldoverEnd => exact execRefclkHoldoverEnd_kept
  | takeoverComplete => exact execTakeoverComplete_kept
  | fwSwitchComplete => exact execFwSwitchComplete_kept
  | stateEntryComplete => exact absurd (by simp [Obligations.EndsSafeState]) hi

theorem execPowerOnReset_cold {s t : State} {c : Bool} (h : execPowerOnReset c s = .next t) : t.kept = (s.pending, 0, none) := by
  injection h with h
  rw [← h]
  split <;> simp

theorem execVsaveExhausted_cold {s t : State} (h : execVsaveExhausted s = .next t) : t.kept = s.kept ∨ t.kept = (s.pending, 0, none) := by
  injection h with h
  rw [← h]
  split
  · exact .inr (State.coldLoss_kept ..)
  · exact .inl rfl

/-- What a command that may end the safe state does to what is kept: at most the loss of the main supplies, or a cold boot, or a boot that applies
a binding table. -/
theorem exec_fate {i : Instr} {s t : State} (hi : Obligations.EndsSafeState i) (h : exec i s = .next t) :
    Loses s t ∨ (((∃ c, i = .powerOnReset c) ∨ i = .vsaveExhausted) ∧ t.kept = (s.pending, 0, none)) ∨
      ((∃ a b, i = .bootSequence a b) ∧ SameClock s t) := by
  obtain ⟨w, a, z, v, rfl⟩ | ⟨f, rfl⟩ | ⟨w, k, rfl⟩ | ⟨p, rfl⟩ | ⟨c, rfl⟩ | rfl | ⟨own, us, rfl⟩ | ⟨d, rfl⟩ | rfl := hi
  · exact .inl (execRegisterWrite_loses s w a z v t h)
  · exact .inl (execCrownWriteReg_loses s f t h)
  · exact .inl (execRecoveryReset_loses s w k t h)
  · exact .inl (execPerstAssert_loses s p t h)
  · exact .inr (.inl ⟨.inl ⟨c, rfl⟩, execPowerOnReset_cold h⟩)
  · obtain h | h := execVsaveExhausted_cold h
    · exact .inl (.inl h)
    · exact .inr (.inl ⟨.inr rfl, h⟩)
  · exact .inr (.inr ⟨⟨own, us, rfl⟩, execBootSequence_sameClock h⟩)
  · exact .inl (execDomainStepTimeout_loses s d t h)
  · exact .inl (execStateEntryComplete_loses s t h)

/-- Settles O5: a command keeps the queue, and the timebase unless it is a cold boot, since every operation of the model leaves
`State.kept` as it was. -/
theorem queueAndTimebase : Obligations.QueueAndTimebase := by
  unfold Obligations.QueueAndTimebase
  intro i s t h
  by_cases hi : Obligations.EndsSafeState i
  · obtain hl | ⟨hc, hk⟩ | ⟨-, hq, hn⟩ := exec_fate hi h
    · obtain ⟨hq, hn⟩ := SameClock.of_loses hl
      exact ⟨hq, .inl hn⟩
    · exact ⟨congrArg (·.1) hk, .inr hc⟩
    · exact ⟨hq, .inl hn⟩
  · obtain ⟨hq, hn⟩ := SameClock.of_kept (exec_kept i hi t h)
    exact ⟨hq, .inl hn⟩

/-- Settles O7: outside a boot the binding table stays, or is gone with the main supplies. -/
theorem bindingHolds : Obligations.BindingHolds := by
  unfold Obligations.BindingHolds
  intro i s t h
  by_cases hi : Obligations.EndsSafeState i
  · obtain (hk | hk) | ⟨-, hk⟩ | ⟨hb, -⟩ := exec_fate hi h
    · exact .inl (congrArg (·.2.2) hk)
    · exact .inr (.inl ⟨hi, congrArg (·.2.2) hk⟩)
    · exact .inr (.inl ⟨hi, congrArg (·.2.2) hk⟩)
    · exact .inr (.inr hb)
  · exact .inl (congrArg (·.2.2) (exec_kept i hi t h))

end Sys2Proof.Machine

namespace Sys2Proof.Tests
open Sys2Proof Sys2Proof.Machine

/-- A cold boot does restart the timebase. -/
theorem test_coldLoss_restartsTimebase : (State.coldLoss { State.reset with now := 5 } false).now = 0 :=
  congrArg (·.2.1) (State.coldLoss_kept ..)

/-- The loss of the main supplies does take a binding table away. -/
theorem test_loseMain_dropsBinding (b : Binding) : (State.reset.setBinding b).strg.bind = some b ∧ (State.reset.setBinding b).loseMain.strg.bind = none :=
  ⟨rfl, congrArg (·.2.2) (State.loseMain_kept _)⟩

end Sys2Proof.Tests
end
